-- ==== Sys2Proof/Word.lean ====
section
/-! DEFINITION. The fabric word of R12 and R112 and the byte. -/

namespace Sys2Proof

/-- One octet (R13). -/
abbrev Byte := BitVec 8

/-- A word token: 128 data bits and the sideband bits LAST [128], POISON [129], U0 [130], U1 [131] (R12). -/
structure Word where
  data : BitVec 128
  last : Bool
  poison : Bool
  u0 : Bool
  u1 : Bool
deriving DecidableEq, Repr

/-- The word of zeros, sideband included. -/
def Word.zero : Word := ⟨0, false, false, false, false⟩

/-- The 132 bits of a word, bit 131 first (R12). -/
def Word.bits (w : Word) : BitVec 132 :=
  (BitVec.ofBool w.u1 ++ BitVec.ofBool w.u0 ++ BitVec.ofBool w.poison ++ BitVec.ofBool w.last ++ w.data : BitVec 132)

/-- The word that 132 bits spell (R12). -/
def Word.ofBits (b : BitVec 132) : Word :=
  ⟨b.extractLsb' 0 128, b.getLsbD 128, b.getLsbD 129, b.getLsbD 130, b.getLsbD 131⟩

end Sys2Proof
end

