-- ==== Sys2Proof/Syntax.lean ====
section
/-! DEFINITION. The commands of the block: one constructor of `Instr` for each row of spec/opcode_table.json, with the
operands the row's rule gives it. What the physical world decides (an ECC class, a temperature, a verification result, a
frame that arrives) is an operand of the command that carries it (notes/assumptions/5.md). -/

namespace Sys2Proof

/-- A region, die.region (R5). -/
structure Region where
  die : Fin 2
  region : Fin 32
deriving DecidableEq, Repr

/-- A cluster, die.region.cluster (R5). -/
structure Clu where
  die : Fin 2
  region : Fin 32
  cluster : Fin 64
deriving DecidableEq, Repr

/-- A Logic Unit, die.region.cluster.unit (R5). -/
structure LuLoc where
  die : Fin 2
  region : Fin 32
  cluster : Fin 64
  unit : Fin 256
deriving DecidableEq, Repr

/-- Who sends an object request (R483): a physical function's mailbox, the Kimbe chain, or a die's fabric client channel. -/
inductive Req where
  | pf (f : Fin 9)
  | kimbe
  | client (die : Fin 2)
deriving DecidableEq, Repr

/-- Outcome of the SEC-DED check of a word read or received (R103, R138, R254). -/
inductive Ecc where
  | clean
  | corrected
  | uncorrectable
deriving DecidableEq, Repr

/-- A log or replay stream (R152): a region's, a Locus queue's or an Annulus window's. -/
inductive Stream where
  | region (r : Region)
  | queue (die : Fin 2) (q : Fin 512)
  | window (w : Fin 64)
deriving DecidableEq, Repr

/-- A Tangent site (R186): a user site, a lane gearbox FIFO, a host channel, an Annulus port, an Apex user-object channel
(server or client) or a Perimeter pin crossing. -/
inductive Site where
  | user (die : Fin 2) (s : Fin 64)
  | lane (die : Fin 2) (l : Fin 8) (k : Fin 4)
  | host (h : Fin 32)
  | memory (die : Fin 2) (p : Fin 32)
  | object (die : Fin 2) (server : Bool)
  | pin (c : Fin 40)
deriving DecidableEq, Repr

/-- A PLL loop: n = 0 to 8 in the order of R203. -/
structure Loop where
  die : Fin 2
  n : Fin 9
deriving DecidableEq, Repr

/-- A user clocked island (R190). -/
structure Island where
  die : Fin 2
  i : Fin 4
deriving DecidableEq, Repr

/-- A Ray lane, or the port whose first lane it is (R292). -/
structure Lane where
  die : Fin 2
  l : Fin 8
deriving DecidableEq, Repr

/-- A function of the Host Port (R297): a PF (v = 0) or a VF (v = 1 to 32) of PF f. -/
structure Func where
  f : Fin 9
  v : Fin 33
deriving DecidableEq, Repr

/-- A Kimbe frame as received (R490): CRC result and payload apart from the header. `cut` is an end with K30.7. -/
structure KFrame where
  dest : Fin 64
  reply : Bool
  src : Fin 64
  cmd : Nat
  hops : Nat
  payload : List Byte
  crcOk : Bool
  cut : Bool
deriving DecidableEq, Repr

/-- One LU's configuration: its control word of R43, its truth tables (R41) and the selects of IN0 to IN5. -/
structure LuCfg where
  ctrl : BitVec 24
  f : BitVec 64
  g : BitVec 64
  sel : List (BitVec 10)
deriving DecidableEq, Repr

/-- One Prism's configuration (R115, R117, R119). -/
structure PrismCfg where
  ctrl : BitVec 16
  ops : List (BitVec 64)
  k : BitVec 128
  l0 : BitVec 128
  l1 : BitVec 128
  l2 : BitVec 128
  l3 : BitVec 128
deriving DecidableEq, Repr

/-- A setting that configuration frames carry (R368), after decoding of the frames. -/
inductive Setting where
  | lu (u : LuLoc) (c : LuCfg)
  | chordOut (c : Clu) (b : Fin 32) (code : BitVec 10)           -- outbound bit channel select (R84)
  | gatherSide (c : Clu) (g : Fin 4) (k : Fin 4) (code : BitVec 10) -- sideband select of a gather (R87)
  | wordSel (c : Clu) (sink : Fin 9) (code : Fin 16)              -- Chord word select (R86)
  | spanBitIn (c : Clu) (b : Fin 32) (code : BitVec 12)           -- inbound bit channel (R89)
  | spanBitSite (r : Region) (slot : Fin 32) (code : BitVec 12)   -- site bit input (R89)
  | spanWordIn (c : Clu) (w : Fin 4) (code : BitVec 9)            -- inbound word channel (R90)
  | spanWordArc (r : Region) (side : Fin 4) (seg : Fin 32) (code : BitVec 9) -- Arc position as sink (R90)
  | spanWordSite (r : Region) (slot : Fin 16) (code : BitVec 9)   -- site word input (R90)
  | drive (r : Region) (side : Fin 4) (mask : BitVec 32)          -- segment enables of one side (R95)
  | prism (c : Clu) (p : PrismCfg)
  | pool (c : Clu) (ctrl : BitVec 56)
  | poolData (c : Clu) (base : Fin 512) (ws : List Word)          -- a run of the Pool section (R383)
  | site (die : Fin 2) (s : Fin 64) (cfg : BitVec 16)             -- user site control word (R188)
  | pinFunc (p : Fin 40) (code : BitVec 16)                       -- FUNC of periphery group p mod 20 (R524)
deriving DecidableEq, Repr

/-- A tenant's delegation entry (R441). -/
structure Delegation where
  tenant : Fin 8
  key0 : Nat
  key1 : Nat
  counters : BitVec 64
  cekPresent : Bool
  cekOk : Bool
deriving DecidableEq, Repr

/-- A container (R376, R378 to R383) as it reaches the checks of R384. The fields named `...Ok` and `frameFault` are the
outcomes of the arithmetic that the spec names and this model does not compute (digests, signatures, GCM tags). -/
structure Container where
  full : Bool
  headerOk : Bool
  digestOk : Bool
  sigEcOk : Bool
  sigMlOk : Bool
  owner : Nat
  keyId : BitVec 32
  signerHash : Nat                        -- SHA-384 digests of the SIGNER keys, ECDSA first (R441)
  counter : Fin 64
  version : BitVec 8
  minVersion : BitVec 8
  force : Bool
  acceptMs : Nat
  targetD0 : BitVec 32
  targetD1 : BitVec 32
  periphD0 : BitVec 32
  periphD1 : BitVec 32
  records : List (Nat × List (Nat × Nat)) -- object index, then subindex and value (R380)
  sectionOk : Bool                        -- every record whole, sections filled exactly (R380)
  frames : List (BitVec 16 × Nat)         -- first frame address and frame count of each block (R382)
  blockFault : Option (Bool × Nat)        -- a failing block: true for its GCM tag, and its byte offset (R384)
  settings : List Setting
  ebm : List Region                       -- targets whose container carries an essential-bit map (R413)
  delegations : List Delegation
  chainRemain : Nat
  bytes : Nat
  manifestHash : BitVec 384               -- SHA-384 of the manifest, to the end of its directory (R453)
  measures : List (Region × BitVec 384)   -- measurement of each target region (R454)
deriving DecidableEq, Repr

/-- The bitstream image table as the flash holds it (R373): OFFSET and LENGTH of images 0 to 3, and DEFAULT. -/
structure ImageTable where
  images : Vector (BitVec 32 × BitVec 32) 4
  first : Fin 4
deriving DecidableEq, Repr

/-- A frame read back wrong (R409, R413): its address, the wrong bit positions, the class of its syndrome and whether the
ACTIVE staging copy passes its checks. `cause` is the cause of event 0x0203 and `copyFault` that of event 0x0204. -/
structure FrameFault where
  addr : BitVec 16
  bits : List (Nat × Bool)                -- wrong bit, essential or not
  correctable : Bool
  cause : Nat
  copyFault : Option Nat
  lastCleanUs : BitVec 32
deriving DecidableEq, Repr

/-- A DMA descriptor (R309). -/
structure Descriptor where
  hostAddr : BitVec 64
  dev : BitVec 64
  length : BitVec 32
  control : BitVec 32
  user : BitVec 32
deriving DecidableEq, Repr

/-- A token of R456, with the outcomes of its signature checks. -/
structure DebugToken where
  formOk : Bool
  domain : Nat
  serial : Nat
  challenge : Nat
  durationS : Nat
  scope : BitVec 32
  keyId : BitVec 32
  signerHash : Nat
  sigEcOk : Bool
  sigMlOk : Bool
deriving DecidableEq, Repr

/-- A firmware image of R446, with the outcomes of its checks. -/
structure FwImage where
  headerOk : Bool
  sigOk : Bool
  svn : Fin 32
  minSvn : Fin 32
  gcmOk : Bool
  codeDigest : Nat
  version : BitVec 32
deriving DecidableEq, Repr

/-- What a configuration read asks for (R294, R297): a register that the spec names, or another. -/
inductive CfgReg where
  | vendorId
  | deviceId
  | classCode
  | maxPayload
  | maxReadRequest
  | msixSize
  | errors
  | bar2
  | numVfs
  | cplTimeout
  | other
deriving DecidableEq, Repr

/-- A configuration request to a function (R296): a read; a write of a register that no rule of this spec names; or a write by
which the host chooses the size of BAR2 (2 MiB times 2 to a power, R303), enables VFs, sets the completion timeout (R331), the
maximum payload or read request size (128 B times 2 to a power, R294), an entry of the MSI-X table (R299,
notes/assumptions/193.md), or clears bits of the error status (R294). -/
inductive CfgAccess where
  | read (r : CfgReg)
  | write
  | bar2 (log2 : Fin 15)
  | numVfs (n : Fin 33)
  | cplTimeout (us : BitVec 32)
  | maxPayload (log2 : Fin 6)
  | maxReadRequest (log2 : Fin 6)
  | msixEntry (k : Fin 2048) (v : BitVec 128)
  | clearErrors (v : BitVec 32)
deriving DecidableEq, Repr

/-- A claimed resource of R33 that an object record names. -/
inductive Resource where
  | engine (e : Fin 64)
  | ring (r : Fin 256)
  | slot (s : Fin 64)
  | serial (k : Fin 5)
  | pwm (k : Fin 4)
  | tscap (k : Fin 4)
  | line (n : Fin 10)
  | testSlot (s : Fin 16)
deriving DecidableEq, Repr

/-- One line's frame received in an Ethernet port (R274 to R276), with the FEC codewords corrected, not corrected and the
symbols corrected since the frame before it (R292). -/
structure RxFrame where
  bytes : List Byte
  cwCorrected : Nat
  cwUncorrectable : Nat
  symbols : Nat
  preambleErr : Bool
  codeErr : Bool
  uncorrWords : List Nat                  -- data words that hold a byte of an uncorrectable codeword
  subNs : Bool                            -- the time-stamp point lies in the second half of the nanosecond
deriving DecidableEq, Repr

/-- A deferrable item of the planner (R358). -/
structure PlanItem where
  kind : Fin 6
  account : Fin 10
  cost : BitVec 32
  duration : BitVec 32
  earliest : Nat
  deadline : Nat
  ref : Nat                               -- die, slot or pass part the item works on
deriving DecidableEq, Repr

/-- Kinds of object write by the OTP rows (R438). -/
inductive OtpField where
  | sigPolicy
  | debugPolicy
  | tamperPolicy
  | userOtp (n : Fin 32)
deriving DecidableEq, Repr

/-- A level change or selection of a pin's setting (R518). -/
inductive PinSetting where
  | drive
  | pull
  | outValue
deriving DecidableEq, Repr

/-- A TDISP request that moves a TDI (R329). -/
inductive TdispOp where
  | lock
  | start
  | stop
deriving DecidableEq, Repr

/-- What programming OTP meets (R438): success, VFUSE outside its range, Tj outside its range, or a read-back mismatch with the
bits programmed so far: their number for a counter, their mask for any other field. -/
inductive OtpResult where
  | ok
  | vfuse
  | temperature
  | mismatch (programmed : Nat)
deriving DecidableEq, Repr

/-- Measurements and outcome of a self-test at its end (R539). -/
structure TestOutcome where
  doneCount : Nat
  sealedRun : Bool
  signature : BitVec 64
  expected : BitVec 64
  errors : BitVec 64
  measure : Nat
  restored : Bool
deriving DecidableEq, Repr

/-- The commands: the rows of spec/opcode_table.json in its order. -/
inductive Instr where
  -- Logic Units, regions and fences (02)
  | drCapture (u : LuLoc)
  | drEmpty (u : LuLoc)
  | joinedRequestRise (u : LuLoc)
  | bdCapture (u : LuLoc)
  | bdEmpty (u : LuLoc)
  | ceOutputChange (u : LuLoc)
  | mxGrant (u : LuLoc)
  | mxGrantRelease (u : LuLoc)
  | resetCtrlWrite (q : Req) (r : Region) (v : BitVec 8)
  | regionResetStart (r : Region)
  | regionResetReload (r : Region)
  | fenceSetUser (q : Req) (r : Region) (force : Bool)
  | fenceClearUser (q : Req) (r : Region) (force : Bool)
  | borderChannelClose (r : Region) (ch : BitVec 32)
  | regionSettled (r : Region)
  | quiesceTimeoutExpiry (r : Region)
  -- Arc and Bisector (03)
  | relayStationTransfer (r : Region) (side : Fin 4) (seg : Fin 32) (receiving : Bool)
  | bisectorSend (east : Bool) (ch : Fin 64)
  | bisectorReceive (east : Bool) (ch : Fin 64) (ecc : Ecc) (asReceived : Word)
  | bisectorCreditReturn (east : Bool) (ch : Fin 64)
  -- Prism and Pool (04)
  | prismOperation (c : Clu)
  | poolCmdRead (c : Clu) (p : Fin 2) (ecc : Ecc)
  | poolCmdWrite (c : Clu) (p : Fin 2)
  | poolSeqWrite (c : Clu) (p : Fin 2)
  | poolSeqRead (c : Clu) (p : Fin 2) (ecc : Ecc)
  | poolFifoWrite (c : Clu)
  | poolFifoRead (c : Clu) (ecc : Ecc)
  | poolPair (c : Clu) (ecc0 ecc1 : Ecc)
  -- Determinism (05)
  | logStalled (st : Stream)
  | replayDecision (st : Stream)
  | replayStalled (st : Stream)
  | marginCheck (r : Region) (stepPs pathPs : Nat) (bundleOk : Bool)
  | marginClear (q : Req) (r : Region) (v : BitVec 8)
  | logQueueWrite (q : Req) (r : Region) (v : BitVec 16)
  | replayQueueWrite (q : Req) (st : Stream) (v : BitVec 16)
  | siteModeWrite (q : Req) (r : Region) (v : BitVec 8)
  -- Tangent cells, clocks and time (06)
  | wordFifoFabricWrite (site : Site) (w : Word)
  | wordFifoIslandWrite (site : Site) (w : Word)
  | valueFabricWrite (site : Site) (w : Word)
  | valueReadRequest (site : Site) (w : Word)
  | valueIslandWrite (site : Site) (v : BitVec 128)
  | islandPulse (site : Site)
  | pulseReturnToggle (site : Site)
  | fabricPulse (site : Site)
  | countIslandEvent (site : Site)
  | countFabricToken (site : Site)
  | skew (site : Site) (islandHalf : Bool)
  | timeSiteRequest (r : Region)
  | pllStart (l : Loop)
  | pllLock (l : Loop)
  | pllLockTimeout (l : Loop)
  | pllIdleStop (l : Loop)
  | pllLockLost (l : Loop)
  | pllHoldoverExpiry (l : Loop)
  | islandWake (l : Loop)
  | islandEnable (q : Req) (i : Island) (v : BitVec 8)
  | islandReset (q : Req) (i : Island) (v : BitVec 8)
  | aoClockFail
  | rcTrim
  | refclkLost
  | refclkRestored
  | offsetAdjust (q : Req) (v : BitVec 64)
  | timeSyncSend
  | timeSync (f : KFrame) (residence : Nat)
  | timeSyncLost
  -- Locus (07)
  | locusTagWord (die : Fin 2) (p : Fin 128) (w : Word)
  | locusItemWord (die : Fin 2) (p : Fin 128) (w : Word)
  | locusRead (die : Fin 2) (p : Fin 128)
  | spillReturn (die : Fin 2) (q : Fin 512)
  | idleTimeout (die : Fin 2) (q : Fin 512)
  | handoff (die : Fin 2) (q : Fin 512)
  | flush (q : Req) (die : Fin 2) (n : Fin 512) (v : BitVec 8)
  | flushed (die : Fin 2) (q : Fin 512)
  -- Annulus (08)
  | memoryRead (die : Fin 2) (p : Fin 32) (w : Word)
  | memoryWrite (die : Fin 2) (p : Fin 32) (w : Word) (data : List Word)
  | memoryWriteAck (die : Fin 2) (p : Fin 32) (w : Word) (data : List Word)
  | memoryOpReserved (die : Fin 2) (p : Fin 32) (w : Word)
  | requestAdmission (die : Fin 2) (p : Fin 32)
  | pcCommandIssue (die : Fin 2) (pc : Fin 32) (ecc : List Ecc)
  | ageExceeded (die : Fin 2) (pc : Fin 32)
  | perBankRefreshDue (die : Fin 2) (pc : Fin 32)
  | refreshComplete (die : Fin 2) (pc : Fin 32)
  | refreshDebtLimit (die : Fin 2) (pc : Fin 32)
  | stackTempSample (die : Fin 2) (celsius : Int)
  | parityAlert (die : Fin 2) (channel : Fin 16)
  | parityReplay (die : Fin 2) (channel : Fin 16)
  | stackTraining (die : Fin 2) (failing : Option (Fin 16))
  | powerDownEntry (die : Fin 2) (pc : Fin 32)
  | selfRefreshEntry (die : Fin 2)
  | selfRefreshExit (die : Fin 2)
  | windowZeroing (w : Fin 64)
  -- Ray (09)
  | laneUp (l : Lane)
  | laneDown (l : Lane) (lockLost : Bool)
  | portUp (l : Lane)
  | portDown (l : Lane)
  | remoteFault (l : Lane)
  | refclkLostRay (die : Fin 2)
  | rxFrame (l : Lane) (f : RxFrame)
  | txFrameStart (l : Lane) (subNs : Bool)
  | txUnderrunError (l : Lane)
  | rawRxWord (l : Lane) (bits : BitVec 128)
  | rawFill (l : Lane)
  | rxSlip (q : Req) (l : Lane) (v : BitVec 8)
  | transmitStampRequest (l : Lane) (w : Word)
  | txTapWrite (q : Req) (l : Lane) (tap : Fin 4) (v : BitVec 16)
  -- Host Port (10)
  | configurationRequest (f : Func) (a : CfgAccess)
  | mailboxRead (f : Fin 9) (idx : BitVec 16) (sub : BitVec 8) (vector : BitVec 16)
  | mailboxWrite (f : Fin 9) (idx : BitVec 16) (sub : BitVec 8) (data : List Byte) (vector : BitVec 16)
  | mailboxOverlap (f : Fin 9)
  | mailboxDone (f : Fin 9)
  | apertureAccess (f : Fin 9) (offset : Nat) (write : Option (List Byte)) (len : Nat) (inStream : Bool)
  | completionArrival (tag : Fin 4096)
  | completionTimeout (tag : Fin 4096)
  | dmaTail (f : Func) (e : Fin 64) (v : BitVec 32)
  | dmaRun (f : Func) (e : Fin 64) (base : BitVec 64) (log2 : Nat)
  | dmaStop (f : Func) (e : Fin 64)
  | dmaRestart (f : Func) (e : Fin 64)
  | dmaDescriptorComplete (e : Fin 64) (d : Descriptor) (data : List Byte) (poisoned : List Nat) (hostError : Bool)
  | ringEnable (f : Func) (r : Fin 256) (base : BitVec 64) (cfg moderation filter : BitVec 32)
  | ringHead (f : Func) (r : Fin 256) (v : BitVec 32)
  | moderationWindowClose (r : Fin 256)
  | functionLevelResetPf (n : Fin 8)
  | domainReset (q : Req) (f : Fin 9) (v : BitVec 8)
  | flrDone (f : Func)
  | functionLevelResetVf (f : Fin 8) (v : Fin 32)
  | functionLevelResetPf0
  | perstN
  | hotReset
  | linkLoss
  | spdmMessage (f : Fin 9) (startsSession : Bool)
  | ideKm (f : Fin 9) (stream : Fin 9)
  | ideFailure (stream : Fin 9)
  | tdispMessage (f : Func) (op : TdispOp) (stream : Fin 9)
  | setSlotPowerLimit (value : BitVec 10) (scaleMw : Nat)
  | resourceClaim (q : Req) (res : Resource)
  | resourceRelease (q : Req) (res : Resource)
  -- Energy Ledger (11)
  | railTrim (die : Fin 2) (rail : Fin 3) (mv : Int)
  | regulatorFault (die : Fin 2) (rail : Fin 4) (mv : BitVec 16)
  | overLimit (ma : BitVec 32)
  | railHop (r : Region) (target : Fin 3) (cause : Fin 6)
  | railHopDone (r : Region)
  | thermalHop (die : Fin 2)
  | meterCollection (temps : List (Region × Int)) (faults : List FrameFault)
  | windowBoundary (temps : List (Region × Int)) (loss : Vector Nat 8) (vinfUj : Nat)
  | calibration (measured : Vector Nat 8) (rings : List (Region × Nat))
  | resume (q : Req) (a : Fin 10) (v : BitVec 8)
  | reserveUjWrite (q : Req) (v : BitVec 64)
  | plannerItemPost (item : PlanItem)
  | plannerForced (i : Fin 256) (faults : List FrameFault)
  | deadlineMissed (i : Fin 256)
  | plannerItemComplete (i : Fin 256) (measured : BitVec 32) (corrected uncorrectable : BitVec 32)
  | powerStateStandby (q : Req)
  | powerStateStandbyGated (q : Req)
  | powerStateRun (q : Req)
  | deviceWake
  | powerOnResetRelease (mode : Fin 8)
  | powerOnResetAssert (vccaoLost : Bool)
  -- Boot and configuration (12, 15)
  | apexBoot (img0 img1 : Option FwImage)
  | fwGo (q : Req) (v : BitVec 8) (img : FwImage)
  | annulusRunning (table : Option ImageTable) (initHeldLow : Bool)
  | fullLoadCommit (c : Container) (readbackOk : Bool)
  | fetchLost (die : Fin 2) (manifestFa : BitVec 16) (offset : BitVec 32)
  | startup
  | doneTimeout
  | accept (q : Req) (v : BitVec 8) (otp : OtpResult)
  | acceptTimeout
  | cfgProgN
  | restart (q : Req) (v : BitVec 8)
  | cfgStream (f : KFrame) (first : Option Nat)
  | loadGo (q : Req) (die : Fin 2) (v : BitVec 8)
  | partialStaging (die : Fin 2) (c : Container)
  | partialCommit (die : Fin 2) (badFrame : Option (BitVec 16)) (otp : OtpResult)
  -- Scrubbing and snapshots (13)
  | scrubPassEnd (die : Fin 2)
  | snapshot (q : Req) (s : Fin 64) (v : BitVec 8)
  | snapshotCopy (s : Fin 64) (faults : List FrameFault) (poison : Option Region)
  | rollback (q : Req) (s : Fin 64) (v : BitVec 8)
  | rollbackRestore (s : Fin 64) (faults : List FrameFault) (badImage : Option (Region × Bool))
  -- Sebex (14)
  | keyDerivation (failing : Option (Fin 2)) (cekOk : Bool)
  | ecHashWrite (q : Req) (s : Fin 4) (v : BitVec 384) (otp : OtpResult)
  | mlHashWrite (q : Req) (s : Fin 4) (v : BitVec 384) (otp : OtpResult)
  | keyRevoked (q : Req) (s : Fin 4) (v : BitVec 8) (otp : OtpResult)
  | policyOtpWrite (q : Req) (f : OtpField) (v : BitVec 256) (otp : OtpResult)
  | ownerCekBlobWrite (q : Req) (blob : List Byte) (unwrapOk : Bool) (otp : OtpResult)
  | counterRetry (c : Fin 64) (otp : OtpResult)
  | nonce (q : Req) (d : BitVec 4) (v : BitVec 256)
  | quoteReady (d : BitVec 4)
  | tokenAppend (q : Req) (d : BitVec 4) (bytes : List Byte)
  | tokenSubmit (q : Req) (d : BitVec 4) (v : BitVec 8) (t : DebugToken)
  | tokenDiscard (q : Req) (d : BitVec 4) (v : BitVec 8)
  | tokenRevoke (q : Req) (d : BitVec 4) (v : BitVec 8)
  | tokenExpiry (d : BitVec 4)
  | samplePreload (capture : BitVec 120)
  | idcode
  | highz
  | clamp
  | extest (cells : BitVec 120)
  | dbgChallenge (owner : BitVec 8)
  | dbgToken (t : DebugToken)
  | dbgStatus
  | stateRead (r : Region)
  | apexAccess
  | rmaEnter
  | bypass
  | drbgReseed
  | entropyFail (test : Fin 3)
  | tamper
  | tamperAck (q : Req) (v : BitVec 8)
  -- Apex, dictionary and Kimbe (15)
  | apexWake (die : Fin 2)
  | apexIdle (die : Fin 2)
  | apexWatchdog (die : Fin 2)
  | objectWrite (q : Req) (idx : BitVec 16) (sub : BitVec 8) (data : List Byte)
  | userObjectClientRequest (die : Fin 2) (header : Word) (data : List Byte)
  | userObjectServerResponse (die : Fin 2) (header : Word) (data : List Byte)
  | userTimeout (die : Fin 2)
  | assign (f : KFrame)
  | assignGo (q : Req) (v : BitVec 8)
  | ringDetectTimeout
  | kimbeLink (inSync outUp : Bool)
  | odRead (f : KFrame)
  | odWrite (f : KFrame)
  | odResp (f : KFrame)
  | eventFrame (f : KFrame)
  | ping (f : KFrame)
  | kimbeFrameForward
  | leaseSend
  | lease (fromDie : Fin 2) (epoch : BitVec 32) (primeClaim : Bool)
  | tieLineRelease (die : Fin 2)
  | leaseLapsed (die : Fin 2)
  | splitHold (epochOther : BitVec 32)
  | primeSelect (q : Req) (v : BitVec 8) (otherAcks : Bool)
  -- Perimeter (16)
  | vccioMeasurement (bank : Fin 4) (mv : BitVec 16)
  | funcWrite (q : Req) (p : Fin 40) (v : BitVec 16)
  | pinSettingWrite (q : Req) (p : Fin 40) (setting : PinSetting) (v : BitVec 8)
  | fabricOut (c : Fin 40) (w : Word)
  | fabricIn (c : Fin 40) (w : Word)
  | uartXfer (q : Req) (k : Fin 2) (bytes : List Byte)
  | uartRxRead (q : Req) (k : Fin 2)
  | uartByteReceived (k : Fin 2) (b : Byte)
  | i2cXfer (q : Req) (k : Fin 2) (bytes : List Byte)
  | spiXfer (q : Req) (bytes : List Byte)
  | serialTransferComplete (k : Fin 3) (nack : Bool) (rx : List Byte)
  | pwmPeriodStart (k : Fin 4)
  | tscapEdge (k : Fin 4) (rising : Bool)
  | pinInterrupt (n : Fin 10) (level : Bool)
  | coalesceWindowClose (n : Fin 10) (level : Bool)
  | holdReleased (q : Option Req)
  -- Self-test (17)
  | testPost (q : Req) (s : Fin 16) (v : BitVec 8)
  | testWithdraw (q : Req) (s : Fin 16) (v : BitVec 8)
  | testStart (s : Fin 16)
  | testDone (s : Fin 16) (o : TestOutcome)
  | testEndingRequest (s : Fin 16) (o : TestOutcome)
  | testDurationExpiry (s : Fin 16) (o : TestOutcome)
  -- Thermal and shutdown (18)
  | thermN (celsius : Int)
  | hardShutdown (celsius : Int)
  | shutdownRecovery
  -- Rows added at the table's end
  | pllRelock (l : Loop)
  | aoCrystalReturn
  | timeBaseTick (ticks : Nat)
  | rayRefclkPresent (die : Fin 2)
  | remoteFaultCleared (l : Lane)
  | perstNRelease
  | linkTrainingDone (width : BitVec 8) (rate : Fin 8) (flit : Bool)
  | linkPowerStateChange (st : Fin 8)
  | cfgInitNRelease
  | tamperNRelease
  | rayFarNoLock (s : Fin 16) (o : TestOutcome)
deriving DecidableEq, Repr

end Sys2Proof
end

