-- ==== Sys2Proof/Decode.lean ====
section
/-! DEFINITION. The command that a word spells. spec/opcode_table.json gives no row any bits ("fields" is empty in every
row, and no row has a width), so no word spells a command (notes/assumptions/4.md). -/

namespace Sys2Proof

/-- The command spelt by the word `w` of `nbits` bits: none, since no row of the table has bits. -/
def decodeTableWord (_nbits _w : Nat) : Option Instr := none

end Sys2Proof
end

