-- ==== Sys2Proof/Config.lean ====
section
/-! DEFINITION. What one part fixes in silicon and the values the spec leaves open. Every constant here is opaque: no
proof can see a value of it (notes/assumptions/2.md and 3.md). -/

namespace Sys2Proof

/-- A fresh open value: the model applies it to `State.dev.freeCtr`, which the step then advances. -/
opaque Config.free : Nat → Nat

/-- Which of the two result tokens of a MULW its WB writes to WREG, by descriptor and operands (R119, R125): true for the second. It depends
on nothing else, so that a Prism stays a function of its configuration and its tokens (R123). -/
opaque Config.mulwBack : Nat → Nat → Nat → Bool

/-- The device serial (R437): every part has its own. -/
opaque Config.serial : Nat

/-- The performance bin of the part (R2): true for E2, false for E1. -/
opaque Config.bin2 : Bool

/-- The factory certificates and public keys of object 0x8001 by subindex (R436): every part has its own. -/
opaque Config.constOctets : Nat → Nat

/-- Digests of Laesque's RMA key pair (R440 KIND 3, R441). -/
opaque Config.rmaKey : Nat

/-- Leakage of a region, µW, on a rail at a temperature in m°C for which R342 gives no rate, or with no reading. -/
opaque Config.leakPower : Nat → Option Int → Nat

/-- Power of a lane, mW, in a state, at a rate and modulation for which R291 gives no figure. -/
opaque Config.lanePower : Nat → Nat → Nat → Nat

/-- REF_SEL code that a fixed loop shows for a reference to which the table of REF_SEL gives none (R191, R203): 0 PCIE_REFCLK, 1 + d
RAY_REFCLKd. -/
opaque Config.refCode : Nat → Nat

/-- FREQ_HZ that a die's Ray loop shows: the spec gives no figure for the loop itself, only for the clocks divided from it (R190). -/
opaque Config.rayFreq : Nat → Nat

/-- The board feeds AO_XI from an external CMOS clock instead of the crystal (R197). -/
opaque Config.aoExternal : Bool

/-- Data of a word read with a double-bit error (R254), by where it is stored and when it is read: the spec states none. -/
opaque Config.eccData : Nat → Nat → BitVec 128

/-- CRC-32 of a staged frame (R408, R420), by the staging and the frame: the model holds a frame's settings, not its bits. -/
opaque Config.frameCrc : Nat → Nat → BitVec 32

/-- Power of the host link, mW, while it trains, for which R342 gives no figure. -/
opaque Config.linkPower : Nat

end Sys2Proof
end

