-- ==== Sys2Proof/Machine/ObjTable.lean ====
section
/-! DEFINITION. The object dictionary's table (R477 to R481): one row per object of the object tables of spec/
(R78, R110, R143, R169, R203, R226, R263, R292, R331, R365, R406, R431, R469, R502, R529, R542): its indices,
subindices, length in bytes, access code, default and the values a write may carry. A default marked "manifest" is the
value of a record that no container carries (R380). -/

namespace Sys2Proof.Machine

/-- Access codes of the object dictionary (R479). -/
inductive Access where
  | ro | wo | rw | rwa | cst
deriving DecidableEq, Repr

/-- One row of an object table. `rng` lists the closed intervals a written value must lie in; empty means every value
of the type. `man` marks the subindices a container's record carries (R380). -/
structure ObjRow where
  lo : Nat
  hi : Nat
  s0 : Nat
  s1 : Nat
  bytes : Nat
  acc : Access
  dflt : Nat
  rng : List (Nat × Nat)
  man : Bool
deriving DecidableEq, Repr

/-- Objects 0x1xxx, part 0: R502. -/
def objRows1p0 : List ObjRow := [
  ⟨0x1000, 0x1000, 0x00, 0x00, 1, .cst, 8, [], false⟩,
  ⟨0x1000, 0x1000, 0x01, 0x01, 16, .cst, 28558102775554380, [], false⟩,
  ⟨0x1000, 0x1000, 0x02, 0x02, 16, .cst, 59619249768026, [], false⟩,
  ⟨0x1000, 0x1000, 0x03, 0x03, 16, .cst, 0, [], false⟩,
  ⟨0x1000, 0x1000, 0x04, 0x04, 1, .cst, 176, [], false⟩,
  ⟨0x1000, 0x1000, 0x05, 0x05, 1, .cst, 0, [], false⟩,
  ⟨0x1000, 0x1000, 0x06, 0x06, 8, .cst, 0, [], false⟩,
  ⟨0x1000, 0x1000, 0x07, 0x07, 4, .ro, 0, [], false⟩,
  ⟨0x1000, 0x1000, 0x08, 0x08, 1, .ro, 0, [], false⟩,
  ⟨0x1010, 0x1010, 0x00, 0x00, 1, .cst, 12, [], false⟩,
  ⟨0x1010, 0x1010, 0x01, 0x01, 1, .ro, 0, [], false⟩,
  ⟨0x1010, 0x1010, 0x02, 0x02, 1, .ro, 0, [], false⟩,
  ⟨0x1010, 0x1010, 0x03, 0x03, 1, .ro, 0, [], false⟩,
  ⟨0x1010, 0x1010, 0x04, 0x04, 1, .ro, 0, [], false⟩,
  ⟨0x1010, 0x1010, 0x05, 0x05, 1, .ro, 0, [], false⟩,
  ⟨0x1010, 0x1010, 0x06, 0x06, 2, .rw, 5, [(0, 1000)], false⟩,
  ⟨0x1010, 0x1010, 0x07, 0x07, 1, .rw, 1, [(1, 63)], false⟩,
  ⟨0x1010, 0x1010, 0x08, 0x08, 4, .rw, 147454, [], false⟩,
  ⟨0x1010, 0x1010, 0x09, 0x09, 4, .ro, 0, [], false⟩,
  ⟨0x1010, 0x1010, 0x0A, 0x0A, 8, .ro, 0, [], false⟩,
  ⟨0x1010, 0x1010, 0x0B, 0x0B, 4, .ro, 0, [], false⟩,
  ⟨0x1010, 0x1010, 0x0C, 0x0C, 1, .wo, 0, [(1, 1)], false⟩,
  ⟨0x1020, 0x1020, 0x00, 0x00, 1, .cst, 6, [], false⟩,
  ⟨0x1020, 0x1020, 0x01, 0x01, 1, .ro, 0, [], false⟩]

/-- Objects 0x1xxx, part 1: R502. -/
def objRows1p1 : List ObjRow := [
  ⟨0x1020, 0x1020, 0x02, 0x02, 1, .ro, 255, [], false⟩,
  ⟨0x1020, 0x1020, 0x03, 0x03, 8, .rw, 0, [], false⟩,
  ⟨0x1020, 0x1020, 0x04, 0x04, 4, .rw, 0, [], false⟩,
  ⟨0x1020, 0x1020, 0x05, 0x05, 1, .wo, 0, [(1, 1)], false⟩,
  ⟨0x1020, 0x1020, 0x06, 0x06, 4, .ro, 0, [], false⟩,
  ⟨0x1030, 0x1030, 0x00, 0x00, 1, .cst, 6, [], false⟩,
  ⟨0x1030, 0x1030, 0x01, 0x01, 1, .ro, 0, [], false⟩,
  ⟨0x1030, 0x1030, 0x02, 0x02, 4, .ro, 0, [], false⟩,
  ⟨0x1030, 0x1030, 0x03, 0x03, 1, .ro, 0, [], false⟩,
  ⟨0x1030, 0x1030, 0x04, 0x04, 1, .wo, 0, [(0, 1)], false⟩,
  ⟨0x1030, 0x1030, 0x05, 0x05, 4, .ro, 0, [], false⟩,
  ⟨0x1030, 0x1030, 0x06, 0x06, 4, .ro, 0, [], false⟩,
  ⟨0x1040, 0x1040, 0x00, 0x00, 1, .cst, 17, [], false⟩,
  ⟨0x1040, 0x1040, 0x01, 0x10, 1, .ro, 255, [], true⟩,
  ⟨0x1040, 0x1040, 0x11, 0x11, 4, .rw, 5000, [(100, 9000)], false⟩]

/-- Every object of 0x1xxx. -/
def objRows1 : List ObjRow := objRows1p0 ++ objRows1p1

/-- Objects 0x2xxx, part 0: R406. -/
def objRows2p0 : List ObjRow := [
  ⟨0x2000, 0x2000, 0x00, 0x00, 1, .cst, 11, [], false⟩,
  ⟨0x2000, 0x2000, 0x01, 0x01, 1, .ro, 0, [], false⟩,
  ⟨0x2000, 0x2000, 0x02, 0x02, 1, .ro, 0, [], false⟩,
  ⟨0x2000, 0x2000, 0x03, 0x03, 1, .ro, 255, [], false⟩,
  ⟨0x2000, 0x2000, 0x04, 0x04, 1, .rw, 255, [(0, 3)], false⟩,
  ⟨0x2000, 0x2000, 0x05, 0x05, 1, .wo, 0, [(1, 1)], false⟩,
  ⟨0x2000, 0x2000, 0x06, 0x06, 8, .ro, 0, [], false⟩,
  ⟨0x2000, 0x2000, 0x07, 0x07, 1, .ro, 0, [(0, 1)], false⟩,
  ⟨0x2000, 0x2000, 0x08, 0x08, 4, .rw, 10000, [(100, 600000)], false⟩,
  ⟨0x2000, 0x2000, 0x09, 0x09, 1, .wo, 0, [(1, 1)], false⟩,
  ⟨0x2000, 0x2000, 0x0A, 0x0A, 1, .ro, 0, [], false⟩,
  ⟨0x2000, 0x2000, 0x0B, 0x0B, 4, .ro, 0, [], false⟩,
  ⟨0x2010, 0x2011, 0x00, 0x00, 1, .cst, 7, [], false⟩,
  ⟨0x2010, 0x2011, 0x01, 0x01, 8, .rw, 0, [], false⟩,
  ⟨0x2010, 0x2011, 0x02, 0x02, 4, .rw, 0, [], false⟩,
  ⟨0x2010, 0x2011, 0x03, 0x03, 1, .rw, 0, [(0, 1)], false⟩,
  ⟨0x2010, 0x2011, 0x04, 0x04, 1, .wo, 0, [(1, 1)], false⟩,
  ⟨0x2010, 0x2011, 0x05, 0x05, 1, .ro, 0, [], false⟩,
  ⟨0x2010, 0x2011, 0x06, 0x06, 2, .ro, 0, [], false⟩,
  ⟨0x2010, 0x2011, 0x07, 0x07, 4, .ro, 0, [], false⟩,
  ⟨0x2020, 0x2023, 0x00, 0x00, 1, .cst, 4, [], false⟩,
  ⟨0x2020, 0x2023, 0x01, 0x01, 4, .ro, 0, [], false⟩,
  ⟨0x2020, 0x2023, 0x02, 0x02, 4, .ro, 0, [], false⟩,
  ⟨0x2020, 0x2023, 0x03, 0x03, 1, .ro, 0, [], false⟩]

/-- Objects 0x2xxx, part 1: R406, R431. -/
def objRows2p1 : List ObjRow := [
  ⟨0x2020, 0x2023, 0x04, 0x04, 2, .ro, 0, [], false⟩,
  ⟨0x2100, 0x213F, 0x00, 0x00, 1, .cst, 4, [], false⟩,
  ⟨0x2100, 0x213F, 0x01, 0x01, 1, .ro, 0, [], false⟩,
  ⟨0x2100, 0x213F, 0x02, 0x02, 1, .ro, 0, [], false⟩,
  ⟨0x2100, 0x213F, 0x03, 0x03, 4, .ro, 0, [], false⟩,
  ⟨0x2100, 0x213F, 0x04, 0x04, 8, .ro, 0, [], false⟩,
  ⟨0x2800, 0x2800, 0x00, 0x00, 1, .cst, 2, [], false⟩,
  ⟨0x2800, 0x2800, 0x01, 0x01, 4, .rw, 20, [(10, 1000)], false⟩,
  ⟨0x2800, 0x2800, 0x02, 0x02, 2, .ro, 1536, [], false⟩,
  ⟨0x2810, 0x2811, 0x00, 0x00, 1, .cst, 8, [], false⟩,
  ⟨0x2810, 0x2811, 0x01, 0x01, 8, .ro, 0, [], false⟩,
  ⟨0x2810, 0x2811, 0x02, 0x02, 8, .ro, 0, [], false⟩,
  ⟨0x2810, 0x2811, 0x03, 0x03, 4, .ro, 0, [], false⟩,
  ⟨0x2810, 0x2811, 0x04, 0x04, 4, .ro, 0, [], false⟩,
  ⟨0x2810, 0x2811, 0x05, 0x05, 4, .ro, 0, [], false⟩,
  ⟨0x2810, 0x2811, 0x06, 0x06, 4, .ro, 0, [], false⟩,
  ⟨0x2810, 0x2811, 0x07, 0x07, 4, .ro, 0, [], false⟩,
  ⟨0x2810, 0x2811, 0x08, 0x08, 1, .rw, 0, [(0, 1)], false⟩,
  ⟨0x2900, 0x293F, 0x00, 0x00, 1, .cst, 7, [], false⟩,
  ⟨0x2900, 0x293F, 0x01, 0x01, 1, .rw, 0, [(0, 2)], true⟩,
  ⟨0x2900, 0x293F, 0x02, 0x02, 1, .rw, 255, [(0, 63), (255, 255)], true⟩,
  ⟨0x2900, 0x293F, 0x03, 0x03, 1, .ro, 0, [(0, 1)], false⟩,
  ⟨0x2900, 0x293F, 0x04, 0x04, 1, .ro, 0, [(0, 1)], false⟩,
  ⟨0x2900, 0x293F, 0x05, 0x05, 1, .ro, 0, [(0, 1)], false⟩]

/-- Objects 0x2xxx, part 2: R431. -/
def objRows2p2 : List ObjRow := [
  ⟨0x2900, 0x293F, 0x06, 0x06, 4, .ro, 0, [], false⟩,
  ⟨0x2900, 0x293F, 0x07, 0x07, 8, .ro, 0, [], false⟩,
  ⟨0x2A00, 0x2A3F, 0x00, 0x00, 1, .cst, 11, [], false⟩,
  ⟨0x2A00, 0x2A3F, 0x01, 0x01, 1, .rw, 0, [(0, 1)], false⟩,
  ⟨0x2A00, 0x2A3F, 0x02, 0x02, 1, .ro, 255, [], false⟩,
  ⟨0x2A00, 0x2A3F, 0x03, 0x03, 4, .rw, 0, [], false⟩,
  ⟨0x2A00, 0x2A3F, 0x04, 0x04, 4, .rw, 0, [], false⟩,
  ⟨0x2A00, 0x2A3F, 0x05, 0x05, 1, .rw, 0, [(0, 1)], false⟩,
  ⟨0x2A00, 0x2A3F, 0x06, 0x06, 4, .rw, 0, [(0, 0), (10, 86400000)], false⟩,
  ⟨0x2A00, 0x2A3F, 0x07, 0x07, 1, .wo, 0, [(1, 2)], false⟩,
  ⟨0x2A00, 0x2A3F, 0x08, 0x08, 1, .ro, 0, [], false⟩,
  ⟨0x2A00, 0x2A3F, 0x09, 0x09, 8, .ro, 0, [], false⟩,
  ⟨0x2A00, 0x2A3F, 0x0A, 0x0A, 1, .ro, 0, [], false⟩,
  ⟨0x2A00, 0x2A3F, 0x0B, 0x0B, 2, .ro, 0, [], false⟩]

/-- Every object of 0x2xxx. -/
def objRows2 : List ObjRow := objRows2p0 ++ objRows2p1 ++ objRows2p2

/-- Objects 0x3xxx, part 0: R365. -/
def objRows3p0 : List ObjRow := [
  ⟨0x3000, 0x3000, 0x00, 0x00, 1, .cst, 11, [], false⟩,
  ⟨0x3000, 0x3000, 0x01, 0x01, 4, .rw, 1000000, [(100000, 1000000000)], false⟩,
  ⟨0x3000, 0x3000, 0x02, 0x02, 4, .ro, 165000, [], false⟩,
  ⟨0x3000, 0x3000, 0x03, 0x03, 4, .rw, 0, [], true⟩,
  ⟨0x3000, 0x3000, 0x04, 0x04, 1, .rw, 1, [(0, 1)], false⟩,
  ⟨0x3000, 0x3000, 0x05, 0x05, 8, .rw, 18446744073709551615, [], false⟩,
  ⟨0x3000, 0x3000, 0x06, 0x06, 8, .rw, 0, [], false⟩,
  ⟨0x3000, 0x3000, 0x07, 0x07, 4, .rw, 0, [], true⟩,
  ⟨0x3000, 0x3000, 0x08, 0x08, 8, .ro, 0, [], false⟩,
  ⟨0x3000, 0x3000, 0x09, 0x09, 8, .ro, 0, [], false⟩,
  ⟨0x3000, 0x3000, 0x0A, 0x0A, 1, .rw, 0, [(0, 2)], false⟩,
  ⟨0x3000, 0x3000, 0x0B, 0x0B, 1, .rw, 0, [(0, 1)], false⟩,
  ⟨0x3010, 0x3019, 0x00, 0x00, 1, .cst, 13, [], false⟩,
  ⟨0x3010, 0x3019, 0x01, 0x01, 4, .rw, 0, [], true⟩,
  ⟨0x3010, 0x3019, 0x02, 0x02, 4, .rw, 0, [], true⟩,
  ⟨0x3010, 0x3019, 0x03, 0x03, 4, .ro, 0, [], true⟩,
  ⟨0x3010, 0x3019, 0x04, 0x04, 1, .rw, 0, [(0, 3)], true⟩,
  ⟨0x3010, 0x3019, 0x05, 0x05, 4, .rw, 0, [], true⟩,
  ⟨0x3010, 0x3019, 0x06, 0x06, 1, .rw, 80, [(1, 100)], false⟩,
  ⟨0x3010, 0x3019, 0x07, 0x07, 1, .rw, 0, [(0, 1)], false⟩,
  ⟨0x3010, 0x3019, 0x08, 0x08, 1, .wo, 0, [(1, 1)], false⟩,
  ⟨0x3010, 0x3019, 0x09, 0x09, 8, .ro, 0, [], false⟩,
  ⟨0x3010, 0x3019, 0x0A, 0x0A, 8, .ro, 0, [], false⟩,
  ⟨0x3010, 0x3019, 0x0B, 0x0B, 8, .ro, 0, [], false⟩]

/-- Objects 0x3xxx, part 1: R365. -/
def objRows3p1 : List ObjRow := [
  ⟨0x3010, 0x3019, 0x0C, 0x0C, 1, .ro, 0, [], false⟩,
  ⟨0x3010, 0x3019, 0x0D, 0x0D, 8, .ro, 0, [], false⟩,
  ⟨0x3100, 0x313F, 0x00, 0x00, 1, .cst, 9, [], false⟩,
  ⟨0x3100, 0x313F, 0x01, 0x01, 1, .rw, 0, [(0, 2)], true⟩,
  ⟨0x3100, 0x313F, 0x02, 0x02, 1, .ro, 2, [], false⟩,
  ⟨0x3100, 0x313F, 0x03, 0x03, 1, .ro, 255, [(0, 2), (255, 255)], true⟩,
  ⟨0x3100, 0x313F, 0x04, 0x04, 4, .ro, 0, [], true⟩,
  ⟨0x3100, 0x313F, 0x05, 0x05, 4, .ro, 0, [], false⟩,
  ⟨0x3100, 0x313F, 0x06, 0x06, 1, .ro, 255, [(0, 63), (255, 255)], true⟩,
  ⟨0x3100, 0x313F, 0x07, 0x07, 4, .ro, 0, [], false⟩,
  ⟨0x3100, 0x313F, 0x08, 0x08, 4, .ro, 0, [], false⟩,
  ⟨0x3100, 0x313F, 0x09, 0x09, 4, .ro, 0, [], false⟩,
  ⟨0x3200, 0x3207, 0x00, 0x00, 1, .cst, 5, [], false⟩,
  ⟨0x3200, 0x3207, 0x01, 0x01, 2, .ro, 0, [], false⟩,
  ⟨0x3200, 0x3207, 0x02, 0x02, 4, .ro, 0, [], false⟩,
  ⟨0x3200, 0x3207, 0x03, 0x03, 4, .ro, 65536, [], false⟩,
  ⟨0x3200, 0x3207, 0x04, 0x04, 4, .ro, 0, [], false⟩,
  ⟨0x3200, 0x3207, 0x05, 0x05, 1, .ro, 0, [], false⟩,
  ⟨0x3300, 0x3300, 0x00, 0x00, 1, .cst, 29, [], false⟩,
  ⟨0x3300, 0x3300, 0x01, 0x1D, 4, .ro, 0, [], false⟩,
  ⟨0x3400, 0x3400, 0x00, 0x00, 1, .cst, 4, [], false⟩,
  ⟨0x3400, 0x3400, 0x01, 0x01, 2, .ro, 0, [], false⟩,
  ⟨0x3400, 0x3400, 0x02, 0x02, 4, .ro, 0, [], false⟩,
  ⟨0x3400, 0x3400, 0x03, 0x03, 4, .ro, 0, [], false⟩]

/-- Objects 0x3xxx, part 2: R365. -/
def objRows3p2 : List ObjRow := [
  ⟨0x3400, 0x3400, 0x04, 0x04, 8, .ro, 0, [], false⟩,
  ⟨0x3410, 0x350F, 0x00, 0x00, 1, .cst, 6, [], false⟩,
  ⟨0x3410, 0x350F, 0x01, 0x01, 1, .ro, 0, [], false⟩,
  ⟨0x3410, 0x350F, 0x02, 0x02, 1, .ro, 0, [], false⟩,
  ⟨0x3410, 0x350F, 0x03, 0x03, 4, .ro, 0, [], false⟩,
  ⟨0x3410, 0x350F, 0x04, 0x04, 4, .ro, 0, [], false⟩,
  ⟨0x3410, 0x350F, 0x05, 0x05, 8, .ro, 0, [], false⟩,
  ⟨0x3410, 0x350F, 0x06, 0x06, 1, .ro, 0, [], false⟩]

/-- Every object of 0x3xxx. -/
def objRows3 : List ObjRow := objRows3p0 ++ objRows3p1 ++ objRows3p2

/-- Objects 0x4xxx, part 0: R263. -/
def objRows4p0 : List ObjRow := [
  ⟨0x4000, 0x4000, 0x00, 0x00, 1, .cst, 5, [], false⟩,
  ⟨0x4000, 0x4000, 0x01, 0x01, 1, .ro, 0, [(0, 1)], true⟩,
  ⟨0x4000, 0x4000, 0x02, 0x02, 1, .ro, 0, [(0, 1)], true⟩,
  ⟨0x4000, 0x4000, 0x03, 0x03, 4, .rw, 86400, [(3600, 604800)], false⟩,
  ⟨0x4000, 0x4000, 0x04, 0x04, 2, .ro, 0, [], false⟩,
  ⟨0x4000, 0x4000, 0x05, 0x05, 4, .ro, 0, [], false⟩,
  ⟨0x4010, 0x4011, 0x00, 0x00, 1, .cst, 14, [], false⟩,
  ⟨0x4010, 0x4011, 0x01, 0x01, 1, .ro, 0, [], false⟩,
  ⟨0x4010, 0x4011, 0x02, 0x02, 2, .ro, 0, [], false⟩,
  ⟨0x4010, 0x4011, 0x03, 0x03, 1, .ro, 0, [(0, 1)], false⟩,
  ⟨0x4010, 0x4011, 0x04, 0x04, 4, .rw, 2000, [(250, 1000000)], false⟩,
  ⟨0x4010, 0x4011, 0x05, 0x05, 4, .rw, 1000, [(100, 1000000)], false⟩,
  ⟨0x4010, 0x4011, 0x06, 0x06, 1, .rw, 0, [(0, 1)], false⟩,
  ⟨0x4010, 0x4011, 0x07, 0x07, 4, .rw, 100, [(10, 1000000)], false⟩,
  ⟨0x4010, 0x4011, 0x08, 0x08, 4, .ro, 0, [], false⟩,
  ⟨0x4010, 0x4011, 0x09, 0x09, 4, .rw, 1000, [], false⟩,
  ⟨0x4010, 0x4011, 0x0A, 0x0A, 4, .ro, 0, [], false⟩,
  ⟨0x4010, 0x4011, 0x0B, 0x0B, 8, .ro, 0, [], false⟩,
  ⟨0x4010, 0x4011, 0x0C, 0x0C, 4, .ro, 0, [], false⟩,
  ⟨0x4010, 0x4011, 0x0D, 0x0D, 2, .ro, 0, [], false⟩,
  ⟨0x4010, 0x4011, 0x0E, 0x0E, 2, .ro, 0, [], false⟩,
  ⟨0x4100, 0x4123, 0x00, 0x00, 1, .cst, 11, [], false⟩,
  ⟨0x4140, 0x4163, 0x00, 0x00, 1, .cst, 11, [], false⟩,
  ⟨0x4100, 0x4123, 0x01, 0x01, 1, .cst, 0, [], false⟩]

/-- Objects 0x4xxx, part 1: R263. -/
def objRows4p1 : List ObjRow := [
  ⟨0x4140, 0x4163, 0x01, 0x01, 1, .cst, 0, [], false⟩,
  ⟨0x4100, 0x4123, 0x02, 0x02, 1, .ro, 1, [], true⟩,
  ⟨0x4140, 0x4163, 0x02, 0x02, 1, .ro, 1, [], true⟩,
  ⟨0x4100, 0x4123, 0x03, 0x03, 1, .ro, 0, [(0, 2)], true⟩,
  ⟨0x4140, 0x4163, 0x03, 0x03, 1, .ro, 0, [(0, 2)], true⟩,
  ⟨0x4100, 0x4123, 0x04, 0x04, 2, .rw, 0, [], true⟩,
  ⟨0x4140, 0x4163, 0x04, 0x04, 2, .rw, 0, [], true⟩,
  ⟨0x4100, 0x4123, 0x05, 0x05, 2, .rw, 256, [], true⟩,
  ⟨0x4140, 0x4163, 0x05, 0x05, 2, .rw, 256, [], true⟩,
  ⟨0x4100, 0x4123, 0x06, 0x06, 2, .ro, 0, [], false⟩,
  ⟨0x4140, 0x4163, 0x06, 0x06, 2, .ro, 0, [], false⟩,
  ⟨0x4100, 0x4123, 0x07, 0x07, 1, .ro, 0, [(0, 1)], false⟩,
  ⟨0x4140, 0x4163, 0x07, 0x07, 1, .ro, 0, [(0, 1)], false⟩,
  ⟨0x4100, 0x4123, 0x08, 0x08, 4, .ro, 0, [], false⟩,
  ⟨0x4140, 0x4163, 0x08, 0x08, 4, .ro, 0, [], false⟩,
  ⟨0x4100, 0x4123, 0x09, 0x09, 4, .ro, 0, [], false⟩,
  ⟨0x4140, 0x4163, 0x09, 0x09, 4, .ro, 0, [], false⟩,
  ⟨0x4100, 0x4123, 0x0A, 0x0A, 4, .ro, 0, [], false⟩,
  ⟨0x4140, 0x4163, 0x0A, 0x0A, 4, .ro, 0, [], false⟩,
  ⟨0x4100, 0x4123, 0x0B, 0x0B, 4, .ro, 0, [], false⟩,
  ⟨0x4140, 0x4163, 0x0B, 0x0B, 4, .ro, 0, [], false⟩,
  ⟨0x4200, 0x423F, 0x00, 0x00, 1, .cst, 10, [], false⟩,
  ⟨0x4200, 0x423F, 0x01, 0x01, 1, .ro, 255, [], true⟩,
  ⟨0x4200, 0x423F, 0x02, 0x02, 8, .ro, 0, [], true⟩]

/-- Objects 0x4xxx, part 2: R263. -/
def objRows4p2 : List ObjRow := [
  ⟨0x4200, 0x423F, 0x03, 0x03, 8, .ro, 0, [], true⟩,
  ⟨0x4200, 0x423F, 0x04, 0x04, 8, .ro, 0, [], true⟩,
  ⟨0x4200, 0x423F, 0x05, 0x05, 1, .ro, 0, [(0, 1)], true⟩,
  ⟨0x4200, 0x423F, 0x06, 0x06, 1, .ro, 0, [(0, 1)], true⟩,
  ⟨0x4200, 0x423F, 0x07, 0x07, 1, .rw, 0, [(0, 2)], true⟩,
  ⟨0x4200, 0x423F, 0x08, 0x08, 2, .rw, 65535, [(0, 511), (65535, 65535)], true⟩,
  ⟨0x4200, 0x423F, 0x09, 0x09, 2, .rw, 65535, [(0, 511), (65535, 65535)], true⟩,
  ⟨0x4200, 0x423F, 0x0A, 0x0A, 1, .ro, 0, [], false⟩,
  ⟨0x4300, 0x433F, 0x00, 0x00, 1, .cst, 4, [], false⟩,
  ⟨0x4300, 0x433F, 0x01, 0x01, 1, .ro, 0, [], false⟩,
  ⟨0x4300, 0x433F, 0x02, 0x02, 4, .ro, 0, [], false⟩,
  ⟨0x4300, 0x433F, 0x03, 0x03, 4, .ro, 0, [], false⟩,
  ⟨0x4300, 0x433F, 0x04, 0x04, 4, .ro, 0, [], false⟩]

/-- Every object of 0x4xxx. -/
def objRows4 : List ObjRow := objRows4p0 ++ objRows4p1 ++ objRows4p2

/-- Objects 0x5xxx, part 0: R292. -/
def objRows5p0 : List ObjRow := [
  ⟨0x5800, 0x5800, 0x00, 0x00, 1, .cst, 3, [], false⟩,
  ⟨0x5800, 0x5800, 0x01, 0x01, 1, .ro, 0, [(0, 1)], true⟩,
  ⟨0x5800, 0x5800, 0x02, 0x02, 1, .ro, 0, [(0, 1)], true⟩,
  ⟨0x5800, 0x5800, 0x03, 0x03, 1, .ro, 0, [], false⟩,
  ⟨0x5810, 0x581F, 0x00, 0x00, 1, .cst, 14, [], false⟩,
  ⟨0x5810, 0x581F, 0x01, 0x01, 1, .ro, 1, [], true⟩,
  ⟨0x5810, 0x581F, 0x02, 0x02, 1, .ro, 0, [], false⟩,
  ⟨0x5810, 0x581F, 0x03, 0x03, 1, .rw, 0, [(0, 1)], true⟩,
  ⟨0x5810, 0x581F, 0x04, 0x04, 4, .rw, 0, [], true⟩,
  ⟨0x5810, 0x581F, 0x05, 0x05, 1, .rw, 0, [(0, 1)], true⟩,
  ⟨0x5810, 0x581F, 0x06, 0x06, 1, .rw, 0, [(0, 2)], true⟩,
  ⟨0x5810, 0x581F, 0x07, 0x07, 1, .rw, 0, [(0, 3)], false⟩,
  ⟨0x5810, 0x581F, 0x08, 0x08, 1, .ro, 255, [], true⟩,
  ⟨0x5810, 0x581F, 0x09, 0x09, 1, .wo, 0, [(1, 127)], false⟩,
  ⟨0x5810, 0x581F, 0x0A, 0x0A, 16, .rw, 0, [], false⟩,
  ⟨0x5810, 0x581F, 0x0B, 0x0B, 4, .ro, 0, [], false⟩,
  ⟨0x5810, 0x581F, 0x0C, 0x0C, 4, .ro, 0, [], false⟩,
  ⟨0x5810, 0x581F, 0x0D, 0x0D, 4, .ro, 0, [], false⟩,
  ⟨0x5810, 0x581F, 0x0E, 0x0E, 1, .ro, 0, [], false⟩,
  ⟨0x5840, 0x584F, 0x00, 0x00, 1, .cst, 18, [], false⟩,
  ⟨0x5840, 0x584F, 0x01, 0x01, 1, .ro, 0, [], true⟩,
  ⟨0x5840, 0x584F, 0x02, 0x02, 1, .ro, 0, [], false⟩,
  ⟨0x5840, 0x584F, 0x03, 0x03, 2, .rw, 0, [(64, 16000)], true⟩,
  ⟨0x5840, 0x584F, 0x04, 0x04, 2, .rw, 0, [], true⟩]

/-- Objects 0x5xxx, part 1: R292. -/
def objRows5p1 : List ObjRow := [
  ⟨0x5840, 0x584F, 0x05, 0x05, 1, .rw, 1, [(0, 1)], false⟩,
  ⟨0x5840, 0x584F, 0x06, 0x06, 1, .rw, 0, [(0, 1)], true⟩,
  ⟨0x5840, 0x584F, 0x07, 0x07, 4, .rw, 0, [(0, 100000), (4294867296, 4294967295)], false⟩,
  ⟨0x5840, 0x584F, 0x08, 0x08, 4, .rw, 0, [(0, 100000), (4294867296, 4294967295)], false⟩,
  ⟨0x5840, 0x584F, 0x09, 0x09, 8, .ro, 0, [], false⟩,
  ⟨0x5840, 0x584F, 0x0A, 0x0A, 8, .ro, 0, [], false⟩,
  ⟨0x5840, 0x584F, 0x0B, 0x0B, 4, .ro, 0, [], false⟩,
  ⟨0x5840, 0x584F, 0x0C, 0x0C, 4, .ro, 0, [], false⟩,
  ⟨0x5840, 0x584F, 0x0D, 0x0D, 4, .ro, 0, [], false⟩,
  ⟨0x5840, 0x584F, 0x0E, 0x0E, 8, .ro, 0, [], false⟩,
  ⟨0x5840, 0x584F, 0x0F, 0x0F, 8, .ro, 0, [], false⟩,
  ⟨0x5840, 0x584F, 0x10, 0x10, 8, .ro, 0, [], false⟩,
  ⟨0x5840, 0x584F, 0x11, 0x11, 1, .ro, 0, [], false⟩,
  ⟨0x5840, 0x584F, 0x12, 0x12, 4, .ro, 0, [], false⟩,
  ⟨0x5880, 0x588F, 0x00, 0x00, 1, .cst, 10, [], false⟩,
  ⟨0x5880, 0x588F, 0x01, 0x01, 2, .rw, 0, [(0, 0), (65528, 65535)], true⟩,
  ⟨0x5880, 0x588F, 0x02, 0x02, 2, .rw, 0, [(0, 0), (65520, 65535)], true⟩,
  ⟨0x5880, 0x588F, 0x03, 0x03, 2, .rw, 0, [(32, 64)], true⟩,
  ⟨0x5880, 0x588F, 0x04, 0x04, 2, .rw, 0, [(0, 0), (65520, 65535)], true⟩,
  ⟨0x5880, 0x588F, 0x05, 0x05, 1, .rw, 255, [(0, 15), (255, 255)], false⟩,
  ⟨0x5880, 0x588F, 0x06, 0x06, 1, .rw, 1, [(0, 1)], false⟩,
  ⟨0x5880, 0x588F, 0x07, 0x07, 24, .ro, 0, [], false⟩,
  ⟨0x5880, 0x588F, 0x08, 0x08, 2, .ro, 0, [], false⟩,
  ⟨0x5880, 0x588F, 0x09, 0x09, 4, .ro, 0, [], false⟩]

/-- Objects 0x5xxx, part 2: R292, R331. -/
def objRows5p2 : List ObjRow := [
  ⟨0x5880, 0x588F, 0x0A, 0x0A, 2, .ro, 0, [], false⟩,
  ⟨0x58C0, 0x58C1, 0x00, 0x00, 1, .cst, 5, [], false⟩,
  ⟨0x58C0, 0x58C1, 0x01, 0x01, 1, .ro, 255, [], true⟩,
  ⟨0x58C0, 0x58C1, 0x02, 0x02, 1, .rw, 255, [(0, 7), (255, 255)], true⟩,
  ⟨0x58C0, 0x58C1, 0x03, 0x03, 2, .rw, 0, [(16, 65535)], true⟩,
  ⟨0x58C0, 0x58C1, 0x04, 0x04, 1, .rw, 0, [(0, 1)], false⟩,
  ⟨0x58C0, 0x58C1, 0x05, 0x05, 1, .ro, 0, [], false⟩,
  ⟨0x5000, 0x5000, 0x00, 0x00, 1, .cst, 7, [], false⟩,
  ⟨0x5000, 0x5000, 0x01, 0x01, 1, .ro, 0, [], false⟩,
  ⟨0x5000, 0x5000, 0x02, 0x02, 1, .ro, 0, [], false⟩,
  ⟨0x5000, 0x5000, 0x03, 0x03, 1, .ro, 0, [], false⟩,
  ⟨0x5000, 0x5000, 0x04, 0x04, 1, .ro, 0, [(0, 1)], false⟩,
  ⟨0x5000, 0x5000, 0x05, 0x05, 4, .ro, 0, [], false⟩,
  ⟨0x5000, 0x5000, 0x06, 0x06, 2, .ro, 0, [], false⟩,
  ⟨0x5000, 0x5000, 0x07, 0x07, 4, .ro, 50000, [], false⟩,
  ⟨0x5010, 0x5018, 0x00, 0x00, 1, .cst, 7, [], false⟩,
  ⟨0x5010, 0x5018, 0x01, 0x01, 1, .cst, 0, [], false⟩,
  ⟨0x5010, 0x5018, 0x02, 0x02, 1, .ro, 0, [], false⟩,
  ⟨0x5010, 0x5018, 0x03, 0x03, 2, .rw, 256, [(0, 1024)], false⟩,
  ⟨0x5010, 0x5018, 0x04, 0x04, 8, .ro, 0, [], false⟩,
  ⟨0x5010, 0x5018, 0x05, 0x05, 1, .wo, 0, [(1, 1)], false⟩,
  ⟨0x5010, 0x5018, 0x06, 0x06, 1, .ro, 0, [], false⟩,
  ⟨0x5010, 0x5018, 0x07, 0x07, 1, .ro, 0, [], false⟩,
  ⟨0x5100, 0x513F, 0x00, 0x00, 1, .cst, 10, [], false⟩]

/-- Objects 0x5xxx, part 3: R331. -/
def objRows5p3 : List ObjRow := [
  ⟨0x5100, 0x513F, 0x01, 0x01, 1, .rw, 0, [(0, 1)], false⟩,
  ⟨0x5100, 0x513F, 0x02, 0x02, 2, .ro, 65535, [], false⟩,
  ⟨0x5100, 0x513F, 0x03, 0x03, 2, .rw, 65535, [], false⟩,
  ⟨0x5100, 0x513F, 0x04, 0x04, 1, .rw, 255, [(0, 31), (255, 255)], false⟩,
  ⟨0x5100, 0x513F, 0x05, 0x05, 1, .rw, 255, [(0, 31), (255, 255)], false⟩,
  ⟨0x5100, 0x513F, 0x06, 0x06, 1, .rw, 1, [(1, 16)], false⟩,
  ⟨0x5100, 0x513F, 0x07, 0x07, 2, .rw, 65535, [(0, 255), (65535, 65535)], false⟩,
  ⟨0x5100, 0x513F, 0x08, 0x08, 8, .ro, 0, [], false⟩,
  ⟨0x5100, 0x513F, 0x09, 0x09, 8, .ro, 0, [], false⟩,
  ⟨0x5100, 0x513F, 0x0A, 0x0A, 4, .ro, 0, [], false⟩,
  ⟨0x5200, 0x52FF, 0x00, 0x00, 1, .cst, 5, [], false⟩,
  ⟨0x5200, 0x52FF, 0x01, 0x01, 1, .rw, 0, [(0, 1)], false⟩,
  ⟨0x5200, 0x52FF, 0x02, 0x02, 2, .ro, 65535, [], false⟩,
  ⟨0x5200, 0x52FF, 0x03, 0x03, 2, .rw, 65535, [], false⟩,
  ⟨0x5200, 0x52FF, 0x04, 0x04, 8, .ro, 0, [], false⟩,
  ⟨0x5200, 0x52FF, 0x05, 0x05, 4, .ro, 0, [], false⟩,
  ⟨0x5300, 0x533F, 0x00, 0x00, 1, .cst, 4, [], false⟩,
  ⟨0x5300, 0x533F, 0x01, 0x01, 1, .ro, 1, [], true⟩,
  ⟨0x5300, 0x533F, 0x02, 0x02, 1, .ro, 255, [], false⟩,
  ⟨0x5300, 0x533F, 0x03, 0x03, 8, .ro, 0, [], false⟩,
  ⟨0x5300, 0x533F, 0x04, 0x04, 4, .ro, 0, [], false⟩,
  ⟨0x5400, 0x54FF, 0x00, 0x00, 1, .cst, 3, [], false⟩,
  ⟨0x5400, 0x54FF, 0x01, 0x01, 1, .ro, 0, [(0, 1)], false⟩,
  ⟨0x5400, 0x54FF, 0x02, 0x02, 1, .ro, 0, [], false⟩]

/-- Objects 0x5xxx, part 4: R331. -/
def objRows5p4 : List ObjRow := [
  ⟨0x5400, 0x54FF, 0x03, 0x03, 8, .rw, 0, [], false⟩]

/-- Every object of 0x5xxx. -/
def objRows5 : List ObjRow := objRows5p0 ++ objRows5p1 ++ objRows5p2 ++ objRows5p3 ++ objRows5p4

/-- Objects 0x6xxx, part 0: R529. -/
def objRows6p0 : List ObjRow := [
  ⟨0x6000, 0x6000, 0x00, 0x00, 1, .cst, 3, [], false⟩,
  ⟨0x6000, 0x6000, 0x01, 0x01, 64, .ro, 0, [], false⟩,
  ⟨0x6000, 0x6000, 0x02, 0x02, 1, .rw, 0, [(0, 1)], false⟩,
  ⟨0x6000, 0x6000, 0x03, 0x03, 1, .wo, 0, [(1, 1)], false⟩,
  ⟨0x6008, 0x600B, 0x00, 0x00, 1, .cst, 4, [], false⟩,
  ⟨0x6008, 0x600B, 0x01, 0x01, 1, .ro, 0, [], true⟩,
  ⟨0x6008, 0x600B, 0x02, 0x02, 2, .ro, 0, [], false⟩,
  ⟨0x6008, 0x600B, 0x03, 0x03, 1, .ro, 0, [], false⟩,
  ⟨0x6008, 0x600B, 0x04, 0x04, 1, .ro, 0, [(0, 2)], true⟩,
  ⟨0x6010, 0x6037, 0x00, 0x00, 1, .cst, 10, [], false⟩,
  ⟨0x6010, 0x6037, 0x01, 0x01, 1, .ro, 1, [], true⟩,
  ⟨0x6010, 0x6037, 0x02, 0x02, 2, .rw, 0, [], true⟩,
  ⟨0x6010, 0x6037, 0x03, 0x03, 1, .rw, 0, [(0, 15)], true⟩,
  ⟨0x6010, 0x6037, 0x04, 0x04, 1, .rw, 0, [(0, 3)], true⟩,
  ⟨0x6010, 0x6037, 0x05, 0x05, 1, .rw, 0, [], true⟩,
  ⟨0x6010, 0x6037, 0x06, 0x06, 1, .rw, 0, [(0, 1)], true⟩,
  ⟨0x6010, 0x6037, 0x07, 0x07, 1, .ro, 0, [(0, 1)], false⟩,
  ⟨0x6010, 0x6037, 0x08, 0x08, 1, .ro, 0, [(0, 1)], false⟩,
  ⟨0x6010, 0x6037, 0x09, 0x09, 8, .ro, 0, [], false⟩,
  ⟨0x6010, 0x6037, 0x0A, 0x0A, 1, .ro, 0, [(0, 1)], false⟩,
  ⟨0x6100, 0x6104, 0x00, 0x00, 1, .cst, 6, [], false⟩,
  ⟨0x6100, 0x6104, 0x01, 0x01, 1, .rw, 0, [(0, 1)], false⟩,
  ⟨0x6100, 0x6104, 0x02, 0x02, 1, .ro, 255, [], false⟩,
  ⟨0x6100, 0x6104, 0x03, 0x03, 4, .rw, 0, [], false⟩]

/-- Objects 0x6xxx, part 1: R529. -/
def objRows6p1 : List ObjRow := [
  ⟨0x6100, 0x6104, 0x04, 0x04, 256, .wo, 0, [], false⟩,
  ⟨0x6100, 0x6104, 0x05, 0x05, 256, .ro, 0, [], false⟩,
  ⟨0x6100, 0x6104, 0x06, 0x06, 1, .ro, 0, [], false⟩,
  ⟨0x6110, 0x6113, 0x00, 0x00, 1, .cst, 5, [], false⟩,
  ⟨0x6110, 0x6113, 0x01, 0x01, 1, .rw, 0, [(0, 1)], false⟩,
  ⟨0x6110, 0x6113, 0x02, 0x02, 1, .ro, 255, [], false⟩,
  ⟨0x6110, 0x6113, 0x03, 0x03, 4, .rw, 1000, [(10, 4000000000)], false⟩,
  ⟨0x6110, 0x6113, 0x04, 0x04, 4, .rw, 0, [], false⟩,
  ⟨0x6110, 0x6113, 0x05, 0x05, 1, .rw, 0, [(0, 1)], false⟩,
  ⟨0x6120, 0x6123, 0x00, 0x00, 1, .cst, 5, [], false⟩,
  ⟨0x6120, 0x6123, 0x01, 0x01, 1, .rw, 0, [(0, 1)], false⟩,
  ⟨0x6120, 0x6123, 0x02, 0x02, 1, .ro, 255, [], false⟩,
  ⟨0x6120, 0x6123, 0x03, 0x03, 1, .rw, 0, [(0, 3)], false⟩,
  ⟨0x6120, 0x6123, 0x04, 0x04, 8, .ro, 0, [], false⟩,
  ⟨0x6120, 0x6123, 0x05, 0x05, 4, .ro, 0, [], false⟩,
  ⟨0x6130, 0x6139, 0x00, 0x00, 1, .cst, 6, [], false⟩,
  ⟨0x6130, 0x6139, 0x01, 0x01, 1, .rw, 0, [(0, 1)], false⟩,
  ⟨0x6130, 0x6139, 0x02, 0x02, 1, .ro, 255, [], false⟩,
  ⟨0x6130, 0x6139, 0x03, 0x03, 1, .rw, 0, [(0, 3)], false⟩,
  ⟨0x6130, 0x6139, 0x04, 0x04, 1, .rw, 0, [(0, 5)], false⟩,
  ⟨0x6130, 0x6139, 0x05, 0x05, 4, .rw, 1000, [(0, 1000000)], false⟩,
  ⟨0x6130, 0x6139, 0x06, 0x06, 4, .ro, 0, [], false⟩]

/-- Every object of 0x6xxx. -/
def objRows6 : List ObjRow := objRows6p0 ++ objRows6p1

/-- Objects 0x7xxx, part 0: R542. -/
def objRows7p0 : List ObjRow := [
  ⟨0x7000, 0x7000, 0x00, 0x00, 1, .cst, 4, [], false⟩,
  ⟨0x7000, 0x7000, 0x01, 0x01, 1, .ro, 255, [], false⟩,
  ⟨0x7000, 0x7000, 0x02, 0x02, 1, .ro, 255, [], false⟩,
  ⟨0x7000, 0x7000, 0x03, 0x03, 4, .ro, 0, [], false⟩,
  ⟨0x7000, 0x7000, 0x04, 0x04, 4, .ro, 0, [], false⟩,
  ⟨0x7010, 0x701F, 0x00, 0x00, 1, .cst, 18, [], false⟩,
  ⟨0x7010, 0x701F, 0x01, 0x01, 1, .rw, 0, [(0, 1)], false⟩,
  ⟨0x7010, 0x701F, 0x02, 0x02, 1, .ro, 255, [], false⟩,
  ⟨0x7010, 0x701F, 0x03, 0x03, 1, .rw, 0, [(0, 255)], false⟩,
  ⟨0x7010, 0x701F, 0x04, 0x04, 2, .rw, 0, [], false⟩,
  ⟨0x7010, 0x701F, 0x05, 0x05, 4, .rw, 0, [], false⟩,
  ⟨0x7010, 0x701F, 0x06, 0x06, 4, .rw, 1000, [(1, 86400000)], false⟩,
  ⟨0x7010, 0x701F, 0x07, 0x07, 1, .wo, 0, [(1, 2)], false⟩,
  ⟨0x7010, 0x701F, 0x08, 0x08, 1, .ro, 0, [], false⟩,
  ⟨0x7010, 0x701F, 0x09, 0x09, 1, .ro, 0, [], false⟩,
  ⟨0x7010, 0x701F, 0x0A, 0x0A, 1, .ro, 0, [], false⟩,
  ⟨0x7010, 0x701F, 0x0B, 0x0B, 8, .ro, 0, [], false⟩,
  ⟨0x7010, 0x701F, 0x0C, 0x0C, 8, .ro, 0, [], false⟩,
  ⟨0x7010, 0x701F, 0x0D, 0x0D, 4, .ro, 0, [], false⟩,
  ⟨0x7010, 0x701F, 0x0E, 0x0E, 1, .ro, 0, [(0, 1)], false⟩,
  ⟨0x7010, 0x701F, 0x0F, 0x0F, 8, .ro, 0, [], false⟩,
  ⟨0x7010, 0x701F, 0x10, 0x10, 64, .ro, 0, [], false⟩,
  ⟨0x7010, 0x701F, 0x11, 0x11, 8, .ro, 0, [], false⟩,
  ⟨0x7010, 0x701F, 0x12, 0x12, 8, .ro, 0, [], false⟩]

/-- Every object of 0x7xxx. -/
def objRows7 : List ObjRow := objRows7p0

/-- Objects 0x8xxx, part 0: R469. -/
def objRows8p0 : List ObjRow := [
  ⟨0x8000, 0x8000, 0x00, 0x00, 1, .cst, 12, [], false⟩,
  ⟨0x8000, 0x8000, 0x01, 0x01, 8, .cst, 0, [], false⟩,
  ⟨0x8000, 0x8000, 0x02, 0x02, 1, .ro, 0, [], false⟩,
  ⟨0x8000, 0x8000, 0x03, 0x03, 1, .ro, 0, [], false⟩,
  ⟨0x8000, 0x8000, 0x04, 0x04, 1, .rwa, 0, [(0, 7)], false⟩,
  ⟨0x8000, 0x8000, 0x05, 0x05, 1, .rwa, 0, [(0, 15)], false⟩,
  ⟨0x8000, 0x8000, 0x06, 0x06, 1, .rwa, 0, [(0, 3)], false⟩,
  ⟨0x8000, 0x8000, 0x07, 0x07, 1, .ro, 0, [], false⟩,
  ⟨0x8000, 0x8000, 0x08, 0x08, 1, .ro, 0, [], false⟩,
  ⟨0x8000, 0x8000, 0x09, 0x09, 32, .ro, 0, [], false⟩,
  ⟨0x8000, 0x8000, 0x0A, 0x0A, 1, .ro, 0, [(0, 1)], false⟩,
  ⟨0x8000, 0x8000, 0x0B, 0x0B, 157, .rwa, 0, [], false⟩,
  ⟨0x8000, 0x8000, 0x0C, 0x0C, 1, .ro, 0, [], false⟩,
  ⟨0x8001, 0x8001, 0x00, 0x00, 1, .cst, 6, [], false⟩,
  ⟨0x8001, 0x8001, 0x01, 0x01, 4096, .ro, 0, [], false⟩,
  ⟨0x8001, 0x8001, 0x02, 0x02, 2592, .ro, 0, [], false⟩,
  ⟨0x8001, 0x8001, 0x03, 0x05, 2048, .ro, 0, [], false⟩,
  ⟨0x8001, 0x8001, 0x06, 0x06, 97, .ro, 0, [], false⟩,
  ⟨0x8010, 0x8013, 0x00, 0x00, 1, .cst, 4, [], false⟩,
  ⟨0x8010, 0x8013, 0x01, 0x01, 48, .rwa, 0, [], false⟩,
  ⟨0x8010, 0x8013, 0x02, 0x02, 48, .rwa, 0, [], false⟩,
  ⟨0x8010, 0x8013, 0x03, 0x03, 1, .ro, 0, [], false⟩,
  ⟨0x8010, 0x8013, 0x04, 0x04, 1, .rwa, 0, [(1, 1)], false⟩,
  ⟨0x8020, 0x8020, 0x00, 0x00, 1, .cst, 65, [], false⟩]

/-- Objects 0x8xxx, part 1: R469. -/
def objRows8p1 : List ObjRow := [
  ⟨0x8020, 0x8020, 0x01, 0x40, 1, .ro, 0, [], false⟩,
  ⟨0x8020, 0x8020, 0x41, 0x41, 8, .ro, 0, [], false⟩,
  ⟨0x8031, 0x8031, 0x00, 0x00, 1, .cst, 7, [], false⟩,
  ⟨0x8038, 0x803F, 0x00, 0x00, 1, .cst, 7, [], false⟩,
  ⟨0x8031, 0x8031, 0x01, 0x01, 32, .wo, 0, [], false⟩,
  ⟨0x8038, 0x803F, 0x01, 0x01, 32, .wo, 0, [], false⟩,
  ⟨0x8031, 0x8031, 0x02, 0x02, 1, .ro, 0, [], false⟩,
  ⟨0x8038, 0x803F, 0x02, 0x02, 1, .ro, 0, [], false⟩,
  ⟨0x8031, 0x8031, 0x03, 0x03, 3328, .ro, 0, [], false⟩,
  ⟨0x8038, 0x803F, 0x03, 0x03, 3328, .ro, 0, [], false⟩,
  ⟨0x8031, 0x8031, 0x04, 0x04, 96, .ro, 0, [], false⟩,
  ⟨0x8038, 0x803F, 0x04, 0x04, 96, .ro, 0, [], false⟩,
  ⟨0x8031, 0x8031, 0x05, 0x07, 2048, .ro, 0, [], false⟩,
  ⟨0x8038, 0x803F, 0x05, 0x07, 2048, .ro, 0, [], false⟩,
  ⟨0x8041, 0x8041, 0x00, 0x00, 1, .cst, 8, [], false⟩,
  ⟨0x8048, 0x804F, 0x00, 0x00, 1, .cst, 8, [], false⟩,
  ⟨0x8041, 0x8041, 0x01, 0x01, 32, .ro, 0, [], false⟩,
  ⟨0x8048, 0x804F, 0x01, 0x01, 32, .ro, 0, [], false⟩,
  ⟨0x8041, 0x8041, 0x02, 0x02, 2048, .wo, 0, [], false⟩,
  ⟨0x8048, 0x804F, 0x02, 0x02, 2048, .wo, 0, [], false⟩,
  ⟨0x8041, 0x8041, 0x03, 0x03, 1, .wo, 0, [(1, 2)], false⟩,
  ⟨0x8048, 0x804F, 0x03, 0x03, 1, .wo, 0, [(1, 2)], false⟩,
  ⟨0x8041, 0x8041, 0x04, 0x04, 1, .ro, 0, [], false⟩,
  ⟨0x8048, 0x804F, 0x04, 0x04, 1, .ro, 0, [], false⟩]

/-- Objects 0x8xxx, part 2: R469. -/
def objRows8p2 : List ObjRow := [
  ⟨0x8041, 0x8041, 0x05, 0x05, 4, .ro, 0, [], false⟩,
  ⟨0x8048, 0x804F, 0x05, 0x05, 4, .ro, 0, [], false⟩,
  ⟨0x8041, 0x8041, 0x06, 0x06, 8, .ro, 0, [], false⟩,
  ⟨0x8048, 0x804F, 0x06, 0x06, 8, .ro, 0, [], false⟩,
  ⟨0x8041, 0x8041, 0x07, 0x07, 1, .wo, 0, [(1, 1)], false⟩,
  ⟨0x8048, 0x804F, 0x07, 0x07, 1, .wo, 0, [(1, 1)], false⟩,
  ⟨0x8041, 0x8041, 0x08, 0x08, 4, .ro, 0, [], false⟩,
  ⟨0x8048, 0x804F, 0x08, 0x08, 4, .ro, 0, [], false⟩,
  ⟨0x8050, 0x8050, 0x00, 0x00, 1, .cst, 5, [], false⟩,
  ⟨0x8050, 0x8050, 0x01, 0x01, 1, .ro, 0, [], false⟩,
  ⟨0x8050, 0x8050, 0x02, 0x02, 1, .ro, 1, [(0, 1)], false⟩,
  ⟨0x8050, 0x8050, 0x03, 0x03, 8, .ro, 0, [], false⟩,
  ⟨0x8050, 0x8050, 0x04, 0x04, 1, .rwa, 0, [(1, 1)], false⟩,
  ⟨0x8050, 0x8050, 0x05, 0x05, 4, .ro, 0, [], false⟩,
  ⟨0x8060, 0x8060, 0x00, 0x00, 1, .cst, 32, [], false⟩,
  ⟨0x8060, 0x8060, 0x01, 0x20, 32, .rwa, 0, [], false⟩,
  ⟨0x8100, 0x8107, 0x00, 0x00, 1, .cst, 6, [], false⟩,
  ⟨0x8100, 0x8107, 0x01, 0x04, 48, .ro, 0, [], false⟩,
  ⟨0x8100, 0x8107, 0x05, 0x05, 8, .ro, 0, [], false⟩,
  ⟨0x8100, 0x8107, 0x06, 0x06, 1, .ro, 0, [], false⟩]

/-- Every object of 0x8xxx. -/
def objRows8 : List ObjRow := objRows8p0 ++ objRows8p1 ++ objRows8p2

/-- Objects 0xAxxx, part 0: R203. -/
def objRowsAp0 : List ObjRow := [
  ⟨0xA000, 0xA000, 0x00, 0x00, 1, .cst, 3, [], false⟩,
  ⟨0xA000, 0xA000, 0x01, 0x01, 1, .ro, 0, [], false⟩,
  ⟨0xA000, 0xA000, 0x02, 0x02, 1, .ro, 0, [], false⟩,
  ⟨0xA000, 0xA000, 0x03, 0x03, 1, .ro, 0, [], false⟩,
  ⟨0xA010, 0xA018, 0x00, 0x00, 1, .cst, 8, [], false⟩,
  ⟨0xA020, 0xA028, 0x00, 0x00, 1, .cst, 8, [], false⟩,
  ⟨0xA010, 0xA018, 0x01, 0x01, 1, .cst, 0, [], false⟩,
  ⟨0xA020, 0xA028, 0x01, 0x01, 1, .cst, 0, [], false⟩,
  ⟨0xA010, 0xA018, 0x02, 0x02, 1, .ro, 0, [], false⟩,
  ⟨0xA020, 0xA028, 0x02, 0x02, 1, .ro, 0, [], false⟩,
  ⟨0xA010, 0xA018, 0x03, 0x03, 1, .ro, 255, [], false⟩,
  ⟨0xA020, 0xA028, 0x03, 0x03, 1, .ro, 255, [], false⟩,
  ⟨0xA010, 0xA018, 0x04, 0x04, 1, .rw, 0, [(0, 41)], true⟩,
  ⟨0xA020, 0xA028, 0x04, 0x04, 1, .rw, 0, [(0, 41)], true⟩,
  ⟨0xA010, 0xA018, 0x05, 0x05, 4, .rw, 0, [(10000000, 500000000)], true⟩,
  ⟨0xA020, 0xA028, 0x05, 0x05, 4, .rw, 0, [(10000000, 500000000)], true⟩,
  ⟨0xA010, 0xA018, 0x06, 0x06, 4, .rw, 100, [], false⟩,
  ⟨0xA020, 0xA028, 0x06, 0x06, 4, .rw, 100, [], false⟩,
  ⟨0xA010, 0xA018, 0x07, 0x07, 4, .ro, 0, [], false⟩,
  ⟨0xA020, 0xA028, 0x07, 0x07, 4, .ro, 0, [], false⟩,
  ⟨0xA010, 0xA018, 0x08, 0x08, 4, .ro, 0, [], false⟩,
  ⟨0xA020, 0xA028, 0x08, 0x08, 4, .ro, 0, [], false⟩,
  ⟨0xA040, 0xA047, 0x00, 0x00, 1, .cst, 6, [], false⟩,
  ⟨0xA040, 0xA047, 0x01, 0x01, 1, .ro, 1, [], true⟩]

/-- Objects 0xAxxx, part 1: R203. -/
def objRowsAp1 : List ObjRow := [
  ⟨0xA040, 0xA047, 0x02, 0x02, 1, .ro, 0, [], false⟩,
  ⟨0xA040, 0xA047, 0x03, 0x03, 1, .rw, 0, [(0, 1)], true⟩,
  ⟨0xA040, 0xA047, 0x04, 0x04, 1, .rw, 0, [(0, 19), (255, 255)], true⟩,
  ⟨0xA040, 0xA047, 0x05, 0x05, 1, .wo, 0, [(1, 1)], false⟩,
  ⟨0xA040, 0xA047, 0x06, 0x06, 8, .ro, 0, [], false⟩,
  ⟨0xA100, 0xA17F, 0x00, 0x00, 1, .cst, 8, [], false⟩,
  ⟨0xA100, 0xA17F, 0x01, 0x01, 2, .ro, 0, [], false⟩,
  ⟨0xA100, 0xA17F, 0x02, 0x02, 1, .ro, 1, [], false⟩,
  ⟨0xA100, 0xA17F, 0x03, 0x03, 1, .ro, 0, [], false⟩,
  ⟨0xA100, 0xA17F, 0x04, 0x04, 1, .rw, 0, [(0, 0)], false⟩,
  ⟨0xA100, 0xA17F, 0x05, 0x05, 1, .rw, 0, [(0, 0)], false⟩,
  ⟨0xA100, 0xA17F, 0x06, 0x06, 4, .ro, 0, [], false⟩,
  ⟨0xA100, 0xA17F, 0x07, 0x07, 4, .ro, 0, [], false⟩,
  ⟨0xA100, 0xA17F, 0x08, 0x08, 4, .ro, 0, [], false⟩,
  ⟨0xA200, 0xA200, 0x00, 0x00, 1, .cst, 12, [], false⟩,
  ⟨0xA200, 0xA200, 0x01, 0x01, 8, .ro, 0, [], false⟩,
  ⟨0xA200, 0xA200, 0x02, 0x02, 1, .ro, 2, [], false⟩,
  ⟨0xA200, 0xA200, 0x03, 0x03, 4, .ro, 2000000000, [], false⟩,
  ⟨0xA200, 0xA200, 0x04, 0x04, 4, .rw, 0, [(0, 500000), (4294467296, 4294967295)], false⟩,
  ⟨0xA200, 0xA200, 0x05, 0x05, 8, .wo, 0, [], false⟩,
  ⟨0xA200, 0xA200, 0x06, 0x06, 4, .rw, 1000000, [(1000, 1000000000)], false⟩,
  ⟨0xA200, 0xA200, 0x07, 0x07, 1, .rw, 1, [(0, 1)], false⟩,
  ⟨0xA200, 0xA200, 0x08, 0x08, 4, .rw, 100, [(10, 1000)], false⟩,
  ⟨0xA200, 0xA200, 0x09, 0x09, 1, .ro, 0, [], false⟩]

/-- Objects 0xAxxx, part 2: R203. -/
def objRowsAp2 : List ObjRow := [
  ⟨0xA200, 0xA200, 0x0A, 0x0A, 8, .ro, 0, [], false⟩,
  ⟨0xA200, 0xA200, 0x0B, 0x0B, 1, .ro, 0, [], false⟩,
  ⟨0xA200, 0xA200, 0x0C, 0x0C, 4, .ro, 0, [], false⟩]

/-- Every object of 0xAxxx. -/
def objRowsA : List ObjRow := objRowsAp0 ++ objRowsAp1 ++ objRowsAp2

/-- Objects 0xBxxx, part 0: R226. -/
def objRowsBp0 : List ObjRow := [
  ⟨0xB000, 0xB001, 0x00, 0x00, 1, .cst, 5, [], false⟩,
  ⟨0xB000, 0xB001, 0x01, 0x01, 4, .ro, 131072, [], false⟩,
  ⟨0xB000, 0xB001, 0x02, 0x02, 4, .ro, 65536, [], false⟩,
  ⟨0xB000, 0xB001, 0x03, 0x03, 2, .ro, 0, [], true⟩,
  ⟨0xB000, 0xB001, 0x04, 0x04, 4, .ro, 0, [], false⟩,
  ⟨0xB000, 0xB001, 0x05, 0x05, 4, .ro, 0, [], false⟩,
  ⟨0xB100, 0xB4FF, 0x00, 0x00, 1, .cst, 25, [], false⟩,
  ⟨0xB100, 0xB4FF, 0x01, 0x01, 1, .ro, 1, [], true⟩,
  ⟨0xB100, 0xB4FF, 0x02, 0x02, 1, .ro, 0, [], false⟩,
  ⟨0xB100, 0xB4FF, 0x03, 0x03, 2, .ro, 0, [], true⟩,
  ⟨0xB100, 0xB4FF, 0x04, 0x04, 2, .ro, 0, [], true⟩,
  ⟨0xB100, 0xB4FF, 0x05, 0x05, 4, .ro, 0, [], true⟩,
  ⟨0xB100, 0xB4FF, 0x06, 0x06, 4, .ro, 0, [], true⟩,
  ⟨0xB100, 0xB4FF, 0x07, 0x07, 2, .ro, 0, [], true⟩,
  ⟨0xB100, 0xB4FF, 0x08, 0x08, 2, .ro, 1, [], true⟩,
  ⟨0xB100, 0xB4FF, 0x09, 0x09, 4, .rw, 0, [], true⟩,
  ⟨0xB100, 0xB4FF, 0x0A, 0x0A, 4, .rw, 0, [], true⟩,
  ⟨0xB100, 0xB4FF, 0x0B, 0x0B, 1, .rw, 0, [(0, 1)], true⟩,
  ⟨0xB100, 0xB4FF, 0x0C, 0x0C, 4, .ro, 0, [], false⟩,
  ⟨0xB100, 0xB4FF, 0x0D, 0x0D, 4, .ro, 0, [], false⟩,
  ⟨0xB100, 0xB4FF, 0x0E, 0x0E, 4, .rw, 0, [(0, 0), (1000, 1000000000)], true⟩,
  ⟨0xB100, 0xB4FF, 0x0F, 0x0F, 1, .rw, 0, [(0, 2)], true⟩,
  ⟨0xB100, 0xB4FF, 0x10, 0x10, 2, .ro, 65535, [], true⟩,
  ⟨0xB100, 0xB4FF, 0x11, 0x11, 1, .rw, 0, [(0, 2)], true⟩]

/-- Objects 0xBxxx, part 1: R226. -/
def objRowsBp1 : List ObjRow := [
  ⟨0xB100, 0xB4FF, 0x12, 0x12, 2, .rw, 65535, [(0, 511), (65535, 65535)], true⟩,
  ⟨0xB100, 0xB4FF, 0x13, 0x13, 2, .rw, 65535, [(0, 511), (65535, 65535)], true⟩,
  ⟨0xB100, 0xB4FF, 0x14, 0x14, 1, .wo, 0, [(1, 1)], false⟩,
  ⟨0xB100, 0xB4FF, 0x15, 0x15, 8, .ro, 0, [], false⟩,
  ⟨0xB100, 0xB4FF, 0x16, 0x16, 8, .ro, 0, [], false⟩,
  ⟨0xB100, 0xB4FF, 0x17, 0x17, 4, .ro, 0, [], false⟩,
  ⟨0xB100, 0xB4FF, 0x18, 0x18, 4, .ro, 0, [], false⟩,
  ⟨0xB100, 0xB4FF, 0x19, 0x19, 1, .ro, 255, [], true⟩,
  ⟨0xB800, 0xB8FF, 0x00, 0x00, 1, .cst, 6, [], false⟩,
  ⟨0xB800, 0xB8FF, 0x01, 0x01, 1, .ro, 0, [(0, 2)], true⟩,
  ⟨0xB800, 0xB8FF, 0x02, 0x02, 2, .ro, 65535, [], true⟩,
  ⟨0xB800, 0xB8FF, 0x03, 0x03, 1, .ro, 0, [(0, 7)], true⟩,
  ⟨0xB800, 0xB8FF, 0x04, 0x04, 1, .ro, 0, [(0, 1)], true⟩,
  ⟨0xB800, 0xB8FF, 0x05, 0x05, 2, .ro, 65535, [], false⟩,
  ⟨0xB800, 0xB8FF, 0x06, 0x06, 1, .ro, 0, [], false⟩]

/-- Every object of 0xBxxx. -/
def objRowsB : List ObjRow := objRowsBp0 ++ objRowsBp1

/-- Objects 0xCxxx, part 0: R78, R110. -/
def objRowsCp0 : List ObjRow := [
  ⟨0xC000, 0xC000, 0x00, 0x00, 1, .cst, 3, [], false⟩,
  ⟨0xC000, 0xC000, 0x01, 0x01, 4, .cst, 1048576, [], false⟩,
  ⟨0xC000, 0xC000, 0x02, 0x02, 1, .cst, 64, [], false⟩,
  ⟨0xC000, 0xC000, 0x03, 0x03, 1, .ro, 0, [], false⟩,
  ⟨0xC001, 0xC001, 0x00, 0x00, 1, .cst, 2, [], false⟩,
  ⟨0xC001, 0xC001, 0x01, 0x01, 4, .ro, 0, [], false⟩,
  ⟨0xC001, 0xC001, 0x02, 0x02, 4, .ro, 0, [], false⟩,
  ⟨0xC100, 0xC13F, 0x00, 0x00, 1, .cst, 10, [], false⟩,
  ⟨0xC100, 0xC13F, 0x01, 0x01, 1, .ro, 1, [], false⟩,
  ⟨0xC100, 0xC13F, 0x02, 0x02, 1, .ro, 0, [], false⟩,
  ⟨0xC100, 0xC13F, 0x03, 0x03, 1, .wo, 0, [], false⟩,
  ⟨0xC100, 0xC13F, 0x04, 0x04, 2, .ro, 0, [], false⟩,
  ⟨0xC100, 0xC13F, 0x05, 0x05, 4, .rw, 100, [(10, 100000)], false⟩,
  ⟨0xC100, 0xC13F, 0x06, 0x06, 1, .wo, 0, [(1, 1)], false⟩,
  ⟨0xC100, 0xC13F, 0x07, 0x07, 1, .ro, 0, [], false⟩,
  ⟨0xC100, 0xC13F, 0x08, 0x08, 8, .ro, 0, [], false⟩,
  ⟨0xC100, 0xC13F, 0x09, 0x09, 4, .ro, 0, [], false⟩,
  ⟨0xC100, 0xC13F, 0x0A, 0x0A, 1, .ro, 0, [], false⟩,
  ⟨0xC140, 0xC17F, 0x00, 0x00, 1, .cst, 8, [], false⟩,
  ⟨0xC140, 0xC17F, 0x01, 0x04, 4, .ro, 0, [], false⟩,
  ⟨0xC140, 0xC17F, 0x05, 0x08, 4, .ro, 0, [], false⟩,
  ⟨0xC200, 0xC200, 0x00, 0x00, 1, .cst, 5, [], false⟩,
  ⟨0xC200, 0xC200, 0x01, 0x01, 8, .ro, 0, [], false⟩,
  ⟨0xC200, 0xC200, 0x02, 0x02, 8, .ro, 0, [], false⟩]

/-- Objects 0xCxxx, part 1: R110, R143, R169. -/
def objRowsCp1 : List ObjRow := [
  ⟨0xC200, 0xC200, 0x03, 0x03, 4, .ro, 0, [], false⟩,
  ⟨0xC200, 0xC200, 0x04, 0x04, 4, .ro, 0, [], false⟩,
  ⟨0xC200, 0xC200, 0x05, 0x05, 4, .ro, 0, [], false⟩,
  ⟨0xC300, 0xC33F, 0x00, 0x00, 1, .cst, 6, [], false⟩,
  ⟨0xC300, 0xC33F, 0x01, 0x01, 8, .ro, 0, [], false⟩,
  ⟨0xC300, 0xC33F, 0x02, 0x02, 8, .ro, 0, [], false⟩,
  ⟨0xC300, 0xC33F, 0x03, 0x03, 4, .ro, 0, [], false⟩,
  ⟨0xC300, 0xC33F, 0x04, 0x04, 4, .ro, 0, [], false⟩,
  ⟨0xC300, 0xC33F, 0x05, 0x05, 4, .ro, 0, [], false⟩,
  ⟨0xC300, 0xC33F, 0x06, 0x06, 4, .ro, 0, [], false⟩,
  ⟨0xC002, 0xC002, 0x00, 0x00, 1, .cst, 5, [], false⟩,
  ⟨0xC002, 0xC002, 0x01, 0x01, 4, .ro, 0, [], false⟩,
  ⟨0xC002, 0xC002, 0x02, 0x02, 4, .ro, 0, [], false⟩,
  ⟨0xC002, 0xC002, 0x03, 0x03, 4, .ro, 0, [], false⟩,
  ⟨0xC002, 0xC002, 0x04, 0x04, 4, .ro, 0, [], false⟩,
  ⟨0xC002, 0xC002, 0x05, 0x05, 4, .ro, 0, [], false⟩,
  ⟨0xC400, 0xC43F, 0x00, 0x00, 1, .cst, 11, [], false⟩,
  ⟨0xC400, 0xC43F, 0x01, 0x01, 2, .rw, 65535, [(0, 511), (65535, 65535)], true⟩,
  ⟨0xC400, 0xC43F, 0x02, 0x02, 2, .rw, 65535, [(0, 511), (65535, 65535)], true⟩,
  ⟨0xC400, 0xC43F, 0x03, 0x03, 1, .rw, 0, [(0, 2)], true⟩,
  ⟨0xC400, 0xC43F, 0x04, 0x04, 4, .ro, 0, [], false⟩,
  ⟨0xC400, 0xC43F, 0x05, 0x05, 4, .ro, 0, [], false⟩,
  ⟨0xC400, 0xC43F, 0x06, 0x06, 4, .rw, 1000, [(1, 60000)], false⟩,
  ⟨0xC400, 0xC43F, 0x07, 0x07, 1, .rw, 1, [(0, 1)], false⟩]

/-- Objects 0xCxxx, part 2: R169. -/
def objRowsCp2 : List ObjRow := [
  ⟨0xC400, 0xC43F, 0x08, 0x08, 1, .ro, 0, [], false⟩,
  ⟨0xC400, 0xC43F, 0x09, 0x09, 1, .wo, 0, [(1, 1)], false⟩,
  ⟨0xC400, 0xC43F, 0x0A, 0x0A, 8, .ro, 0, [], false⟩,
  ⟨0xC400, 0xC43F, 0x0B, 0x0B, 4, .ro, 0, [], false⟩]

/-- Every object of 0xCxxx. -/
def objRowsC : List ObjRow := objRowsCp0 ++ objRowsCp1 ++ objRowsCp2

/-- The rows whose indices share the index's high digit (R477: each chapter has its own range). -/
def objRowsOf (idx : Nat) : List ObjRow :=
  match idx / 4096 with
  | 1 => objRows1
  | 2 => objRows2
  | 3 => objRows3
  | 4 => objRows4
  | 5 => objRows5
  | 6 => objRows6
  | 7 => objRows7
  | 8 => objRows8
  | 10 => objRowsA
  | 11 => objRowsB
  | 12 => objRowsC
  | _ => []

/-- The rows of one index: empty when there is no such object. -/
def objRowsAt (idx : Nat) : List ObjRow :=
  (objRowsOf idx).filter (fun r => decide (r.lo ≤ idx) && decide (idx ≤ r.hi))

/-- The row of an index and subindex. -/
def findRow (idx sub : Nat) : Option ObjRow :=
  (objRowsOf idx).find? (fun r => decide (r.lo ≤ idx) && decide (idx ≤ r.hi) && decide (r.s0 ≤ sub) && decide (sub ≤ r.s1))

/-- The key of an object in the register file. -/
def oa (idx sub : Nat) : Nat := idx * 256 + sub

/-- Little-endian octets of the ordering codes "ZF4096-B484-E1" and "ZF4096-B484-E2" (R2, R478). -/
def orderCode (bin2 : Bool) : Nat :=
  if bin2 then 1019601213351068863239859530384986 else 999318803747417192815912279098970

/-- Coefficients of R340 in fJ by class; classes 0x19 to 0x1D hold a multiplier, 1.0 in Q16.16 (R365). -/
def coeffDefault (cls : Nat) : Nat :=
  ([0, 550, 350, 18000, 1100, 12000, 45000, 22000, 20000, 38000, 44000, 66000, 80000, 40000, 12000, 30000, 34000,
    8000, 1400000, 950000, 1050000, 250000, 24000000, 400000, 60000] : List Nat).getD cls 65536

/-- Defaults that depend on the record's number or on the part itself, not on the table's row. -/
def odSpecial (idx sub : Nat) : Option Nat :=
  if 0xA010 ≤ idx ∧ idx ≤ 0xA028 ∧ sub = 1 then some (idx % 16)                          -- loop number (R203)
  else if 0x4100 ≤ idx ∧ idx ≤ 0x4163 ∧ sub = 1 then                                      -- port kind (R233, R263)
    let p := idx % 64
    some (if p < 32 then 0 else if p < 34 then 1 else if p = 34 then 2 else 3)
  else if 0x5010 ≤ idx ∧ idx ≤ 0x5018 ∧ sub = 1 then                                      -- domain code (R331)
    some (if idx = 0x5010 then 1 else 7 + (idx - 0x5010))
  else if 0x3200 ≤ idx ∧ idx ≤ 0x3207 ∧ sub = 1 then                                      -- nominal mV (R333)
    some (([600, 750, 900, 800] : List Nat).getD (idx % 4) 0)
  else if idx = 0x3300 ∧ 1 ≤ sub then some (coeffDefault sub)
  else if idx = 0x1000 ∧ sub = 3 then some (orderCode Config.bin2)
  else if idx = 0x1000 ∧ sub = 5 then some (if Config.bin2 then 2 else 1)
  else if (idx = 0x1000 ∧ sub = 6) ∨ (idx = 0x8000 ∧ sub = 1) then some Config.serial
  else if idx = 0x8001 ∧ 1 ≤ sub then some (Config.constOctets sub)                       -- certificates (R436)
  else none

/-- The value an object holds at power-on reset (R481). -/
def odDefault (k : Nat) : Nat :=
  match odSpecial (k / 256) (k % 256) with
  | some v => v
  | none =>
    match findRow (k / 256) (k % 256) with
    | some r => r.dflt
    | none => 0

/-- A write's value lies in the object's range (R482 order 9). -/
def ObjRow.inRange (r : ObjRow) (v : Nat) : Bool :=
  r.rng.isEmpty || r.rng.any (fun p => decide (p.1 ≤ v) && decide (v ≤ p.2))

end Sys2Proof.Machine
end

