-- ==== Sys2Proof/Machine/SMap.lean ====
section
/-! DEFINITION. Sparse maps from numbers in one canonical form: keys strictly rising, no entry equal to what an unlisted
key reads as. The register file, the memories and every unit that exists many times over are held in them. -/

namespace Sys2Proof.Machine

/-- A sparse map. What an unlisted key reads as is given to `get` and `put`. -/
structure SMap (α : Type) where
  cells : List (Nat × α)
deriving DecidableEq, Repr

/-- The map that lists nothing. -/
def SMap.empty {α : Type} : SMap α := ⟨[]⟩

/-- The entry of a key in a list of cells. -/
def cellsFind {α : Type} : List (Nat × α) → Nat → Option α
  | [], _ => none
  | (k, v) :: l, n => if n = k then some v else cellsFind l n

/-- Put an entry at its place in a rising list, over any entry of the same key. -/
def cellsInsert {α : Type} : List (Nat × α) → Nat → α → List (Nat × α)
  | [], n, x => [(n, x)]
  | (k, v) :: l, n, x => if n < k then (n, x) :: (k, v) :: l else if n = k then (n, x) :: l else (k, v) :: cellsInsert l n x

/-- Remove every entry of a key. -/
def cellsErase {α : Type} : List (Nat × α) → Nat → List (Nat × α)
  | [], _ => []
  | (k, v) :: l, n => if n = k then cellsErase l n else (k, v) :: cellsErase l n

/-- Every key of the list lies above `n`, rising. -/
def cellsRising {α : Type} : Nat → List (Nat × α) → Bool
  | _, [] => true
  | n, (k, _) :: l => decide (n ≤ k) && cellsRising (k + 1) l

/-- The value at a key. -/
def SMap.get {α : Type} (d : Nat → α) (m : SMap α) (k : Nat) : α :=
  match cellsFind m.cells k with
  | some v => v
  | none => d k

/-- Write a value at a key; the value an unlisted key reads as removes the entry. -/
def SMap.put {α : Type} [DecidableEq α] (d : Nat → α) (m : SMap α) (k : Nat) (v : α) : SMap α :=
  if v = d k then ⟨cellsErase m.cells k⟩ else ⟨cellsInsert m.cells k v⟩

/-- The canonical form. -/
def SMap.wf {α : Type} [DecidableEq α] (d : Nat → α) (m : SMap α) : Bool :=
  cellsRising 0 m.cells && m.cells.all (fun c => decide (c.2 ≠ d c.1))

/-- Keys of the entries that satisfy a condition, rising. -/
def SMap.keysWhere {α : Type} (m : SMap α) (p : Nat → α → Bool) : List Nat :=
  (m.cells.filter (fun c => p c.1 c.2)).map (fun c => c.1)

/-- Drop the entries whose keys satisfy a condition: they read as unlisted again. -/
def SMap.dropKeys {α : Type} (m : SMap α) (p : Nat → Bool) : SMap α :=
  ⟨m.cells.filter (fun c => !p c.1)⟩

end Sys2Proof.Machine
end

