-- ==== Sys2Proof/Machine/State.lean ====
section
/-! DEFINITION. The state of the block, as plain data, and the machine at reset. Every register of the object dictionary
lives in `State.od`, by index and subindex; everything else the spec gives a block lives in that block's structure.
INVENTORY.md lists every piece of state with its rule. -/

namespace Sys2Proof.Machine

/-- Reasons the machine stops with a fault. No meaning raises one: the spec gives every command of a legal operand an
outcome that the machine survives (R482 aborts, R238 poisons, R92 stalls). -/
inductive Fault where
  /-- A resource number outside the device. Raised by no meaning, since operands are bounded by type; safe. -/
  | noSuchResource
deriving DecidableEq, Repr

/-- Reasons a command is refused. -/
inductive Refusal where
  /-- The command has no meaning in the model yet; raised by refused arms of `exec` alone; safe. -/
  | notModelled (mnemonic : String)
  /-- The command's operands are no command of the protocol (WellFormed.lean); raised by the meanings that carry a list
  of words or octets; safe. -/
  | illFormed (mnemonic : String)
deriving DecidableEq, Repr

/-- An event record (R316) before LOST and PHASE, which each ring adds. `payload` holds bytes 20 to 31, byte 20 lowest. -/
structure EventRec where
  code : Nat
  cls : Nat
  sev : Nat
  idx : Nat
  time : Nat
  seq : Nat
  payload : Nat
deriving DecidableEq, Repr

/-- One event ring's page and progress (R319 to R321). `written` counts records since EN was set. -/
structure RingSt where
  base : Nat := 0
  cfg : Nat := 0
  moderation : Nat := 0
  filter : Nat := 0x3FFE
  head : Nat := 0
  tail : Nat := 0
  written : Nat := 0
  used : Nat := 0
  lost : Nat := 0
  lostClaim : Nat := 0
  records : Nat := 0
  dropping : Bool := false
  unsignalled : Nat := 0
  opened : Nat := 0
deriving DecidableEq, Repr

/-- An event that is raised at most once in each window of 1 s (R36, R293, R432, R502): the window's number, what it has counted
and the first cause. -/
structure WinSt where
  cls : Nat
  sev : Nat
  idx : Nat
  window : Nat
  count : Nat
  first : Nat
deriving DecidableEq, Repr

/-- What leaves the package towards the host and the chain: events, rings, host memory writes, interrupts. `log` is the
model's own record of every event raised, newest first (notes/assumptions/8.md). `hostEp` holds the host addresses of the 16-byte
words last written in a TLP with EP set (R310); `msixTab` and `pba` are the MSI-X tables and pending bits, by 2,048 times the
function code plus the vector (R299). -/
structure OutSt where
  seq : Nat := 0
  log : List EventRec := []
  rings : SMap RingSt := ⟨[]⟩
  hostMem : SMap Byte := ⟨[]⟩
  hostEp : List Nat := []
  msix : List (Nat × Nat) := []
  msixTab : SMap Nat := ⟨[]⟩
  pba : SMap Bool := ⟨[]⟩
  kimbeEvents : List (EventRec × Bool) := []
  kimbeLost : Nat := 0
  kimbeMark : Bool := false
  clkreq : Bool := false
  wakeN : Bool := false
  wins : SMap (Option WinSt) := ⟨[]⟩
deriving DecidableEq, Repr

/-- Power, time, always-on domain, straps, JTAG and thermal state of the package. -/
structure DevSt where
  por : Bool := true
  shutdown : Bool := false
  freeCtr : Nat := 0
  timeFrac : Nat := 0
  slew : Int := 0
  timeWaiters : List Nat := []
  awake : List Nat := []
  thermLow : Bool := false
  bootHeld : Bool := false
  tamperLatch : Bool := false
  tamperLow : Bool := false
  mode : Nat := 0
  initLow : Bool := true
  doneLow : Bool := true
  extInitLow : Bool := false
  perstLow : Bool := true
  ir : Nat := 0xFF
  irOut : Nat := 1
  dr : Nat := 0
  bscan : BitVec 120 := 0
  keysDue : Bool := true
deriving DecidableEq, Repr

/-- One Logic Unit: its configuration and its output latch or output (R41 to R59). In DR mode oF and oG are the rails; in
BD mode the captured bits; in CE mode the output and its complement; in MX mode the grants. -/
structure LuSt where
  cfg : Option LuCfg := none
  full : Bool := false
  oF : Bool := false
  oG : Bool := false
  joined : Bool := false
  delay : Bool := false
  codeRaised : Bool := false
  turn : Option Bool := none
deriving DecidableEq, Repr

/-- One Prism (R115). `flags` holds the presented flag tokens by pair; `extra` the second token of a MULW. -/
structure PrismSt where
  cfg : Option PrismCfg := none
  l : List (BitVec 128 × Bool) := []
  acc : BitVec 192 := 0
  accTag : Bool := false
  m : BitVec 16 := 0
  seqIdx : Nat := 0
  result : Option Word := none
  extra : Option Word := none
  flags : List (Nat × Bool) := []
deriving DecidableEq, Repr

/-- One Pool RAM (R131 to R139). -/
structure PoolSt where
  cfg : Option (BitVec 56) := none
  data : SMap Word := ⟨[]⟩
  ptr0 : Nat := 0
  ptr1 : Nat := 0
  fifoHead : Nat := 0
  fifoLen : Nat := 0
  pairs : Nat := 0
  cmd0 : Option Word := none
  cmd1 : Option Word := none
  read0 : Option Word := none
  read1 : Option Word := none
  status : List (Nat × Bool) := []
deriving DecidableEq, Repr

/-- One Bisector channel (R101): the sender's credits, words and credits in flight, the receive buffer. -/
structure BisSt where
  credit : Nat := 16
  flight : List Word := []
  creditFlight : Nat := 0
  buf : List Word := []
deriving DecidableEq, Repr

/-- One region's fence controller and reset sequencer (R69 to R77). `joined` masks the reason bits whose requests began
or joined the running close; `members` lists the fenced set by region number; `lost` counts the channels that this close reset
under FORCE; `closedAt` is the time at which the region became FENCED, `resetFrom` that from which its reset is timed (R70). -/
structure FenceSt where
  start : Nat := 0
  timeout : Nat := 0
  force : Bool := false
  joined : Nat := 0
  members : List Nat := []
  closed : List Nat := []
  hold : Bool := false
  settled : Bool := false
  resetFrom : Nat := 0
  closedAt : Nat := 0
  forcedClose : Bool := false
  lost : Nat := 0
deriving DecidableEq, Repr

/-- A log or replay stream (R152 to R162): next SEQ by source, the replayed counterpart, stall and failure flags; `epochDue` lists the
times of start points whose EPOCH records have still to be written; `logFailed` and `repFailed` tell which of its queues failed the check of
R162. -/
structure StreamSt where
  seqs : List (Nat × Nat) := []
  rseqs : List (Nat × Nat) := []
  stalledAt : Option (Nat × Nat) := none
  stallRaised : Bool := false
  stopped : Bool := false
  exhausted : Bool := false
  headSince : Option Nat := none
  headRaised : Bool := false
  ready : Option (Nat × Nat) := none
  epochRead : Bool := false
  reads : Nat := 0
  logFailed : Bool := false
  repFailed : Bool := false
  epochDue : List Nat := []
deriving DecidableEq, Repr

/-- The handshake fabric: units, routing selects, segment enables (`drive`, by 4 × region + side, R95), stations, fences, streams and
the words at the site slots. `resets` lists the regions whose reset has begun and not ended, in the order in which it began (R70).
`meter` counts what each region has done since it was last priced (R109, R340), by 32 × region + class. -/
structure FabSt where
  gsr : Bool := true
  lus : SMap LuSt := ⟨[]⟩
  acks : SMap Bool := ⟨[]⟩
  gAck : SMap Bool := ⟨[]⟩
  chordOut : SMap Nat := ⟨[]⟩
  gatherSide : SMap Nat := ⟨[]⟩
  drive : SMap Nat := ⟨[]⟩
  wordSel : SMap Nat := ⟨[]⟩
  spanBitIn : SMap Nat := ⟨[]⟩
  spanBitSite : SMap Nat := ⟨[]⟩
  spanWordIn : SMap Nat := ⟨[]⟩
  spanWordArc : SMap Nat := ⟨[]⟩
  spanWordSite : SMap Nat := ⟨[]⟩
  arcTx : SMap (Option Word) := ⟨[]⟩
  arcRx : SMap (Option Word) := ⟨[]⟩
  bis : SMap BisSt := ⟨[]⟩
  prisms : SMap PrismSt := ⟨[]⟩
  pools : SMap PoolSt := ⟨[]⟩
  taken : List Nat := []
  fences : SMap FenceSt := ⟨[]⟩
  resets : List Nat := []
  pace : SMap (Nat × Nat) := ⟨[]⟩
  siteOut : SMap (List Word) := ⟨[]⟩
  siteBit : SMap (Option Nat) := ⟨[]⟩
  streams : SMap StreamSt := ⟨[]⟩
  marginPasses : SMap Nat := ⟨[]⟩
  marginAt : SMap (Option Nat) := ⟨[]⟩
  meter : SMap Nat := ⟨[]⟩
deriving DecidableEq, Repr

/-- One Tangent cell (R171 to R184). `fifo` holds the words that a fabric-to-island WORD FIFO has accepted; the words of an
island-to-fabric WORD FIFO stand at its site word output in `FabSt.siteOut`. `presented` says that a PULSE or COUNT token
stands, or stood, on the site bit output. `cycles` counts the island's cycles since the epoch (R153, R154). -/
structure CellRec where
  fifo : List Word := []
  value : BitVec 128 := 0
  srcToggle : Bool := false
  retToggle : Bool := false
  presented : Bool := false
  merged : Bool := false
  written : Nat := 0
  delivered : Nat := 0
  epochF : Bool := false
  epochI : Bool := false
  cycles : Nat := 0
deriving DecidableEq, Repr

/-- One PLL loop's progress (R192 to R194). -/
structure LoopSt where
  startedAt : Nat := 0
  retried : Bool := false
  lostAt : Nat := 0
  idleSince : Option Nat := none
deriving DecidableEq, Repr

/-- Tangent cells, loops and time synchronisation. `resetting` holds, by loop number, the cause and the start of an island reset that waits
for its fabric halves (R182). -/
structure CellSt where
  recs : SMap CellRec := ⟨[]⟩
  loops : SMap LoopSt := ⟨[]⟩
  resetting : SMap (Option (Nat × Nat)) := ⟨[]⟩
  lastSync : Nat := 0
  synced : Nat := 0
  lastSent : Nat := 0
  syncSeq : Nat := 0
deriving DecidableEq, Repr

/-- A complete item of a Locus queue (R207, R212). `batch` numbers its batch. `spill` lists the words of the queue's spill part that hold its
last words, all of them for an item stored there whole (R215, R216); the data of a spilled word then stands in `MemSt.bytes`. -/
structure QItem where
  words : List Word
  prio : Nat
  batch : Nat
  spill : List Nat
deriving DecidableEq, Repr

/-- One Locus queue's runtime state (R212 to R223). `part` is the item in progress with its priority and CLOSE; `since`
the start of the idle interval; `waiting` a handoff that waits for its item or for room; `shown` the words of an item that was being
presented when the queue lost its read channel (R564). -/
structure QueueSt where
  items : List QItem := []
  batch : Nat := 0
  inBatch : Nat := 0
  part : Option (List Word × Nat × Bool) := none
  shown : List Word := []
  high : Bool := false
  since : Nat := 0
  fired : Bool := false
  waiting : Bool := false
  flushCause : Nat := 0
deriving DecidableEq, Repr

/-- One Locus write port (R209 to R211): the queue, priority and CLOSE of the item that it is at, from its tag or in DIRECT mode from its first
word, and while words are dropped up to LAST the status that follows: 0 none (R224), 1 ABORTED, 2 REJECTED. -/
structure LPortSt where
  tag : Option (Nat × Nat × Bool) := none
  drop : Option Nat := none
deriving DecidableEq, Repr

/-- The Locus engines. `meter` counts the words written and read on a die for an account (R340), by 16 × die + account. -/
structure LocSt where
  queues : SMap QueueSt := ⟨[]⟩
  ports : SMap LPortSt := ⟨[]⟩
  meter : SMap Nat := ⟨[]⟩
deriving DecidableEq, Repr

/-- A request a port has taken (R234 to R239), its words in `data`; `bad` is POISON on the request word, or of an acknowledgement owed.
`seq` numbers the port's requests; `orphan` marks a write that was taken before a reset of the port (R260); `acked` is the POISON of a
WRITE_ACK's acknowledgement once R238 or R253 has settled it. -/
structure MemReq where
  op : Nat
  window : Nat
  len : Nat
  offset : Nat
  data : List Word
  bad : Bool
  seq : Nat := 0
  orphan : Bool := false
  acked : Option Bool := none
deriving DecidableEq, Repr

/-- A 32-byte column command in a PC queue (R243): its request's port and number, its physical address, the place of its first
word in the response, how many words it covers, when it was admitted, whether its age has been reported, whether its port is real-time,
and the account that it is charged to (R262). -/
structure PcCmd where
  write : Bool
  port : Nat
  group : Nat
  addr : Nat
  place : Nat
  words : Nat
  at_ : Nat
  aged : Bool
  rt : Bool
  acct : Nat
deriving DecidableEq, Repr

/-- A response that a port owes (R236, R239): its request's number, the commands still to be served, its words in order, whether it
answers a READ, and when its request was admitted. -/
structure MSlot where
  group : Nat
  due : Nat
  words : List Word
  read : Bool
  at_ : Nat
deriving DecidableEq, Repr

/-- One Annulus port (R239, R245): requests not yet admitted, responses in order, the words in the response buffer, the number of the next
request taken, when the port last entered panic, and the requests whose responses have not all entered the region (R260, R422). -/
structure MPortSt where
  reqs : List MemReq := []
  slots : List MSlot := []
  resp : List Word := []
  nextSeq : Nat := 0
  panicAt : Nat := 0
  hist : List MemReq := []
deriving DecidableEq, Repr

/-- One pseudo-channel (R243 to R250). `debt` is D in units of 1/64 ns, `last` the device time at which it was last brought
forward, `bank` the next bank of the round-robin order, `perBank` a per-bank refresh in progress, `rows` the open row of
each bank that has one. `retry` holds the last 32 commands issued, oldest first, of which the last `unsure` are not confirmed (R252).
`forced` is of a FORCED state that stands its start, its cause and the debt at its entry, Q16.16 (R249); `backAt` the time from which the next
command of class 7 waits (R244). -/
structure PcSt where
  queue : List PcCmd := []
  retry : List PcCmd := []
  debt : Nat := 0
  last : Nat := 0
  bank : Nat := 0
  perBank : Bool := false
  rows : List (Nat × Nat) := []
  idleFrom : Nat := 0
  unsure : Nat := 0
  forced : Nat × Nat × Nat := (0, 0, 0)
  backAt : Nat := 0
deriving DecidableEq, Repr

/-- The Annulus controllers and their stacks. `bytes` is device memory by stack and stack address (R230), `2 ^ 34` × stack + A; a byte not
listed is the zero that training wrote (R256). `poison` lists the words stored with POISON (R237) and `errs` those found with an error that the
array still holds, 1 a single-bit and 2 a double-bit error (R254, R255), both by a sixteenth of that address. `replaying` counts a channel's parity
replay attempts; `zeroing` lists windows with whether their own domain's reset zeroes them (R261) and since when. `meter` counts the
activates, reads, writes, precharges and refreshes of each pseudo-channel for an account (R262), by `pcKey`. -/
structure MemSt where
  bytes : SMap Byte := ⟨[]⟩
  poison : SMap Bool := ⟨[]⟩
  errs : SMap Nat := ⟨[]⟩
  ports : SMap MPortSt := ⟨[]⟩
  pcs : SMap PcSt := ⟨[]⟩
  replaying : SMap Nat := ⟨[]⟩
  ceStart : List Nat := [0, 0]
  ceCount : List Nat := [0, 0]
  ceRaised : List Bool := [false, false]
  idleFrom : List Nat := [0, 0]
  zeroing : List (Nat × Bool × Nat) := []
  patrolStart : Nat := 0
  patrolCorr : Nat := 0
  patrolUnc : Nat := 0
  failedStacks : List Nat := []
  meter : SMap Nat := ⟨[]⟩
deriving DecidableEq, Repr

/-- One Ray lane's runtime state (R280 to R288): when it began to acquire; the raw receive words that wait for a FIFO and the
index of the next raw word each way; the bits received of the next raw word, their number, and the bits still to skip. -/
structure LaneSt where
  acqFrom : Nat := 0
  elastic : List Word := []
  rxIndex : Nat := 0
  txIndex : Nat := 0
  carry : Nat := 0
  held : Nat := 0
  skip : Nat := 0
deriving DecidableEq, Repr

/-- One Ethernet port's runtime state (R272 to R284): received words not yet in a FIFO, the number of the next frame, the
index of the next word each way, words taken from the transmit FIFOs, the stamp of the frame on the line with whether its
remaining words are being dropped, the words of that frame that have gone out, the unread stamps, and whether the frame in front has counted as waiting for one. -/
structure RPortSt where
  rx : List Word := []
  rxSeq : Nat := 0
  rxIndex : Nat := 0
  txIndex : Nat := 0
  tx : List Word := []
  sending : Option (Nat × Bool) := none
  onLine : List Word := []
  stamps : List Nat := []
  heldOnce : Bool := false
deriving DecidableEq, Repr

/-- A frame or raw word put on a line: its words, how many bytes of them go out (R277), and whether it ended with an error termination. -/
structure LineOut where
  lane : Nat
  words : List Word
  bytes : Nat
  errored : Bool
deriving DecidableEq, Repr

/-- The Ray lanes. -/
structure RaySt where
  lanes : SMap LaneSt := ⟨[]⟩
  ports : SMap RPortSt := ⟨[]⟩
  line : List LineOut := []
  tampered : Bool := false
deriving DecidableEq, Repr

/-- A function's object access window (R301). `req` is the request in progress: write, index, subindex, data; `away` says that it is with a
server channel (R487). -/
structure MbSt where
  busy : Bool := false
  away : Bool := false
  done : Bool := false
  overlap : Bool := false
  abort : Nat := 0
  vector : Nat := 0xFFFF
  resp : List Byte := []
  buf : List Byte := []
  req : Option (Bool × Nat × Nat × List Byte) := none
deriving DecidableEq, Repr

/-- One DMA engine's register page (R308), the words of the descriptor in progress that have moved, whether one of them
carried POISON, the last of them that the host was written, and whether the engine has issued its request for that descriptor
(R305). -/
structure EngSt where
  base : Nat := 0
  log2 : Nat := 0
  run : Bool := false
  head : Nat := 0
  tail : Nat := 0
  state : Nat := 0
  err : Nat := 0
  moved : Nat := 0
  poison : Bool := false
  lastOut : Option Word := none
  asked : Bool := false
deriving DecidableEq, Repr

/-- What the host sets in a function's configuration space (R294): maximum payload and read request sizes as powers of two times
128 B, and the error status. The reset values and the bits of the error status are those of PCI Express
(notes/assumptions/193.md). -/
structure FnSt where
  maxPayload : Nat := 0
  maxReadRequest : Nat := 2
  errors : Nat := 0
deriving DecidableEq, Repr

/-- An outstanding non-posted request (R305, R306): the engine, when it was issued, whether it was abandoned. -/
structure TagSt where
  engine : Nat
  issued : Nat
  abandoned : Bool
deriving DecidableEq, Repr

/-- An access through a PF's BAR2 that waits (R261, R304): the PF, the window's account, its physical address, the octets written or none,
and the number of octets read. -/
structure BarReq where
  f : Nat
  acct : Nat
  addr : Nat
  write : Option (List Byte)
  len : Nat
deriving DecidableEq, Repr

/-- The Host Port. `cfgResp` is the answer to the last configuration request, 0 success and 1 Request Retry Status; `released`
the device time of the last PERST_N release; `resets` when each PF's reset was requested;
`ide` the PF that keyed each stream and whether the stream is secure; `tdiStream` the stream a TDI is bound to; `barSize` the
size of each BAR2 as a power of two times 2 MiB; `barReads` the answers to BAR2 reads, newest first, an Unsupported Request
as none; `cfgData` the data of the last configuration read; `fns` the configuration of each function, by function code; `tagWait` the
engines that wait for a tag, in request order (R305); `barWait` the accesses that port 32 has taken and not yet served, oldest first (R239, R261); `meter` the words of 16 bytes moved for each account (R340). -/
structure HostSt where
  boxes : SMap MbSt := ⟨[]⟩
  engines : SMap EngSt := ⟨[]⟩
  tags : SMap (Option TagSt) := ⟨[]⟩
  cfgResp : Nat := 0
  released : Option Nat := none
  resets : SMap (Option Nat) := ⟨[]⟩
  ide : SMap (Option (Nat × Bool)) := ⟨[]⟩
  sessions : SMap Bool := ⟨[]⟩
  tdiStream : SMap Nat := ⟨[]⟩
  barSize : SMap Nat := ⟨[]⟩
  barReads : List (Option (List Word)) := []
  barWait : List BarReq := []
  cfgData : Nat := 0
  fns : SMap FnSt := ⟨[]⟩
  tagWait : List Nat := []
  meter : SMap Nat := ⟨[]⟩
deriving DecidableEq, Repr

/-- One region's hop in progress (R338): old rail, target, cause; and the last request waiting (R339). -/
structure HopSt where
  running : Option (Nat × Nat × Nat) := none
  startedAt : Nat := 0
  waiting : Option (Nat × Nat) := none
deriving DecidableEq, Repr

/-- A planner item's private part (R358): earliest start, posting order, and what it works on. -/
structure ItemSt where
  earliest : Nat := 0
  order : Nat := 0
  ref : Nat := 0
deriving DecidableEq, Repr

/-- Charges (R340 to R347), in fJ, and what prices them. `clock` is the time that ticks have passed, ns, and `leakFrom` its value when
leakage was last priced; `temp` the last reading of a region's sensor in m°C; `ring` its reference-ring correction and `ringNext`
those that wait for the boundary. In the present window: `acc` an account's charge, `rail` its part on a rail (by 16 × rail + account),
`region` and `leak` a region's charge and the leakage in it. `last` is an account's charge in the window before, `total` an account's charge since power-on reset, `cal` what has been priced
on a rail since the last calibration, `carry` an account's carry. -/
structure MeterSt where
  clock : Nat := 0
  leakFrom : Nat := 0
  temp : SMap (Option Int) := ⟨[]⟩
  ring : SMap Nat := ⟨[]⟩
  ringNext : List (Nat × Nat) := []
  acc : SMap Nat := ⟨[]⟩
  rail : SMap Nat := ⟨[]⟩
  region : SMap Nat := ⟨[]⟩
  leak : SMap Nat := ⟨[]⟩
  last : SMap Nat := ⟨[]⟩
  total : SMap Nat := ⟨[]⟩
  cal : SMap Nat := ⟨[]⟩
  carry : SMap Int := ⟨[]⟩
deriving DecidableEq, Repr

/-- The Energy Ledger and the planner (R337 to R360): hops; the present window's start and the values that take effect at its
boundary; the limit in force; each account's effective CARRY_MAX in µJ and available energy in fJ; the accounts exhausted in this window;
collections of the present window (R347); planner items, how many have been posted and the next cost estimate of each kind; the second of the last event 0x030B;
windows closed and those closed at the last calibration; factors that wait for the boundary; when each rail was last trimmed;
the length of the last window; account actions that wait for the end of SPLIT_HOLD (R500);
regions that a thermal hop took down, dies whose thermal hop has been taken, and regions halted by a regulator fault; the meters; those of
a window that is over while its figures wait for the sensors (R346). -/
structure LedSt where
  hops : SMap HopSt := ⟨[]⟩
  windowStart : Nat := 0
  grid : Nat := 0
  nextWindow : Option Nat := none
  nextBudget : SMap (Option Nat) := ⟨[]⟩
  nextCarry : SMap (Option Nat) := ⟨[]⟩
  limit : Nat := 165000
  carryMax : SMap Nat := ⟨[]⟩
  available : SMap Int := ⟨[]⟩
  acted : List Nat := []
  items : SMap ItemSt := ⟨[]⟩
  posted : Nat := 0
  nextCost : SMap (Option Nat) := ⟨[]⟩
  overStart : Option Nat := none
  windows : Nat := 0
  calAt : Nat := 0
  calNext : List (Nat × Nat) := []
  trimAt : SMap (Option Nat) := ⟨[]⟩
  lastLen : Nat := 1000000
  waitActs : List (Nat × Nat) := []
  thermal : List Nat := []
  thermDies : List Nat := []
  faulted : List Nat := []
  m : MeterSt := {}
  closing : Option MeterSt := none
deriving DecidableEq, Repr

/-- A load in progress on a die (R400, R401). -/
structure LoadSt where
  cont : Option Container := none
  owner : Nat := 0
  targets : List Nat := []
  startedAt : Nat := 0
deriving DecidableEq, Repr

/-- One staging bank of a region (R399, R420): the settings that its frames 0 to 895 carry (R368), the blocks of its Pool image (R383), whether it
holds an essential-bit map (R413), and the free number at its staging, from which its CRC table is open. -/
structure StageBank where
  frames : List Setting := []
  pool : List Setting := []
  map : Bool := false
  staged : Nat := 0
deriving DecidableEq, Repr

/-- A saved region image (R422, R423): units, stations and buffers by key; the handshake wires between them; by port, the words
of the Locus item being presented and the state of the write port; the requests that its Annulus port owes answers to; and the number of
the image in the snapshot area (R421). -/
structure ImageSt where
  lus : List (Nat × LuSt)
  prisms : List (Nat × PrismSt)
  pools : List (Nat × PoolSt)
  acks : List (Nat × Bool)
  gAck : List (Nat × Bool)
  taken : List Nat
  arcTx : List (Nat × Option Word)
  arcRx : List (Nat × Option Word)
  bis : List (Nat × List Word)
  reads : List (Nat × List Word)
  ports : List (Nat × LPortSt)
  reqs : List MemReq
  place : Nat := 0
deriving DecidableEq, Repr

/-- One snapshot slot's contents and the operation running on it (R424, R426): its members, its start, the STATE before a
snapshot, whether the scrub policy began a rollback, whether power gating asked for the operation (R364), and the numbers of the images that a
running snapshot has reserved for its members. -/
structure SlotSt where
  images : List (Nat × ImageSt) := []
  members : List Nat := []
  startedAt : Nat := 0
  prior : Nat := 0
  policy : Bool := false
  gate : Bool := false
  reserved : List Nat := []
deriving DecidableEq, Repr

/-- An essential flip whose action waits (R405, R428): region, POLICY, the frame address, the bit, the last clean read in µs, and
byte 25 of its event. -/
structure FlipAct where
  region : Nat
  policy : Nat
  frame : Nat
  bit : Nat
  clean : Nat
  extra : Nat
deriving DecidableEq, Repr

/-- The configuration engines: loads; snapshot slots; `banks` the staging banks, by 2 × region + bank (R399); the committed values of the subindices that manifests carry, FUNC of the
pins among them (R380, R524); the image a load is fetched from; the manifest hash of the running full load and the measurement of each region (R453, R454); the counter, MIN_VERSION and acceptance time of the running full
load (R396) and the time of WAIT_DONE (R394); a reconfiguration that waits for a commit, with its cause (R398); policy actions
that wait (R405, R428); when each die's running scrub pass began and which
regions it has found wrong. -/
structure CfgSt where
  loads : SMap LoadSt := ⟨[]⟩
  slots : SMap SlotSt := ⟨[]⟩
  banks : SMap StageBank := ⟨[]⟩
  manifest : SMap Nat := ⟨[]⟩
  tried : Nat := 0xFF
  doneAt : Nat := 0
  counter : Nat := 0
  minVersion : Nat := 0
  fullHash : Nat := 0
  measures : SMap Nat := ⟨[]⟩
  acceptMs : Nat := 0
  accepting : Bool := false
  reconfig : Option Nat := none
  acts : List FlipAct := []
  scrubStart : List Nat := [0, 0]
  scrubDirty : List Nat := []
deriving DecidableEq, Repr

/-- Sebex (R433 to R468). `fused` and `pendingCtr` are the anti-rollback counters, the latter in the always-on domain, `retryAt` when a
pending value is due for a retry. `packageKey` says that a package key exists, `drbgRequests` and `reseededAt` count toward the DRBG's
next reseed. `wroteEc` and `wroteMl` list the owner slots of which that hash has been written whole (R565). `buffers` are the token
buffers by domain, `lastReject` the LAST_REJECT of DBG_STATUS (R461) and `fwDigest` the CODE_DIGEST of the running firmware (R453). -/
structure SecSt where
  packageKey : Bool := false
  fused : SMap Nat := ⟨[]⟩
  pendingCtr : SMap Nat := ⟨[]⟩
  retryAt : SMap Nat := ⟨[]⟩
  wroteEc : List Nat := []
  wroteMl : List Nat := []
  buffers : SMap (List Byte) := ⟨[]⟩
  lastReject : Nat := 0
  drbgRequests : Nat := 0
  reseededAt : Nat := 0
  drbgLive : Bool := false
  fwDigest : Nat := 0
deriving DecidableEq, Repr

/-- The last answer to an object request: abort code and octets (R482). -/
structure Resp where
  abort : Nat := 0
  data : List Byte := []
deriving DecidableEq, Repr

/-- Where the answer to an object request goes: to a function's window, on the chain to an address under a TAG with the segment asked for
(R492), to a die's client channel under a TAG, or to the state alone. -/
inductive Reply where
  | window (f : Nat)
  | chain (dest tag offset len : Nat)
  | channel (die tag : Nat)
  | direct
deriving DecidableEq, Repr

/-- A request for a user object (R487): its requester domain, whether it writes, and where its answer goes. -/
structure UserReq where
  dom : Nat
  write : Bool
  idx : Nat
  sub : Nat
  data : List Byte
  back : Reply
deriving DecidableEq, Repr

/-- Apex, the object dictionary's paths, Kimbe and the prime lease. `held` and `heldCfg` wait for KM_OUT, `sent` lists the frames put on
it, newest first. `cfgRemain` counts the containers of a stream behind the present one, `cfgFwd` says that the present one is forwarded
and `cfgTaking` that the device's own container is being received or staged (R390). `refusals` keeps the reasons of refused firmware
images until firmware runs (R475). `userReqs` holds each server channel's outstanding request with its TAG and issue time, `userWait`
those that wait for a channel (R487), and `ackLapsed` says that the prime has reported its missing acknowledgements (R499). -/
structure MgtSt where
  resp : Resp := {}
  epochs : List Nat := [0, 0]
  tieLow : Bool := true
  lastLease : Nat := 0
  lastAck : Nat := 0
  leaseSentAt : Nat := 0
  lapsedAt : Nat := 0
  ackLapsed : Bool := false
  released : List Nat := []
  served : List Nat := [0, 0]
  idleFrom : List Nat := [0, 0]
  held : Option KFrame := none
  heldCfg : Option KFrame := none
  lastCfg : Bool := false
  sent : List KFrame := []
  assembly : SMap (Option (Nat × Nat × List Byte)) := ⟨[]⟩
  assignAt : Option Nat := none
  follower : Bool := false
  userReqs : SMap (Option (UserReq × Nat × Nat)) := ⟨[]⟩
  userWait : List (Nat × UserReq) := []
  userTag : Nat := 0
  cfgRemain : Nat := 0
  cfgTaking : Bool := false
  cfgFwd : Bool := false
  refusals : List Nat := []
deriving DecidableEq, Repr

/-- One pin's pad hold latch (R517, R526): the level and direction it holds while HOLD is 1; and whether the pin has carried, since
configuration, a signal whose edges the model does not follow. -/
structure PadSt where
  level : Bool := false
  driven : Bool := false
  wave : Bool := false
deriving DecidableEq, Repr

/-- A serial peripheral's buffers (R519): octets that wait for the line, octets received, the number that the transfer in progress
is to receive, and when the octet on the line began. -/
structure SerialSt where
  tx : List Byte := []
  rx : List Byte := []
  wantRx : Nat := 0
  byteAt : Nat := 0
deriving DecidableEq, Repr

/-- A PWM unit's present period (R520): its start, PERIOD_NS and HIGH_NS in force; no period runs where PERIOD_NS is 0. -/
structure PwmSt where
  start : Nat := 0
  period : Nat := 0
  high : Nat := 0
deriving DecidableEq, Repr

/-- An interrupt line's coalesce window (R523), the level it has last sampled, and whether an event waits for Apex to wake. -/
structure LineSt where
  open_ : Bool := false
  from_ : Nat := 0
  edges : Nat := 0
  level : Bool := false
  due : Bool := false
deriving DecidableEq, Repr

/-- One bank's VCCIO watch (R505): since when it has been outside ±10% and within ±5%. -/
structure BankSt where
  outFrom : Option Nat := none
  inFrom : Option Nat := none
deriving DecidableEq, Repr

/-- The Perimeter. `enabled` says that startup step 3 has given the pins their functions (R392, R524); `jtag` that a JTAG
instruction has taken the pins from them (R462). `meter` is the energy of the output edges of each account's pins, fJ (R340). -/
structure PinSt where
  pads : SMap PadSt := ⟨[]⟩
  serial : SMap SerialSt := ⟨[]⟩
  pwm : SMap PwmSt := ⟨[]⟩
  lines : SMap LineSt := ⟨[]⟩
  banks : SMap BankSt := ⟨[]⟩
  enabled : Bool := false
  jtag : Bool := false
  meter : SMap Nat := ⟨[]⟩
  launched : List (Nat × Nat) := []
deriving DecidableEq, Repr

/-- One test slot's planner item (R535). -/
structure TestSt where
  item : Nat := 0
deriving DecidableEq, Repr

/-- The self-test controller. `stuck` lists units that could not be re-initialised (R538). -/
structure TstSt where
  slots : SMap TestSt := ⟨[]⟩
  stuck : List Nat := []
deriving DecidableEq, Repr

/-- The whole block. `pending` is the queue of waiting commands, first in, first out. -/
structure State where
  pending : List Instr
  od : SMap Nat
  out : OutSt
  dev : DevSt
  fab : FabSt
  cell : CellSt
  loc : LocSt
  mem : MemSt
  ray : RaySt
  host : HostSt
  led : LedSt
  cfg : CfgSt
  sec : SecSt
  mgt : MgtSt
  pin : PinSt
  tst : TstSt
deriving DecidableEq, Repr

/-- The machine at reset: power-on reset asserted, every object at its default (R481), GSR asserted (R67), nothing in any
queue and the always-on domain fresh (R554). -/
def State.reset : State :=
  { pending := [], od := ⟨[]⟩, out := {}, dev := {}, fab := {}, cell := {}, loc := {}, mem := {}, ray := {}, host := {},
    led := {}, cfg := {}, sec := {}, mgt := {}, pin := {}, tst := {} }

end Sys2Proof.Machine
end

