-- ==== Sys2Proof/Machine/Operands.lean ====
section
/-! DEFINITION. How a command's operands and the records of the block name things: numbers of regions and units, location
codes (R66), channel identifiers (R107), object indices of each record, and values as octets (R13, R478). -/

namespace Sys2Proof.Machine

/-- Region number 32 × die + region, which orders the region records (R78). -/
def rn (r : Region) : Nat := 32 * r.die.val + r.region.val

/-- Cluster number 64 × region number + cluster. -/
def cn (c : Clu) : Nat := (32 * c.die.val + c.region.val) * 64 + c.cluster.val

/-- Unit number 256 × cluster number + unit. -/
def un (u : LuLoc) : Nat := ((32 * u.die.val + u.region.val) * 64 + u.cluster.val) * 256 + u.unit.val

/-- Location code of a unit number (R66). -/
def locUnit (u : Nat) : Nat := u

/-- Location code of a cluster number (R66). -/
def locCluster (c : Nat) : Nat := 1 <<< 20 ||| c * 256

/-- Location code of a region number (R66). -/
def locRegion (n : Nat) : Nat := 2 <<< 20 ||| n * 16384

/-- Location code of a die (R66). -/
def locDie (d : Nat) : Nat := 3 <<< 20 ||| d <<< 19

/-- Channel identifier (R107) of kind 1 Arc, 2 Bisector, 3 site word, 4 site bit, named from region number `n`. -/
def chanId (kind n side dir index : Nat) : Nat :=
  kind <<< 28 ||| n <<< 14 ||| side <<< 12 ||| dir <<< 11 ||| index

/-- The region number in a channel identifier. -/
def chanRegion (c : Nat) : Nat := (c >>> 14) % 64

/-- The octets of a value, lowest first (R13). -/
def octets : Nat → Nat → List Byte
  | 0, _ => []
  | k + 1, v => BitVec.ofNat 8 v :: octets k (v / 256)

/-- The value of octets, lowest first (R13). -/
def ofOctets : List Byte → Nat
  | [] => 0
  | b :: l => b.toNat + 256 * ofOctets l

/-- A two's complement value of `b` bits read as an integer (R478). -/
def toSigned (b v : Nat) : Int := if v < 2 ^ (b - 1) then (v : Int) else (v : Int) - (2 ^ b : Nat)

/-- An integer as a two's complement value of `b` bits (R478). -/
def ofSigned (b : Nat) (i : Int) : Nat := (i % ((2 ^ b : Nat) : Int)).toNat

/-- Bit `i` of a mask set. -/
def setBit (m i : Nat) : Nat := m ||| 1 <<< i

/-- Bit `i` of a mask cleared. -/
def clrBit (m i : Nat) : Nat := if m.testBit i then m ^^^ 1 <<< i else m

/-- The bits of a mask, lowest first, below `k`. -/
def maskBits (k m : Nat) : List Nat := (List.range k).filter (fun i => m.testBit i)

/-- A field of `w` bits at bit `p` of a number. -/
def fieldAt (v p w : Nat) : Nat := (v >>> p) % 2 ^ w

/-- Payload of an event: `(byte, length, value)` for each field, byte 20 lowest (R316). -/
def payload : List (Nat × Nat × Nat) → Nat
  | [] => 0
  | (b, n, v) :: l => (v % 256 ^ n) <<< (8 * (b - 20)) ||| payload l

/-- Object index of a region record (R78). -/
def regObj (n : Nat) : Nat := 0xC100 + n
/-- Object index of an Arc record (R110). -/
def arcObj (n : Nat) : Nat := 0xC140 + n
/-- Object index of a word-unit record (R143). -/
def unitObj (n : Nat) : Nat := 0xC300 + n
/-- Object index of a determinism record (R169). -/
def detObj (n : Nat) : Nat := 0xC400 + n
/-- Object index of a loop record (R203). -/
def loopObj (l : Loop) : Nat := 0xA010 + 16 * l.die.val + l.n.val
/-- Object index of a Locus queue record: die `d`, queue `q` (R226). -/
def queueObj (d q : Nat) : Nat := 0xB100 + 512 * d + q
/-- Object index of a Locus port record (R226). -/
def lportObj (d p : Nat) : Nat := 0xB800 + 128 * d + p
/-- Object index of an Annulus port record (R263). -/
def mportObj (d p : Nat) : Nat := 0x4100 + 64 * d + p
/-- Object index of a window record (R263). -/
def winObj (w : Nat) : Nat := 0x4200 + w
/-- Object index of a pseudo-channel record (R263). -/
def pcObj (d c : Nat) : Nat := 0x4300 + 32 * d + c
/-- Object index of an account record (R365). -/
def accObj (a : Nat) : Nat := 0x3010 + a
/-- Object index of a region's energy record (R365). -/
def enObj (n : Nat) : Nat := 0x3100 + n
/-- Object index of a region's configuration record (R406). -/
def cfgObj (n : Nat) : Nat := 0x2100 + n
/-- Object index of a region's integrity record (R431). -/
def intObj (n : Nat) : Nat := 0x2900 + n
/-- Object index of a snapshot slot record (R431). -/
def slotObj (k : Nat) : Nat := 0x2A00 + k
/-- Object index of a pin record (R529). -/
def pinObj (p : Nat) : Nat := 0x6010 + p
/-- Object index of a self-test slot record (R542). -/
def testObj (k : Nat) : Nat := 0x7010 + k
/-- Object index of a DMA engine record (R331). -/
def engObj (e : Nat) : Nat := 0x5100 + e
/-- Object index of an event ring record (R331). -/
def ringObj (r : Nat) : Nat := 0x5200 + r

/-- The die of a region number. -/
def dieOf (n : Nat) : Nat := n / 32

/-- Domain of a function code (R297): MGT for PF0, tenant n for PF(n + 1) and its VFs. -/
def funcDomain (code : Nat) : Nat := if code / 256 = 0 then 1 else 7 + code / 256

/-- Function code of a function (R297). -/
def funcCode (f : Func) : Nat := 256 * f.f.val + f.v.val

/-- Account of an owner domain (R348): MGT 0, T0 to T7 1 to 8, else SHARED. -/
def accountOf (owner : Nat) : Nat := if owner = 1 then 0 else if 8 ≤ owner ∧ owner ≤ 15 then owner - 7 else 9

/-- Owner domain of an account (R348); SHARED has none and belongs to MGT. -/
def accountOwner (a : Nat) : Nat := if 1 ≤ a ∧ a ≤ 8 then a + 7 else 1

/-- Every region number. -/
def allRegions : List Nat := List.range 64

end Sys2Proof.Machine
end

