-- ==== Sys2Proof/Machine/Lanes.lean ====
section
/-! DEFINITION. Arithmetic of the Prism (R119, R124 to R127): lanes, shifts, products, the accumulator. Word values are
numbers below 2^128, exact results integers, narrowed at the end. -/

namespace Sys2Proof.Machine

/-- Lane width of a WIDTH code (R119). -/
def laneWidth (wc : Nat) : Nat := if wc = 0 then 128 else if wc = 1 then 32 else if wc = 2 then 16 else 8

/-- The lanes of a word, lane 0 first (R124). -/
def lanes (w v : Nat) : List Nat := (List.range (128 / w)).map (fun k => fieldAt v (w * k) w)

/-- The word of lanes, lane 0 first; each is taken modulo 2^w. -/
def joinLanes (w : Nat) : List Nat → Nat
  | [] => 0
  | x :: l => x % 2 ^ w ||| joinLanes w l <<< w

/-- A lane as an integer, by SIGN. -/
def laneInt (sign : Bool) (w v : Nat) : Int := if sign then toSigned w v else (v : Int)

/-- Lowest and highest value of `w` bits, by SIGN. -/
def laneMin (sign : Bool) (w : Nat) : Int := if sign then -((2 ^ (w - 1) : Nat) : Int) else 0
/-- Highest value of `w` bits, by SIGN. -/
def laneMax (sign : Bool) (w : Nat) : Int := if sign then ((2 ^ (w - 1) : Nat) : Int) - 1 else ((2 ^ w : Nat) : Int) - 1

/-- The value lies outside the range of `w` bits. -/
def outside (sign : Bool) (w : Nat) (i : Int) : Bool := decide (i < laneMin sign w) || decide (laneMax sign w < i)

/-- Narrow an exact value to `w` bits: clamped with SAT, else truncated (R125, R127). -/
def narrow (sat sign : Bool) (w : Nat) (i : Int) : Nat :=
  ofSigned w (if sat then (if i < laneMin sign w then laneMin sign w else if laneMax sign w < i then laneMax sign w else i) else i)

/-- A right shift of an exact value by `k`, rounding half up with RND (R127). -/
def shiftRound (rnd : Bool) (k : Nat) (i : Int) : Int :=
  (if rnd && decide (1 ≤ k) then i + ((2 ^ (k - 1) : Nat) : Int) else i) / ((2 ^ k : Nat) : Int)

/-- What an operation computes: its results, whether a value was clamped, the carry, a signed overflow, the new M and the
new ACC. -/
structure PRes where
  result : Nat
  second : Option Nat := none
  clamped : Bool := false
  carry : Bool := false
  ovf : Bool := false
  mask : Option Nat := none
  acc : Option Nat := none
deriving DecidableEq, Repr

/-- Lanes of two words combined. -/
def lanes2 (w a b : Nat) (f : Nat → Nat → Nat) : Nat := joinLanes w (List.zipWith f (lanes w a) (lanes w b))
/-- Lanes of one word mapped. -/
def lanes1 (w a : Nat) (f : Nat → Nat) : Nat := joinLanes w ((lanes w a).map f)

/-- Lanes of exact sums or differences narrowed; C is the carry or borrow of the top lane, V a signed overflow (R125, R128). -/
def addSub (sub sat sign : Bool) (w a b : Nat) : PRes :=
  let f (g : Bool) (x y : Nat) : Int := if sub then laneInt g w x - laneInt g w y else laneInt g w x + laneInt g w y
  let ex := List.zipWith (f sign) (lanes w a) (lanes w b)
  let un := List.zipWith (f false) (lanes w a) (lanes w b)
  let sg := List.zipWith (f true) (lanes w a) (lanes w b)
  { result := joinLanes w (ex.map (narrow sat sign w)),
    clamped := sat && ex.any (outside sign w),
    carry := match un.getLast? with | some i => outside false w i | none => false,
    ovf := sg.any (outside true w) }

/-- Rotate a lane left. -/
def rotl (w k v : Nat) : Nat := (v <<< (k % w) ||| v >>> (w - k % w)) % 2 ^ w

/-- The comparison that a condition code names (R125). -/
def cmpHolds (cond : Nat) (x y : Int) : Bool :=
  match cond with
  | 0 => decide (x = y)
  | 1 => decide (x ≠ y)
  | 2 => decide (x < y)
  | 3 => decide (x ≤ y)
  | 4 => decide (y < x)
  | _ => decide (y ≤ x)

/-- One byte mask bit for each byte of a word whose lowest bit is set. -/
def byteMask (v : Nat) : Nat := (List.range 16).foldl (fun m i => if v.testBit (8 * i) then setBit m i else m) 0

/-- Carry-less product of two numbers of 64 bits. -/
def clmul (a b : Nat) : Nat := (List.range 64).foldl (fun r i => if b.testBit i then r ^^^ a <<< i else r) 0

/-- Number of ones among the low `w` bits. -/
def popcnt (w v : Nat) : Nat := ((List.range w).filter (fun i => v.testBit i)).length

/-- Products of lanes, exact, by SIGN. -/
def products (sign : Bool) (w a b : Nat) : List Int :=
  List.zipWith (fun x y => laneInt sign w x * laneInt sign w y) (lanes w a) (lanes w b)

/-- Complex products of lanes, exact: real then imaginary part; `conj` takes the conjugate of B (R124, R125). -/
def cproducts (sign conj : Bool) (w a b : Nat) : List (Int × Int) :=
  List.zipWith (fun x y =>
    let ar := laneInt sign w (x % 2 ^ w)
    let ai := laneInt sign w (x >>> w)
    let br := laneInt sign w (y % 2 ^ w)
    let bi := if conj then -(laneInt sign w (y >>> w)) else laneInt sign w (y >>> w)
    (ar * br - ai * bi, ar * bi + ai * br)) (lanes (2 * w) a) (lanes (2 * w) b)

/-- Sum of integers. -/
def isum : List Int → Int
  | [] => 0
  | x :: l => x + isum l

/-- An ACC value of `b` bits under the ACC field: 01 clear, then add; 10 add; 11 subtract (R119). -/
def accApply (b field acc : Nat) (x : Int) : Int :=
  if field = 1 then x else if field = 2 then toSigned b acc + x else toSigned b acc - x

/-- The result of an operation with code `op` (R125). `m` is the lane mask and `acc` the accumulator before it. RND rounds the right shifts for which
R125 names it, not SHR, SRA and SHRV (DESIGN CHOICE, notes/assumptions/168.md). V follows notes/assumptions/40.md. -/
def prismOp (op wc : Nat) (sat sign rnd conj : Bool) (accField immA immB a b m acc : Nat) : PRes :=
  let w := laneWidth wc
  let all := 2 ^ 128 - 1
  let k := immA % w
  match op with
  | 0x00 => { result := a }
  | 0x01 => addSub false sat sign w a b
  | 0x02 => addSub true sat sign w a b
  | 0x03 => { result := a &&& b }
  | 0x04 => { result := a ||| b }
  | 0x05 => { result := a ^^^ b }
  | 0x06 => { result := a &&& (all - b) }
  | 0x07 => { result := all - a }
  | 0x08 => { result := lanes1 w a (fun x => x <<< k) }
  | 0x09 => { result := lanes1 w a (fun x => x >>> k) }
  | 0x0A => { result := lanes1 w a (fun x => ofSigned w (toSigned w x / ((2 ^ k : Nat) : Int))) }
  | 0x0B => { result := lanes1 w a (rotl w k) }
  | 0x0C => { result := ((a <<< 128 ||| b) <<< (immA % 128) >>> 128) % 2 ^ 128 }
  | 0x0D => { result := lanes2 w a b (fun x y => x <<< (y % w)) }
  | 0x0E => { result := lanes2 w a b (fun x y => x >>> (y % w)) }
  | 0x10 =>
    let r := lanes2 w a b (fun x y => if cmpHolds (immA % 8) (laneInt sign w x) (laneInt sign w y) then 2 ^ w - 1 else 0)
    { result := r, mask := some (byteMask r) }
  | 0x11 => { result := joinLanes 8 ((List.range 16).map (fun i => if m.testBit i then fieldAt a (8 * i) 8 else fieldAt b (8 * i) 8)) }
  | 0x12 => { result := lanes2 w a b (fun x y => if laneInt sign w y < laneInt sign w x then y else x) }
  | 0x13 => { result := lanes2 w a b (fun x y => if laneInt sign w x < laneInt sign w y then y else x) }
  | 0x18 =>
    let ex := (products sign w a b).map (shiftRound rnd (immA % 64))
    { result := joinLanes w (ex.map (narrow sat sign w)), clamped := sat && ex.any (outside sign w), ovf := ex.any (outside true w) }
  | 0x19 =>
    let ps := products sign w a b
    let ex := ps.map (ofSigned (2 * w))
    let h := 64 / w
    { result := joinLanes (2 * w) (ex.take h), second := some (joinLanes (2 * w) (ex.drop h)), ovf := (ps.take h).any (outside true (2 * w)) }
  | 0x1A =>
    let x := accApply 192 accField acc (isum (products sign w a b))
    { result := ofSigned 192 x % 2 ^ 128, acc := some (ofSigned 192 x), carry := outside true 192 x, ovf := outside true 192 x }
  | 0x1C =>
    let ex := (cproducts sign conj w a b).flatMap (fun p => [shiftRound rnd (immA % 64) p.1, shiftRound rnd (immA % 64) p.2])
    { result := joinLanes w (ex.map (narrow sat sign w)), clamped := sat && ex.any (outside sign w), ovf := ex.any (outside true w) }
  | 0x1D =>
    let ps := cproducts sign conj w a b
    let re := accApply 96 accField (acc % 2 ^ 96) (isum (ps.map (fun p => p.1)))
    let im := accApply 96 accField (acc >>> 96) (isum (ps.map (fun p => p.2)))
    let v := ofSigned 96 re ||| ofSigned 96 im <<< 96
    { result := v % 2 ^ 128, acc := some v, carry := outside true 96 re || outside true 96 im,
      ovf := outside true 96 re || outside true 96 im }
  | 0x20 => { result := clmul (fieldAt a (64 * (immA % 2)) 64) (fieldAt b (64 * (immA / 2 % 2)) 64) }
  | 0x24 => { result := lanes1 w a (popcnt w) }
  | 0x25 =>
    { result := joinLanes 8 ((List.range 16).map (fun i =>
        let s := fieldAt b (8 * i) 8
        if s.testBit 7 then 0 else fieldAt a (8 * (s % 16)) 8)) }
  | 0x26 =>
    let n := immB % 128 + 1
    let v := fieldAt a (immA % 128) n
    { result := if sign then ofSigned 128 (toSigned n v) else v }
  | 0x27 =>
    let p := immA % 128
    let n := immB % 128 + 1
    let mask := ((2 ^ n - 1) <<< p) % 2 ^ 128
    { result := (a &&& (all - mask)) ||| ((b % 2 ^ n) <<< p) % 2 ^ 128 }
  | 0x28 =>
    let x := shiftRound rnd (immA % 128) (toSigned 192 acc)
    { result := narrow sat true 128 x, clamped := sat && outside true 128 x }
  | 0x29 =>
    let re := shiftRound rnd (immA % 64) (toSigned 96 (acc % 2 ^ 96))
    let im := shiftRound rnd (immA % 64) (toSigned 96 (acc >>> 96))
    { result := narrow sat true w re ||| narrow sat true w im <<< w, clamped := sat && (outside true w re || outside true w im) }
  | _ => { result := 0 }

/-- Operands that an operation reads (R125): A and B. ACCRD and ACCRDC read neither. -/
def readsA (op : Nat) : Bool := decide (op ≠ 0x28) && decide (op ≠ 0x29)
/-- The operation reads operand B. -/
def readsB (op : Nat) : Bool :=
  !([0x00, 0x07, 0x08, 0x09, 0x0A, 0x0B, 0x24, 0x26, 0x28, 0x29] : List Nat).contains op

/-- Listed operation codes (R125). -/
def opListed (op : Nat) : Bool :=
  ([0x00, 0x01, 0x02, 0x03, 0x04, 0x05, 0x06, 0x07, 0x08, 0x09, 0x0A, 0x0B, 0x0C, 0x0D, 0x0E, 0x10, 0x11, 0x12, 0x13, 0x18, 0x19,
    0x1A, 0x1C, 0x1D, 0x20, 0x24, 0x25, 0x26, 0x27, 0x28, 0x29] : List Nat).contains op

/-- WIDTH is allowed for an operation (R125). -/
def widthAllowed (op wc : Nat) : Bool :=
  if op = 0x0C then decide (wc = 0)
  else if ([0x18, 0x19, 0x1A, 0x1C, 0x1D, 0x29] : List Nat).contains op then decide (wc = 1) || decide (wc = 2)
  else true

end Sys2Proof.Machine
end

