-- ==== Sys2Proof/Machine/Ops.lean ====
section
/-! DEFINITION. The named operations every meaning uses: the object register file (R477 to R481), device time (R36, R199),
free values, owner domains (R21, R480), and raising an event (R316 to R321, R494). -/

namespace Sys2Proof.Machine

/-- What a meaning answers. -/
abbrev Result := Host.Outcome State Fault Refusal

/-- An object's value. -/
def State.rd (s : State) (idx sub : Nat) : Nat := s.od.get odDefault (oa idx sub)

/-- Set an object's value. -/
def State.wr (s : State) (idx sub v : Nat) : State := { s with od := s.od.put odDefault (oa idx sub) v }

/-- Set several subindices of one record. -/
def State.wrs (s : State) (idx : Nat) : List (Nat × Nat) → State
  | [] => s
  | (sub, v) :: l => (s.wr idx sub v).wrs idx l

/-- Add to a counter of `b` bytes that saturates. -/
def State.bump (s : State) (idx sub b n : Nat) : State := s.wr idx sub (min (s.rd idx sub + n) (256 ^ b - 1))

/-- Add to a 64-bit total. -/
def State.tally (s : State) (idx sub n : Nat) : State := s.wr idx sub ((s.rd idx sub + n) % 2 ^ 64)

/-- Device time, ns (object 0xA200.01). -/
def State.now (s : State) : Nat := s.rd 0xA200 1

/-- The next free value of `2 ^ bits`. -/
def State.freeVal (s : State) (bits : Nat) : Nat := Config.free s.dev.freeCtr % 2 ^ bits

/-- Advance the counter of free values. -/
def State.freeNext (s : State) : State := { s with dev := { s.dev with freeCtr := s.dev.freeCtr + 1 } }

/-- Owner domain of a region (R21). -/
def State.regOwner (s : State) (n : Nat) : Nat := s.rd (regObj n) 1

/-- Owner of an Annulus port, 64 × die + its number (R263): of its region, or MGT for ports 32 to 35. -/
def State.portOwner (s : State) (k : Nat) : Nat := if k % 64 < 32 then s.regOwner (32 * (k / 64) + k % 64) else 1

/-- A holder code as an owner: MGT where nobody holds. -/
def heldOwner (h none_ : Nat) : Nat := if h = none_ then 1 else h

/-- Domain of a function code that may be the code of no function. -/
def heldFunc (h : Nat) : Nat := if h = 0xFFFF then 1 else funcDomain h

/-- Owner domain of the resource that a record describes; MGT where it describes none (R480, R318). -/
def State.ownerOfIdx (s : State) (idx : Nat) : Nat :=
  if 0xC100 ≤ idx ∧ idx < 0xC180 then s.regOwner (idx % 64)
  else if 0xC300 ≤ idx ∧ idx < 0xC340 then s.regOwner (idx % 64)
  else if 0xC400 ≤ idx ∧ idx < 0xC440 then s.regOwner (idx % 64)
  else if 0x2100 ≤ idx ∧ idx < 0x2140 then s.regOwner (idx % 64)
  else if 0x2900 ≤ idx ∧ idx < 0x2940 then s.regOwner (idx % 64)
  else if 0x3100 ≤ idx ∧ idx < 0x3140 then s.regOwner (idx % 64)
  else if 0x3010 ≤ idx ∧ idx < 0x301A then accountOwner (idx - 0x3010)
  else if 0xA010 ≤ idx ∧ idx < 0xA029 then heldOwner (s.rd idx 3) 0xFF
  else if 0xA040 ≤ idx ∧ idx < 0xA048 then s.rd idx 1
  else if 0xA100 ≤ idx ∧ idx < 0xA180 then s.rd idx 2
  else if 0xB100 ≤ idx ∧ idx < 0xB500 then s.rd idx 1
  else if 0xB800 ≤ idx ∧ idx < 0xB900 then s.regOwner ((idx - 0xB800) / 4)
  else if 0x4100 ≤ idx ∧ idx < 0x4164 then s.portOwner (idx - 0x4100)
  else if 0x4200 ≤ idx ∧ idx < 0x4240 then heldOwner (s.rd idx 1) 0xFF
  else if 0x5010 ≤ idx ∧ idx < 0x5019 then s.rd idx 1
  else if 0x5100 ≤ idx ∧ idx < 0x5300 then heldFunc (s.rd idx 2)
  else if 0x5300 ≤ idx ∧ idx < 0x5340 then s.regOwner (idx % 32)
  else if 0x5400 ≤ idx ∧ idx < 0x5500 then 8 + (idx - 0x5400) / 32
  else if 0x5810 ≤ idx ∧ idx < 0x5820 then s.rd idx 1
  else if 0x5840 ≤ idx ∧ idx < 0x5850 then s.rd (0x5810 + idx % 16) 1
  else if 0x5880 ≤ idx ∧ idx < 0x5890 then s.rd (0x5810 + idx % 16) 1
  else if 0x58C0 ≤ idx ∧ idx < 0x58C2 then heldOwner (s.rd idx 1) 0xFF
  else if 0x6010 ≤ idx ∧ idx < 0x6038 then s.rd idx 1
  else if 0x6100 ≤ idx ∧ idx < 0x613A then heldOwner (s.rd idx 2) 0xFF
  else if 0x7010 ≤ idx ∧ idx < 0x7020 then heldOwner (s.rd idx 2) 0xFF
  else if 0x2A00 ≤ idx ∧ idx < 0x2A40 then heldOwner (s.rd idx 2) 0xFF
  else if 0x8030 ≤ idx ∧ idx < 0x8050 then idx % 16
  else if 0x8100 ≤ idx ∧ idx < 0x8108 then 8 + idx % 16
  else if 0x9000 ≤ idx ∧ idx < 0xA000 then
    (let d := s.rd 0x1040 (1 + (idx - 0x9000) / 256)
     if d = 0 then s.regOwner 1 else if d = 1 then s.regOwner 33 else 1)
  else 1

/-- Owner domain of an event (R318). -/
def State.eventOwner (s : State) (cls idx : Nat) : Nat :=
  if cls = 1 then (if fieldAt idx 20 2 = 3 then 1 else s.regOwner (fieldAt idx 14 6))
  else if cls = 2 then s.regOwner (chanRegion idx)
  else if cls = 3 then s.ownerOfIdx idx
  else if cls = 5 then funcDomain idx
  else 1

/-- A FILTER passes an event: its subsystem's bit is set and its severity is at least MIN_SEV (R319). -/
def filterPass (filter : Nat) (e : EventRec) : Bool :=
  filter.testBit (e.code / 256) && decide (fieldAt filter 16 2 ≤ e.sev)

/-- The 32 octets of a record (R316). -/
def recordOctets (e : EventRec) (lost phase : Bool) : List Byte :=
  octets 32 (e.code ||| e.cls <<< 16 ||| (e.sev <<< 2 ||| lost.toNat <<< 1 ||| phase.toNat) <<< 24 ||| e.idx <<< 32
    ||| e.time <<< 64 ||| e.seq <<< 128 ||| e.payload <<< 160)

/-- Octets stored in host memory. -/
def hostPut (m : SMap Byte) (a : Nat) : List Byte → SMap Byte
  | [] => m
  | b :: l => hostPut (m.put (fun _ => 0) a b) (a + 1) l

/-- An event ring's page. -/
def OutSt.ring (o : OutSt) (r : Nat) : RingSt := o.rings.get (fun _ => {}) r

/-- Set an event ring's page. -/
def OutSt.setRing (o : OutSt) (r : Nat) (x : RingSt) : OutSt := { o with rings := o.rings.put (fun _ => {}) r x }

/-- Records the ring holds: 2^LOG2 (R319). -/
def RingSt.size (x : RingSt) : Nat := 2 ^ (x.cfg % 32)

/-- EN of a ring (R319). -/
def RingSt.en (x : RingSt) : Bool := x.cfg.testBit 31

/-- The moderation window of a ring is over (R321): it opened with its first unsignalled record and lasts TIME µs. -/
def RingSt.windowOver (x : RingSt) (now : Nat) : Bool :=
  decide (0 < x.unsignalled) && decide (0 < x.moderation / 65536) && decide (x.opened + 1000 * (x.moderation / 65536) ≤ now)

/-- A vector of a function is masked: bit 96 of its table entry, vector control bit 0 of PCI Express
(notes/assumptions/193.md). -/
def OutSt.masked (o : OutSt) (func v : Nat) : Bool := (o.msixTab.get (fun _ => 0) (2048 * func + v)).testBit 96

/-- A function sends an MSI-X vector (R299): a masked one sets its pending bit. -/
def OutSt.interrupt (o : OutSt) (func v : Nat) : OutSt :=
  if o.masked func v then { o with pba := o.pba.put (fun _ => false) (2048 * func + v) true } else { o with msix := (func, v) :: o.msix }

/-- An entry of a function's MSI-X table is written (R299): a pending vector that it unmasks is sent. -/
def OutSt.msixWrite (o : OutSt) (func v x : Nat) : OutSt :=
  let k := 2048 * func + v
  let t := { o with msixTab := o.msixTab.put (fun _ => 0) k x }
  if o.pba.get (fun _ => false) k && !x.testBit 96 then
    { t with pba := t.pba.put (fun _ => false) k false, msix := (func, v) :: t.msix }
  else t

/-- The MSI-X table and pending bits of a function are reset (R322 to R325). -/
def OutSt.msixReset (o : OutSt) (func : Nat) : OutSt :=
  { o with msixTab := ⟨o.msixTab.cells.filter (fun c => decide (c.1 / 2048 ≠ func))⟩,
           pba := ⟨o.pba.cells.filter (fun c => decide (c.1 / 2048 ≠ func))⟩ }

/-- Send a ring's VECTOR to the function that uses it and start afresh (R321). -/
def OutSt.signal (o : OutSt) (r func : Nat) : OutSt :=
  let x := o.ring r
  (o.setRing r { x with unsignalled := 0 }).interrupt func (fieldAt x.cfg 16 11)

/-- Write one record into a ring (R320, R321); the answer says whether a drop began that event 0x0506 reports. -/
def OutSt.ringWrite (o : OutSt) (r func now link : Nat) (e : EventRec) : OutSt × Bool :=
  let x0 := o.ring r
  let o := if x0.windowOver now then o.signal r func else o
  let x := o.ring r
  if x.used < x.size then
    let phase := decide (x.written / x.size % 2 = 0)
    let mem := hostPut o.hostMem (x.base + 32 * x.tail) (recordOctets e x.dropping phase)
    let y := { x with
      tail := (x.tail + 1) % x.size, written := x.written + 1, used := x.used + 1, dropping := false,
      records := (x.records + 1) % 2 ^ 64, unsignalled := x.unsignalled + 1,
      opened := if x.unsignalled = 0 then now else x.opened }
    let o := { (o.setRing r y) with hostMem := mem, clkreq := o.clkreq || decide (link = 6), wakeN := o.wakeN || decide (link = 7) }
    (if max 1 (x.moderation % 65536) ≤ y.unsignalled then o.signal r func else o, false)
  else
    (o.setRing r { x with lost := min (x.lost + 1) (2 ^ 32 - 1), lostClaim := min (x.lostClaim + 1) (2 ^ 32 - 1), dropping := true },
      !x.dropping)

/-- Put a record into the queue of EVENT frames, or count it dropped (R494). -/
def OutSt.kimbeEvent (o : OutSt) (e : EventRec) : OutSt :=
  if o.kimbeEvents.length < 64 then { o with kimbeEvents := o.kimbeEvents ++ [(e, o.kimbeMark)], kimbeMark := false }
  else { o with kimbeLost := min (o.kimbeLost + 1) (2 ^ 32 - 1), kimbeMark := true }

/-- Function code that uses an event ring: its assignee, else its holder. -/
def State.ringFunc (s : State) (r : Nat) : Nat :=
  if s.rd (ringObj r) 3 = 0xFFFF then s.rd (ringObj r) 2 else s.rd (ringObj r) 3

/-- A ring takes an event (R318): it is enabled and held, its FILTER passes it, and its holder is PF0 or of its domain. -/
def State.ringTakes (s : State) (o : OutSt) (r owner : Nat) (e : EventRec) : Bool :=
  let h := s.rd (ringObj r) 2
  (o.ring r).en && filterPass (o.ring r).filter e && decide (h ≠ 0xFFFF) && (decide (h = 0) || decide (funcDomain h = owner))

/-- The record of an event under the next SEQUENCE, which then advances (R316, R317). -/
def State.mkEvent (s : State) (o : OutSt) (code cls sev idx pay : Nat) : EventRec × OutSt :=
  let e : EventRec := { code := code, cls := cls, sev := sev, idx := idx, time := s.now, seq := o.seq, payload := pay }
  (e, { o with seq := (o.seq + 1) % 2 ^ 32, log := e :: o.log })

/-- Offer a record to a list of rings; the answer lists the rings whose drops began. -/
def State.toRings (s : State) (owner : Nat) (e : EventRec) : List Nat → OutSt → OutSt × List Nat
  | [], o => (o, [])
  | r :: l, o =>
    if s.ringTakes o r owner e then
      let (o1, began) := o.ringWrite r (s.ringFunc r) s.now (s.rd 0x5000 1) e
      let (o2, rs) := s.toRings owner e l o1
      (o2, if began then r :: rs else rs)
    else s.toRings owner e l o

/-- The Kimbe queue takes an event (R502): fatal events, 0x0A04 and 0x0902 always pass EVENT_FILTER. -/
def State.kimbeTakes (s : State) (e : EventRec) : Bool :=
  decide (e.sev = 3) || decide (e.code = 0x0A04) || decide (e.code = 0x0902) || filterPass (s.rd 0x1010 8) e

/-- Event 0x0506 for each ring whose drops began, and for the rings that drop those (R320). -/
def State.overflows (s : State) : Nat → List Nat → OutSt → OutSt
  | 0, _, o => o
  | _, [], o => o
  | fuel + 1, r :: l, o =>
    let (e, o1) := s.mkEvent o 0x0506 3 1 (ringObj r) (payload [(24, 4, (o.ring r).lost)])
    let (o2, more) := s.toRings (s.ownerOfIdx (ringObj r)) e (o1.rings.keysWhere (fun _ _ => true)) o1
    let o3 := if s.kimbeTakes e then o2.kimbeEvent e else o2
    s.overflows fuel (l ++ more) o3

/-- Raise an event (R316 to R321, R494): sequence it, write it to every ring that takes it and queue it for the chain. -/
def State.raise (s : State) (code cls sev idx : Nat) (pay : List (Nat × Nat × Nat)) : State :=
  let (e, o1) := s.mkEvent s.out code cls sev idx (payload pay)
  let (o2, began) := s.toRings (s.eventOwner cls idx) e (o1.rings.keysWhere (fun _ _ => true)) o1
  let o3 := if s.kimbeTakes e then o2.kimbeEvent e else o2
  { s with out := s.overflows (began.length + o3.rings.cells.length + 1) began o3 }

/-- Raise event 0x0501 into one ring alone, whatever its FILTER holds (R318). -/
def State.raiseDone (s : State) (ring idx : Nat) (pay : List (Nat × Nat × Nat)) : State :=
  let (e, o1) := s.mkEvent s.out 0x0501 3 0 idx (payload pay)
  if (o1.ring ring).en && decide (s.rd (ringObj ring) 2 ≠ 0xFFFF) then
    let (o2, began) := o1.ringWrite ring (s.ringFunc ring) s.now (s.rd 0x5000 1) e
    { s with out := s.overflows (o2.rings.cells.length + 2) (if began then [ring] else []) o2 }
  else { s with out := o1 }

/-- Raise one event for each entry of a list. -/
def State.raiseAll (s : State) (f : Nat → Nat × Nat × Nat × Nat × List (Nat × Nat × Nat)) : List Nat → State
  | [] => s
  | n :: l =>
    match f n with
    | (code, cls, sev, idx, pay) => (s.raise code cls sev idx pay).raiseAll f l

/-- Payload of a windowed event: its first cause at byte 20 where the event has one, and the count of its window. -/
def winPayload (code : Nat) (w : WinSt) : List (Nat × Nat × Nat) :=
  [(20, 1, w.first), (24, if code = 0x0605 then 8 else 4, w.count)]

/-- Report a window's event and close the window. -/
def State.winClose (s : State) (key : Nat) (w : WinSt) : State :=
  ({ s with out := { s.out with wins := s.out.wins.put (fun _ => none) key none } } : State).raise (key / 2 ^ 32) w.cls w.sev w.idx
    (winPayload (key / 2 ^ 32) w)

/-- Close every window that lies before the present second. -/
def State.winTick (s : State) : List (Nat × Option WinSt) → State
  | [] => s
  | (k, some w) :: l => (if w.window = s.now / 10 ^ 9 then s else s.winClose k w).winTick l
  | (_, none) :: l => s.winTick l

/-- Count `n` occurrences of an event that is reported once in each window of 1 s, when the window ends (R36, R293). -/
def State.windowed (s : State) (code cls sev idx n first : Nat) : State :=
  let key := code * 2 ^ 32 + idx
  let s1 := s.winTick s.out.wins.cells
  let w := match s1.out.wins.get (fun _ => none) key with
    | some w => { w with count := w.count + n }
    | none => { cls := cls, sev := sev, idx := idx, window := s1.now / 10 ^ 9, count := n, first := first }
  { s1 with out := { s1.out with wins := s1.out.wins.put (fun _ => none) key (some w) } }

/-- Apply an operation for each number of a list. -/
def State.each (s : State) (f : State → Nat → State) : List Nat → State
  | [] => s
  | n :: l => (f s n).each f l

/-- Requester domain of a request (R483). -/
def State.reqDomain (s : State) (q : Req) : Nat :=
  match q with
  | .pf f => if f.val = 0 then 1 else 7 + f.val
  | .kimbe => 1
  | .client d => s.regOwner (32 * d.val)

end Sys2Proof.Machine
end

