-- ==== Sys2Proof/Machine/TestUnits.lean ====
section
/-! DEFINITION. Self-tests as other blocks meet them (R532, R537 to R541): which unit a slot tests, what the unit's isolation is, and
the end of a test with the re-initialisation of its unit. The self-test commands stand in SelfTest.lean. -/

namespace Sys2Proof.Machine

/-- Every test slot. -/
def testSlots : List Nat := List.range 16

/-- Default COUNT of a test (R532). -/
def defaultCount (test : Nat) : Nat :=
  [0, 16777216, 16777216, 2048, 16777216, 65536, 1000000, 1024, 64, 256, 16].getD test 0

/-- Effective count of a slot's test (R531). -/
def State.effCount (s : State) (k : Nat) : Nat :=
  if s.rd (testObj k) 5 = 0 then defaultCount (s.rd (testObj k) 3) else s.rd (testObj k) 5

/-- The die whose sequencer runs a test of a unit (R532). -/
def testDie (test unit_ : Nat) : Nat :=
  (if test ≤ 3 then unit_ / 8
  else if test = 4 then 0
  else if test ≤ 6 then unit_ / 16
  else if test = 7 then unit_ / 4
  else if test = 8 then unit_
  else if test = 9 then unit_ / 32
  else unit_ / 20) % 2

/-- The unit of a test, whichever test of it runs: the three lane tests share a lane, and PCIE_LOOP takes the whole PHY. -/
def unitKey (test unit_ : Nat) : Nat := (if test ≤ 3 then 1 else test) * 65536 + (if test = 4 then 0 else unit_)

/-- A test runs in a slot. -/
def State.testRuns (s : State) (k : Nat) : Bool := decide (s.rd (testObj k) 8 = 2)

/-- Slots whose running test holds a unit. -/
def State.testsOn (s : State) (key : Nat) : List Nat :=
  testSlots.filter (fun k => s.testRuns k && decide (unitKey (s.rd (testObj k) 3) (s.rd (testObj k) 4) = key))

/-- A unit is claimed by the self-test controller (R537, R538). -/
def State.unitHeld (s : State) (key : Nat) : Bool := !(s.testsOn key).isEmpty || s.tst.stuck.contains key

/-- The unit of a slot's test at its configured state (R538). A lane is OFF with its adaptation reset, a loop OFF; the other units hold
nothing that the test has changed. -/
def State.unitRestore (s : State) (test unit_ : Nat) : State :=
  if test ≤ 3 then (s.wr (0x5810 + unit_ % 16) 2 0).wrs (0x5880 + unit_ % 16) [(7, 0), (8, 0)]
  else if test = 6 then s.wr (0xA010 + unit_ % 32) 2 0
  else s

/-- A test counts bit errors; the others make measurements (R539). -/
def patternTest (test : Nat) : Bool := decide (test = 1) || decide (test = 2) || decide (test = 4) || decide (test = 5)

/-- Limits of the measurements that a test makes, k = 0 first (R539); none where one side is open. For PAD a measurement is the level
read, which is the wrong one where a round read it wrong (notes/assumptions/202.md). -/
def measureLimits (test : Nat) : List (Option Int × Option Int) :=
  match test with
  | 3 => [(some 20, none), (some 13, none)]
  | 6 => [(none, some 20000), (some (-50000), some 50000), (none, some 2000), (none, some 20000)]
  | 7 => [(some (-15000), some 15000), (some (-5000), some 5000)]
  | 8 => [(some (-3000), some 3000)]
  | 9 => [(some (-200000), some 200000), (some (-200000), some 200000), (some (-200000), some 200000)]
  | 10 => [(some 1, some 1), (some 0, some 0), (some 1, some 1), (some 0, some 0)]
  | _ => []

/-- A measured value lies within its limits. -/
def withinLimits (l : Option Int × Option Int) (v : Int) : Bool :=
  (match l.1 with | some a => decide (a ≤ v) | none => true) && (match l.2 with | some b => decide (v ≤ b) | none => true)

/-- Value k of MEASURE, an I32 (R539). -/
def measureAt (m k : Nat) : Int := toSigned 32 (fieldAt m (32 * k) 32)

/-- SIGNATURE of a measurement test (R539): bit k is set when measurement k, one of those made, lies within its limits. -/
def measureSign (test made m : Nat) : Nat :=
  (List.range (measureLimits test).length).foldl (fun acc k =>
    if made.testBit k && withinLimits ((measureLimits test).getD k (none, none)) (measureAt m k) then setBit acc k else acc) 0

/-- Values of the measurements made; 0 in the place of the others. -/
def measureKept (made m : Nat) : Nat :=
  (List.range 16).foldl (fun acc k => if made.testBit k then acc + fieldAt m (32 * k) 32 * 2 ^ (32 * k) else acc) 0

/-- What a test of a kind leaves (R539): bit errors of a pattern test; for any other its measurements, of which a sealed test has made
all, with EXPECTED and SIGNATURE that follow from them. -/
def trimOutcome (test : Nat) (o : TestOutcome) : TestOutcome :=
  if patternTest test then { o with measure := 0 }
  else
    let all := 2 ^ (measureLimits test).length - 1
    let made := if o.sealedRun then all else o.expected.toNat % (all + 1)
    { o with errors := 0, expected := BitVec.ofNat 64 made, signature := BitVec.ofNat 64 (measureSign test made o.measure),
             measure := measureKept made o.measure }

/-- Severity of event 0x0801 for a RESULT (R543). -/
def testSeverity (result : Nat) : Nat := if result ≤ 1 then 0 else if result = 2 then 2 else 1

/-- A test ends (R538 to R541): the unit is re-initialised, the results are set, event 0x0801 is raised. A unit that cannot be
re-initialised stays claimed, with event 0x0802. -/
def State.testFinish (s : State) (k result reason : Nat) (o : TestOutcome) : State :=
  let r := testObj k
  let test := s.rd r 3
  let u := s.rd r 4
  let d := testDie test u
  let s1 := if o.restored then s.unitRestore test u
    else { s with tst := { s.tst with stuck := unitKey test u :: s.tst.stuck } }
  let s2 := s1.wrs r [(8, 3), (9, result), (0xA, reason), (0xB, o.signature.toNat), (0xC, o.expected.toNat), (0xD, o.doneCount % 2 ^ 32),
    (0xE, o.sealedRun.toNat), (0xF, o.errors.toNat), (0x10, o.measure % 2 ^ 512), (0x12, s.now)]
  let s3 := if s2.rd 0x7000 (1 + d) = k then s2.wr 0x7000 (1 + d) 0xFF else s2
  let s4 := s3.bump 0x7000 3 4 1
  let s5 := if result = 2 then s4.bump 0x7000 4 4 1 else s4
  let s6 := s5.raise 0x0801 3 (testSeverity result) r
    [(20, 1, test), (21, 1, result), (22, 1, reason), (24, 2, u), (28, 4, o.doneCount)]
  if o.restored then s6 else s6.raise 0x0802 3 2 r [(20, 1, test), (24, 2, u)]

/-- What a test has measured when another happening cuts it short: values that the command does not carry are open. -/
def State.cutOutcome (s : State) (k : Nat) : TestOutcome × State :=
  let n := Config.free s.dev.freeCtr
  (trimOutcome (s.rd (testObj k) 3)
    { doneCount := n % 2 ^ 32 % (s.effCount k + 1), sealedRun := false, signature := BitVec.ofNat 64 (n / 2 ^ 32),
      expected := BitVec.ofNat 64 (n / 2 ^ 96), errors := BitVec.ofNat 64 (n / 2 ^ 160), measure := n / 2 ^ 224, restored := true },
    s.freeNext)

/-- A running test ends INCOMPLETE for a reason (R540). -/
def State.testCut (s : State) (reason k : Nat) : State :=
  if s.testRuns k then
    let p := s.cutOutcome k
    p.2.testFinish k 3 reason p.1
  else s

/-- Every running test of a unit is ended by a request of R537. -/
def State.unitRequest (s : State) (key : Nat) : State := s.each (fun t k => t.testCut 1 k) (s.testsOn key)

end Sys2Proof.Machine
end

