-- ==== Sys2Proof/Machine/Route.lean ====
section
/-! DEFINITION. How tokens find their way: Chord and Span selects resolved to sources (R82 to R90), the wires a source
presents, the C-element join of acknowledges (R42), and the taking of a word token by a sink (R85, R86, R92). -/

namespace Sys2Proof

/-- MODE of an LU (R43): 0 DR, 1 BD, 2 CE, 3 MX. -/
def LuCfg.mode (c : LuCfg) : Nat := Machine.fieldAt c.ctrl.toNat 0 2
/-- INIT of an LU, 11 treated as 00 (R43). -/
def LuCfg.init (c : LuCfg) : Nat := Machine.fieldAt c.ctrl.toNat 2 2 % 3
/-- USE of an LU (R43). -/
def LuCfg.use (c : LuCfg) : Nat := Machine.fieldAt c.ctrl.toNat 8 6
/-- CARRY of an LU (R43). -/
def LuCfg.carry (c : LuCfg) : Nat := Machine.fieldAt c.ctrl.toNat 14 2
/-- ARB of an LU, 11 treated as 00 (R43). -/
def LuCfg.arb (c : LuCfg) : Nat := Machine.fieldAt c.ctrl.toNat 16 2 % 3
/-- Select code of an input (R41). -/
def LuCfg.code (c : LuCfg) (i : Nat) : Nat := (c.sel.getD i 0x3FF).toNat

/-- An input of an LU is used: in DR mode both inputs of a pair are when either of its bits is set (R43). -/
def LuCfg.used (c : LuCfg) (i : Nat) : Bool :=
  if c.mode = 0 then c.use.testBit (i / 2 * 2) || c.use.testBit (i / 2 * 2 + 1) else c.use.testBit i

/-- A DR pair of an LU is used when either of its bits is (R43); with a carry-in the third pair is the carry (R58). -/
def LuCfg.pairUsed (c : LuCfg) (j : Nat) : Bool :=
  (c.use.testBit (2 * j) || c.use.testBit (2 * j + 1)) && !(decide (j = 2) && decide (c.carry ≠ 0))

/-- Inputs of an LU that take part in its handshake. -/
def LuCfg.handInputs (c : LuCfg) : List Nat :=
  if c.mode = 0 then (List.range 6).filter (fun i => c.pairUsed (i / 2))
  else if c.mode = 1 then (List.range 6).filter (fun i => c.use.testBit i)
  else []

end Sys2Proof

namespace Sys2Proof.Machine

/-- A handshake source of Chord and Span bit channels (R83): an LU, a Prism flag pair, a Pool status pair, a site bit
output, by unit, cluster or region number. -/
inductive BSrc where
  | lu (u : Nat)
  | flag (c k : Nat)
  | stat (c k : Nat)
  | site (n slot : Nat)
deriving DecidableEq, Repr

/-- Key of a bit source in the map of acknowledges. -/
def BSrc.key : BSrc → Nat
  | .lu u => u
  | .flag c k => 2 ^ 20 + c * 8 + k
  | .stat c k => 2 ^ 20 + 2 ^ 15 + c * 8 + k
  | .site n slot => 2 ^ 20 + 2 ^ 16 + n * 32 + slot

/-- A word source (R86, R90): the Prism result, a Pool read channel, a gather, an Arc position that the far end drives, a
site word output. -/
inductive WSrc where
  | prism (c : Nat)
  | pool (c p : Nat)
  | gather (c g : Nat)
  | arcIn (n side seg : Nat)
  | siteOut (n slot : Nat)
deriving DecidableEq, Repr

/-- A cell of a sparse map of LUs. -/
def FabSt.lu (f : FabSt) (u : Nat) : LuSt := f.lus.get (fun _ => {}) u
/-- Set an LU's state. -/
def FabSt.setLu (f : FabSt) (u : Nat) (x : LuSt) : FabSt := { f with lus := f.lus.put (fun _ => {}) u x }
/-- A Prism's state. -/
def FabSt.prism (f : FabSt) (c : Nat) : PrismSt := f.prisms.get (fun _ => {}) c
/-- Set a Prism's state. -/
def FabSt.setPrism (f : FabSt) (c : Nat) (x : PrismSt) : FabSt := { f with prisms := f.prisms.put (fun _ => {}) c x }
/-- A Pool's state. -/
def FabSt.pool (f : FabSt) (c : Nat) : PoolSt := f.pools.get (fun _ => {}) c
/-- Set a Pool's state. -/
def FabSt.setPool (f : FabSt) (c : Nat) (x : PoolSt) : FabSt := { f with pools := f.pools.put (fun _ => {}) c x }
/-- A region's fence controller. -/
def FabSt.fence (f : FabSt) (n : Nat) : FenceSt := f.fences.get (fun _ => {}) n
/-- Set a region's fence controller. -/
def FabSt.setFence (f : FabSt) (n : Nat) (x : FenceSt) : FabSt := { f with fences := f.fences.put (fun _ => {}) n x }
/-- A Bisector channel: eastbound 0 to 63, westbound 64 to 127. -/
def FabSt.bisCh (f : FabSt) (k : Nat) : BisSt := f.bis.get (fun _ => {}) k
/-- Set a Bisector channel. -/
def FabSt.setBis (f : FabSt) (k : Nat) (x : BisSt) : FabSt := { f with bis := f.bis.put (fun _ => {}) k x }

/-- Mode of the LU at a unit number; none where no LU is configured. -/
def FabSt.luMode (f : FabSt) (u : Nat) : Option Nat := (f.lu u).cfg.map LuCfg.mode

/-- Outbound bit channels that a selection passes at most: a selection that passes more loops (R84, R89). -/
def bitFuel : Nat := 2049
/-- Outbound word channels that a selection passes at most (R86, R90). -/
def wordFuel : Nat := 257

/-- The bit source and wire (true for wire B) that a Chord code of cluster `c` selects (R82, R84, R89). `fuel` bounds the
number of outbound channels that a selection passes; a selection that loops has no source. An outbound channel may select an inbound
channel, so that a bit passes several of them: R84 admits the code, and R94 counts one (DESIGN CHOICE, notes/assumptions/158.md). -/
def FabSt.bitSrc (f : FabSt) : Nat → Nat → Nat → Option (BSrc × Bool)
  | 0, _, _ => none
  | fuel + 1, c, code =>
    let b := decide (code % 2 = 1)
    if code < 0x200 then some (.lu (c * 256 + code / 2), b)
    else if code < 0x240 then
      let sc := f.spanBitIn.get (fun _ => 0xFFF) (c * 32 + (code - 0x200) / 2)
      if sc < 0x800 then
        let oc := c / 64 * 64 + sc / 32
        (f.bitSrc fuel oc (f.chordOut.get (fun _ => 0x3FF) (oc * 32 + sc % 32))).map (fun p => (p.1, b))
      else if sc < 0x820 then some (.site (c / 64) (sc - 0x800), b)
      else none
    else if code < 0x250 then some (.flag c ((code - 0x240) / 2), b)
    else if code < 0x260 then some (.stat c ((code - 0x250) / 2), b)
    else none

/-- The bit source that feeds site bit input `slot` of region `n` (R89). -/
def FabSt.siteBitSrc (f : FabSt) (n slot : Nat) : Option BSrc :=
  let sc := f.spanBitSite.get (fun _ => 0xFFF) (n * 32 + slot)
  if sc < 0x800 then
    let oc := n * 64 + sc / 32
    (f.bitSrc bitFuel oc (f.chordOut.get (fun _ => 0x3FF) (oc * 32 + sc % 32))).map (fun p => p.1)
  else if sc < 0x820 then some (.site n (sc - 0x800))
  else none

/-- The value of a presented dual-rail token, if any. -/
def tokenOf (l : List (Nat × Bool)) (k : Nat) : Option Bool := cellsFind l k

/-- The fence of a region holds one of its inbound border channels closed: no token of it is presented (R73, R104). -/
def FabSt.shut (f : FabSt) (kind n side index : Nat) : Bool := (f.fence n).closed.contains (chanId kind n side 1 index)

/-- The request wire of a bit source (R42). A CE output is its own request and an MX LU requests while it grants
(notes/assumptions/12.md). -/
def FabSt.req (f : FabSt) : BSrc → Bool
  | .lu u =>
    let x := f.lu u
    match f.luMode u with
    | some 0 => x.full
    | some 1 => x.full
    | some 2 => x.oF
    | some _ => x.oF || x.oG
    | none => false
  | .flag c k => (tokenOf (f.prism c).flags k).isSome
  | .stat c k => (tokenOf (f.pool c).status k).isSome
  | .site n slot => (f.siteBit.get (fun _ => none) (n * 32 + slot)).isSome && !f.shut 4 n 0 slot

/-- A data wire of a bit source: wire A carries O_F, the true rail; wire B O_G, the false rail (R82, R116, R139). -/
def FabSt.wire (f : FabSt) (b : Bool) : BSrc → Bool
  | .lu u => if b then (f.lu u).oG else (f.lu u).oF
  | .flag c k => tokenOf (f.prism c).flags k == some (!b)
  | .stat c k => tokenOf (f.pool c).status k == some (!b)
  | .site n slot =>
    match f.siteBit.get (fun _ => none) (n * 32 + slot) with
    | some v => v.testBit (if b then 1 else 0) && !f.shut 4 n 0 slot
    | none => false

/-- Level of an LU input: 0 when unused (R44). -/
def FabSt.input (f : FabSt) (u : Nat) (c : LuCfg) (i : Nat) : Bool :=
  c.used i &&
    (match f.bitSrc bitFuel (u / 256) (c.code i) with
     | some (src, b) => f.wire b src
     | none => false)

/-- Bit sources that an LU is a handshake sink of (R42: LUs in CE or MX mode are none's). -/
def FabSt.luSrcs (f : FabSt) (u : Nat) : List BSrc :=
  match (f.lu u).cfg with
  | none => []
  | some c => c.handInputs.filterMap (fun i => (f.bitSrc bitFuel (u / 256) (c.code i)).map (fun p => p.1))

/-- The word source that a Span word code of region `n` selects (R90, R86); `fuel` bounds the feed-throughs. -/
def FabSt.spanSrc (f : FabSt) : Nat → Nat → Nat → Option WSrc
  | 0, _, _ => none
  | fuel + 1, n, code =>
    if code < 0x100 then
      let c := n * 64 + code / 4
      let k := f.wordSel.get (fun _ => 15) (c * 9 + 5 + code % 4)
      if k = 0 then some (.prism c)
      else if k < 3 then some (.pool c (k - 1))
      else if k < 7 then f.spanSrc fuel n (f.spanWordIn.get (fun _ => 0x1FF) (c * 4 + (k - 3)))
      else if k < 11 then some (.gather c (k - 7))
      else none
    else if code < 0x180 then some (.arcIn n ((code - 0x100) / 32) (code % 32))
    else if code < 0x190 then some (.siteOut n (code - 0x180))
    else none

/-- The word source that a Chord word code of cluster `c` selects (R86). -/
def FabSt.chordSrc (f : FabSt) (c k : Nat) : Option WSrc :=
  if k = 0 then some (.prism c)
  else if k < 3 then some (.pool c (k - 1))
  else if k < 7 then f.spanSrc wordFuel (c / 64) (f.spanWordIn.get (fun _ => 0x1FF) (c * 4 + (k - 3)))
  else if k < 11 then some (.gather c (k - 7))
  else none

/-- The Bisector channel at a region's position, with true for a position that sends (R100). -/
def bisAt (n side seg : Nat) : Option (Nat × Bool) :=
  if n < 32 ∧ n % 8 = 7 ∧ side = 1 then
    some (if seg < 16 then (16 * (n / 8) + seg, true) else (64 + 16 * (n / 8) + (seg - 16), false))
  else if 32 ≤ n ∧ n % 8 = 0 ∧ side = 3 then
    some (if seg < 16 then (16 * ((n - 32) / 8) + seg, false) else (64 + 16 * ((n - 32) / 8) + (seg - 16), true))
  else none

/-- The region and side on the other end of a region's Arc side; none on an empty side or the Bisector (R91, R99). -/
def arcFar (n side : Nat) : Option (Nat × Nat) :=
  let r := n % 32
  if side = 0 then (if r < 8 then none else some (n - 8, 2))
  else if side = 1 then (if r % 8 = 7 then none else some (n + 1, 3))
  else if side = 2 then (if 24 ≤ r then none else some (n + 8, 0))
  else (if r % 8 = 0 then none else some (n - 1, 1))

/-- Segments of one side that a region's end drives, as a mask (R95). -/
def FabSt.driveOf (f : FabSt) (n side : Nat) : Nat := f.drive.get (fun _ => 0) (n * 4 + side)

/-- Segments of one side that the far end drives (R95, R110). -/
def FabSt.farDrive (f : FabSt) (n side : Nat) : Nat :=
  match arcFar n side with
  | some (m, far) => f.driveOf m far
  | none => 0

/-- A position, by 128 × region + 32 × side + segment, that its own end drives: by its enable, or as a sending Bisector position (R95,
R100). -/
def FabSt.drives (f : FabSt) (k : Nat) : Bool :=
  match bisAt (k / 128) (k % 128 / 32) (k % 32) with
  | some (_, sends) => sends
  | none => (f.driveOf (k / 128) (k % 128 / 32)).testBit (k % 32)

/-- Key of cluster word sink 0 to 4: the Prism inputs X, Y, C and the Pool inputs (R86, R116, R131). -/
def sinkCluster (c k : Nat) : Nat := c * 9 + k
/-- Key of an Arc or Bisector position as a word sink. -/
def sinkArc (n side seg : Nat) : Nat := 2 ^ 16 + n * 128 + side * 32 + seg
/-- Key of a site word input. -/
def sinkSite (n slot : Nat) : Nat := 2 ^ 17 + n * 16 + slot

/-- The source that a word sink's select names. -/
def FabSt.sinkSrc (f : FabSt) (key : Nat) : Option WSrc :=
  if key < 2 ^ 16 then f.chordSrc (key / 9) (f.wordSel.get (fun _ => 15) key)
  else if key < 2 ^ 17 then f.spanSrc wordFuel ((key - 2 ^ 16) / 128) (f.spanWordArc.get (fun _ => 0x1FF) (key - 2 ^ 16))
  else f.spanSrc wordFuel ((key - 2 ^ 17) / 16) (f.spanWordSite.get (fun _ => 0x1FF) (key - 2 ^ 17))

/-- Every word sink with a select, outbound Chord channels apart (they are only passed through). A segment position is a sink at the
end that drives it (R95), a Bisector position where it sends (R100). -/
def FabSt.sinks (f : FabSt) : List Nat :=
  f.wordSel.keysWhere (fun k _ => decide (k % 9 < 5)) ++ (f.spanWordArc.keysWhere (fun k _ => f.drives k)).map (fun k => 2 ^ 16 + k)
    ++ (f.spanWordSite.keysWhere (fun _ _ => true)).map (fun k => 2 ^ 17 + k)

/-- The word sinks that select a source. -/
def FabSt.sinksOf (f : FabSt) (src : WSrc) : List Nat := f.sinks.filter (fun k => decide (f.sinkSrc k = some src))

/-- Sources of a gather's 64 LUs and of its enabled sideband selects (R87). -/
def FabSt.gatherSrcs (f : FabSt) (c g : Nat) : List BSrc :=
  (List.range 64).map (fun j => BSrc.lu (c * 256 + 64 * g + j)) ++
    (List.range 4).filterMap (fun k =>
      (f.bitSrc bitFuel c (f.gatherSide.get (fun _ => 0x3FF) ((c * 4 + g) * 4 + k))).map (fun p => p.1))

/-- A sideband bit of a gather: 0 where its select is disabled (R87). -/
def FabSt.gatherBit (f : FabSt) (c g k : Nat) : Bool :=
  match f.bitSrc bitFuel c (f.gatherSide.get (fun _ => 0x3FF) ((c * 4 + g) * 4 + k)) with
  | some (src, b) => f.wire b src
  | none => false

/-- Bits 2j and 2j + 1 of a gathered word are O_F and O_G of LU 64g + j (R87). -/
def FabSt.gatherData (f : FabSt) (c g : Nat) : Nat → Nat
  | 0 => 0
  | j + 1 =>
    let x := f.lu (c * 256 + 64 * g + j)
    f.gatherData c g j ||| (x.oF.toNat ||| x.oG.toNat <<< 1) <<< (2 * j)

/-- Every enabled sideband select of a gather has a source; a channel without one gives no request (R87, R98). -/
def FabSt.gatherFed (f : FabSt) (c g : Nat) : Bool :=
  (List.range 4).all (fun k =>
    let code := f.gatherSide.get (fun _ => 0x3FF) ((c * 4 + g) * 4 + k)
    decide (code = 0x3FF) || (f.bitSrc bitFuel c code).isSome)

/-- The word a gather presents: its joined request is high and it is not acknowledged (R87). -/
def FabSt.gatherWord (f : FabSt) (c g : Nat) : Option Word :=
  if f.gatherFed c g && (f.gatherSrcs c g).all f.req && !(f.gAck.get (fun _ => false) (c * 4 + g)) then
    some ⟨BitVec.ofNat 128 (f.gatherData c g 64), f.gatherBit c g 0, f.gatherBit c g 1, f.gatherBit c g 2, f.gatherBit c g 3⟩
  else none

/-- The site word output of a region holds its channel closed (R73). -/
def FabSt.siteClosed (f : FabSt) (n slot dir : Nat) : Bool := (f.fence n).closed.contains (chanId 3 n 0 dir slot)

/-- The word token that a source presents now. A Bisector buffer or a receiving relay station presents none while its channel is closed
(R104). A word that stands in the receiving station has entered the region (R96): it is presented although a later load has cleared
the far end's enable, which R98 leaves open (DESIGN CHOICE, notes/assumptions/159.md). -/
def FabSt.srcWord (f : FabSt) : WSrc → Option Word
  | .prism c => (f.prism c).result
  | .pool c p => if p = 0 then (f.pool c).read0 else (f.pool c).read1
  | .gather c g => f.gatherWord c g
  | .arcIn n side seg =>
    match bisAt n side seg with
    | some (k, false) => if f.shut 2 n side (k % 64) then none else (f.bisCh k).buf.head?
    | some (_, true) => none
    | none => if f.shut 1 n side seg then none else f.arcRx.get (fun _ => none) (n * 128 + side * 32 + seg)
  | .siteOut n slot => if f.siteClosed n slot 1 then none else (f.siteOut.get (fun _ => []) (n * 16 + slot)).head?

/-- The gathers that a Chord word select names, by 4 × cluster + gather (R86). -/
def FabSt.gathers (f : FabSt) : List Nat :=
  ((f.wordSel.cells.filter (fun p => decide (7 ≤ p.2) && decide (p.2 < 11))).map (fun p => p.1 / 9 * 4 + (p.2 - 7))).eraseDups

/-- Acknowledges that the handshake sinks of a bit source return (R42, R85, R87). A gather, or an outbound bit channel, behind which
no sink lies takes no token and is no handshake sink (DESIGN CHOICE, notes/assumptions/160.md). -/
def FabSt.sinkAcks (f : FabSt) (src : BSrc) : List Bool :=
  (f.lus.keysWhere (fun _ _ => true)).filterMap (fun u => if (f.luSrcs u).contains src then some (f.lu u).full else none)
    ++ f.gathers.filterMap (fun k =>
        if (f.sinksOf (.gather (k / 4) (k % 4))).isEmpty then none
        else if (f.gatherSrcs (k / 4) (k % 4)).contains src then some (f.gAck.get (fun _ => false) k) else none)
    ++ (f.spanBitSite.keysWhere (fun _ _ => true)).filterMap (fun k =>
        if f.siteBitSrc (k / 32) (k % 32) = some src then some (f.gAck.get (fun _ => false) (2 ^ 20 + k)) else none)

/-- The acknowledge that a bit source sees (R42). -/
def FabSt.ack (f : FabSt) (src : BSrc) : Bool := f.acks.get (fun _ => false) src.key

/-- What a region has done is counted (R109, R340): `k` events of a class. -/
def FabSt.count (f : FabSt) (n cls k : Nat) : FabSt :=
  { f with meter := f.meter.put (fun _ => 0) (32 * n + cls) (f.meter.get (fun _ => 0) (32 * n + cls) + k) }

/-- The region of a bit source. -/
def BSrc.region : BSrc → Nat
  | .lu u => u / 16384
  | .flag c _ => c / 64
  | .stat c _ => c / 64
  | .site n _ => n

/-- The region of a word source. -/
def WSrc.region : WSrc → Nat
  | .prism c => c / 64
  | .pool c _ => c / 64
  | .gather c _ => c / 64
  | .arcIn n _ _ => n
  | .siteOut n _ => n

/-- A Chord bit code names an inbound Span channel (R84). -/
def spanCode (code : Nat) : Bool := decide (0x200 ≤ code) && decide (code < 0x240)

/-- Some sink reaches a bit source through its region's Span (R84, R89, R109). -/
def FabSt.bitSpan (f : FabSt) (src : BSrc) : Bool :=
  let via (c code : Nat) : Bool := spanCode code && decide ((f.bitSrc bitFuel c code).map (fun p => p.1) = some src)
  (f.lus.keysWhere (fun _ _ => true)).any (fun u => match (f.lu u).cfg with
      | some c => c.handInputs.any (fun i => via (u / 256) (c.code i))
      | none => false)
    || f.gathers.any (fun k => !(f.sinksOf (.gather (k / 4) (k % 4))).isEmpty &&
        (List.range 4).any (fun j => via (k / 4) (f.gatherSide.get (fun _ => 0x3FF) (k * 4 + j))))
    || (f.spanBitSite.keysWhere (fun _ _ => true)).any (fun k => decide (f.siteBitSrc (k / 32) (k % 32) = some src))

/-- Some of these word sinks reach their source through its region's Span (R86, R90, R109). -/
def FabSt.wordSpan (f : FabSt) (sinks : List Nat) : Bool :=
  sinks.any (fun k => decide (2 ^ 16 ≤ k) ||
    (let sel := f.wordSel.get (fun _ => 15) k; decide (3 ≤ sel) && decide (sel < 7)))

/-- The C-element join of acknowledges: high when all are high, low when all are low or there is none, else held (R42). -/
def joinOf (l : List Bool) (prev : Bool) : Bool :=
  if l.all (fun b => b) && !l.isEmpty then true else if l.all (fun b => !b) then false else prev

/-- A Prism flag, Pool status or site bit token is withdrawn when its acknowledge is high (R83, R45). -/
def FabSt.withdraw (f : FabSt) : BSrc → FabSt
  | .lu _ => f
  | .flag c k => let x := f.prism c; f.setPrism c { x with flags := x.flags.filter (fun p => decide (p.1 ≠ k)) }
  | .stat c k => let x := f.pool c; f.setPool c { x with status := x.status.filter (fun p => decide (p.1 ≠ k)) }
  | .site n slot => { f with siteBit := f.siteBit.put (fun _ => none) (n * 32 + slot) none }

/-- Bring one bit source's acknowledge up to date. A token that its sinks have taken through Span counts for its region (R109). -/
def FabSt.settleSrc (f : FabSt) (src : BSrc) : FabSt :=
  let a := joinOf (f.sinkAcks src) (f.ack src)
  let f1 := { f with acks := f.acks.put (fun _ => false) src.key a }
  let f2 := if a && !f.ack src && f.bitSpan src then f1.count src.region 4 1 else f1
  if a then f2.withdraw src else f2

/-- Every bit source that some handshake sink selects. -/
def FabSt.bitSrcs (f : FabSt) : List BSrc :=
  (f.lus.keysWhere (fun _ _ => true)).flatMap (fun u => f.luSrcs u)
    ++ f.gathers.flatMap (fun k => f.gatherSrcs (k / 4) (k % 4))
    ++ (f.spanBitSite.keysWhere (fun _ _ => true)).filterMap (fun k => f.siteBitSrc (k / 32) (k % 32))

/-- A gather's, or a site bit input's, acknowledge falls when its joined request is low (R45). -/
def FabSt.settleAck (f : FabSt) (k : Nat) : FabSt :=
  let low := if k < 2 ^ 20 then (f.gatherSrcs (k / 4) (k % 4)).all (fun b => !f.req b)
    else match f.siteBitSrc ((k - 2 ^ 20) / 32) (k % 32) with
      | some src => !f.req src
      | none => true
  if low then { f with gAck := f.gAck.put (fun _ => false) k false } else f

/-- Requests paired with the used inputs of a BD LU (R50). -/
def FabSt.requests (f : FabSt) (u : Nat) (c : LuCfg) : List Bool :=
  c.handInputs.map (fun i =>
    match f.bitSrc bitFuel (u / 256) (c.code i) with
    | some (src, _) => f.req src
    | none => false)

/-- The joined request of a BD LU is a C-element: it falls once every paired request is low, and a matched delay that has not been used
falls with it (R50, R51 step 6). -/
def FabSt.settleJoin (f : FabSt) (u : Nat) : FabSt :=
  let x := f.lu u
  match x.cfg with
  | some c =>
    if x.joined && decide (c.mode = 1) && (f.requests u c).all (fun b => !b) then f.setLu u { x with joined := false, delay := false } else f
  | none => f

/-- Apply an operation for each entry of a list. -/
def FabSt.each {α : Type} (f : FabSt) (g : FabSt → α → FabSt) : List α → FabSt
  | [] => f
  | a :: l => (g f a).each g l

/-- Acknowledges follow the tokens: passes until nothing more can change (R42, R45). -/
def FabSt.settle : Nat → FabSt → FabSt
  | 0, f => f
  | k + 1, f =>
    let f1 := f.each FabSt.settleAck (f.gAck.keysWhere (fun _ _ => true))
    FabSt.settle k (f1.each FabSt.settleSrc f1.bitSrcs)

/-- The fabric after its acknowledges have settled, and the joined requests after them. -/
def FabSt.settled (f : FabSt) : FabSt :=
  let g := FabSt.settle 4 f
  g.each FabSt.settleJoin (g.lus.keysWhere (fun _ x => x.joined))

/-- MODE of a Pool port (R135). -/
def poolMode (c p : Nat) : Nat := fieldAt c (1 + 3 * p) 3
/-- BASE of a Pool port. -/
def poolBase (c p : Nat) : Nat := fieldAt c (12 + 18 * p) 9
/-- LIMIT of a Pool port. -/
def poolLimit (c p : Nat) : Nat := fieldAt c (21 + 18 * p) 9
/-- RSTLAST of a Pool port. -/
def poolRst (c p : Nat) : Bool := c.testBit (8 + p)
/-- Words that a Pool FIFO holds at most (R131). -/
def fifoCap (ctrl : Nat) : Nat := poolLimit ctrl 0 - poolBase ctrl 0 + 1

/-- The pointer after an access in SEQ_WR or SEQ_RD mode, with whether it wrapped or was reset (R131, R133). -/
def seqAdvance (ctrl p ptr : Nat) (last : Bool) : Nat × Bool :=
  if poolRst ctrl p && last then (poolBase ctrl p, true)
  else if ptr = poolLimit ctrl p then (poolBase ctrl p, true)
  else ((ptr + 1) % 512, false)

/-- A Pool after its read token on port `p` has been taken: in SEQ_RD the pointer advances, in FIFO mode the head leaves (R131, R133). -/
def PoolSt.readTaken (x : PoolSt) (p : Nat) : PoolSt :=
  let tok := if p = 0 then x.read0 else x.read1
  let ctrl := match x.cfg with | some c => c.toNat | none => 0
  let y := if p = 0 then { x with read0 := none } else { x with read1 := none }
  match tok with
  | none => y
  | some w =>
    if poolMode ctrl p = 3 then
      (if p = 0 then { y with ptr0 := (seqAdvance ctrl 0 y.ptr0 w.last).1 } else { y with ptr1 := (seqAdvance ctrl 1 y.ptr1 w.last).1 })
    else if poolMode ctrl p = 4 then { y with fifoHead := (y.fifoHead + 1) % fifoCap ctrl, fifoLen := y.fifoLen - 1 }
    else y

/-- The token of a source is withdrawn: every sink has taken it. -/
def FabSt.consume (f : FabSt) : WSrc → FabSt
  | .prism c => let x := f.prism c; f.setPrism c { x with result := x.extra, extra := none }
  | .pool c p =>
    f.setPool c ((f.pool c).readTaken p)
  | .gather c g => ({ f with gAck := f.gAck.put (fun _ => false) (c * 4 + g) true }).settled
  | .arcIn n side seg =>
    match bisAt n side seg with
    | some (k, _) => let x := f.bisCh k; f.setBis k { x with buf := x.buf.tail, creditFlight := x.creditFlight + 1 }
    | none => { f with arcRx := f.arcRx.put (fun _ => none) (n * 128 + side * 32 + seg) none }
  | .siteOut n slot =>
    { f with siteOut := f.siteOut.put (fun _ => []) (n * 16 + slot) (f.siteOut.get (fun _ => []) (n * 16 + slot)).tail }

/-- The word that a sink may take now, with its source. -/
def FabSt.offered (f : FabSt) (key : Nat) : Option (WSrc × Word) :=
  if f.taken.contains key then none
  else match f.sinkSrc key with
    | none => none
    | some src => (f.srcWord src).map (fun w => (src, w))

/-- A sink takes its source's token. The source sees its acknowledge, and withdraws the token, once every sink of it has
taken the token (R42, R85). A token that has passed its region's Span counts there (R109). -/
def FabSt.take (f : FabSt) (key : Nat) : Option (Word × FabSt) :=
  match f.offered key with
  | none => none
  | some (src, w) =>
    let all := f.sinksOf src
    let t := key :: f.taken
    if all.all (fun k => t.contains k) then
      let f1 := { f.consume src with taken := t.filter (fun k => !all.contains k) }
      some (w, if f.wordSpan all then f1.count src.region 3 1 else f1)
    else some (w, { f with taken := t })

/-- The word that the fabric gives a site word input: the routed source's, where a select is configured; else the word
`w` of the command stands for the token that the fabric offers there (notes/assumptions/13.md). -/
def FabSt.takeSite (f : FabSt) (n slot : Nat) (w : Word) : Option FabSt :=
  if f.siteClosed n slot 0 then none
  else if f.spanWordSite.get (fun _ => 0x1FF) (n * 16 + slot) = 0x1FF then some f
  else match f.take (sinkSite n slot) with
    | some (v, f') => if v = w then some f' else none
    | none => none

/-- A word leaves a hardened block on a site word output and waits there for the fabric. -/
def FabSt.give (f : FabSt) (n slot : Nat) (ws : List Word) : FabSt :=
  { f with siteOut := f.siteOut.put (fun _ => []) (n * 16 + slot) (f.siteOut.get (fun _ => []) (n * 16 + slot) ++ ws) }

/-- The token that a site bit input is offered (R89). Where no select is configured the command stands for the token. -/
def FabSt.takeBit (f : FabSt) (n slot : Nat) : Option FabSt :=
  if (f.fence n).closed.contains (chanId 4 n 0 0 slot) then none
  else if f.spanBitSite.get (fun _ => 0xFFF) (n * 32 + slot) = 0xFFF then some f
  else match f.siteBitSrc n slot with
    | none => none
    | some src =>
      if f.req src && !(f.gAck.get (fun _ => false) (2 ^ 20 + n * 32 + slot)) then
        some (({ f with gAck := f.gAck.put (fun _ => false) (2 ^ 20 + n * 32 + slot) true }).settled)
      else none

/-- A token stands on a site bit output and has not been taken. -/
def FabSt.bitOut (f : FabSt) (n slot : Nat) : Bool := (f.siteBit.get (fun _ => none) (n * 32 + slot)).isSome

/-- Marks of the sinks that have taken a source's present token are dropped: the token is lost to its other sinks. -/
def FabSt.dropTaken (f : FabSt) (src : WSrc) : FabSt := { f with taken := f.taken.filter (fun k => !(f.sinksOf src).contains k) }

/-- A token is presented on a site bit output. While the channel is closed it stands there and no sink sees it. -/
def FabSt.giveBit (f : FabSt) (n slot v : Nat) : FabSt :=
  ({ f with siteBit := f.siteBit.put (fun _ => none) (n * 32 + slot) (some v) }).settled

/-- A region takes part in the handshake fabric: GSR is released and it is RUNNING, or CLOSING (R67, R73). -/
def State.active (s : State) (n : Nat) : Bool :=
  !s.fab.gsr && (decide (s.rd (regObj n) 2 = 2) || decide (s.rd (regObj n) 2 = 3))

/-- A region may start captures, grants and operations: active, and the region hold is not asserted (R73, R142). -/
def State.canStart (s : State) (n : Nat) : Bool := s.active n && !(s.fab.fence n).hold

/-- The region is not held: its sites pass tokens (R67, R73). A region that no load has configured passes none. -/
def State.siteOpen (s : State) (n : Nat) : Bool := s.canStart n

end Sys2Proof.Machine
end

