-- ==== Sys2Proof/Machine/Fence.lean ====
section
/-! DEFINITION. The fence controllers (R65, R72 to R77): closing one region or a merged set, joining, abandoning, forcing and
opening. Reason bits are those of FENCE_REASON (R78): USER 0, CONFIG 1, SNAPSHOT 2, ROLLBACK 3, RESET 4, LEDGER_HALT 5,
MARGIN 6, TAMPER 7. -/

namespace Sys2Proof.Machine

/-- STATE of a region (R78): 0 UNCONFIGURED, 1 HELD, 2 RUNNING, 3 CLOSING, 4 FENCED, 5 RESETTING. -/
def State.regState (s : State) (n : Nat) : Nat := s.rd (regObj n) 2
/-- FENCE_REASON of a region. -/
def State.reasons (s : State) (n : Nat) : Nat := s.rd (regObj n) 4
/-- The fence of a region is closed and quiescent. -/
def State.fenced (s : State) (n : Nat) : Bool := decide (s.regState n = 4)

/-- Set a region's STATE, and its bit of FENCED_D0 or FENCED_D1, which is set while CLOSING, FENCED or RESETTING (R78). -/
def State.setRegState (s : State) (n st : Nat) : State :=
  let m := s.rd 0xC001 (1 + n / 32)
  (s.wr (regObj n) 2 st).wr 0xC001 (1 + n / 32) (if 3 ≤ st then setBit m (n % 32) else clrBit m (n % 32))

/-- Change one region's fence controller. -/
def State.modFence (s : State) (n : Nat) (g : FenceSt → FenceSt) : State :=
  { s with fab := s.fab.setFence n (g (s.fab.fence n)) }

/-- Arc channels of a region's side in use: identifiers of the segments that either end drives (R95, R107). -/
def State.arcChannels (s : State) (members : List Nat) (n side : Nat) : List Nat :=
  match arcFar n side with
  | none => []
  | some (m, _) =>
    if members.contains m then []
    else (List.range 32).filterMap (fun seg =>
      if (s.fab.driveOf n side).testBit seg then some (chanId 1 n side 0 seg)
      else if (s.fab.farDrive n side).testBit seg then some (chanId 1 n side 1 seg)
      else none)

/-- Bisector channels of a region in use: their sending position has a select (R100, R107). -/
def State.bisChannels (s : State) (members : List Nat) (n : Nat) : List Nat :=
  let side := if n < 32 then 1 else 3
  (List.range 32).filterMap (fun seg =>
    match bisAt n side seg with
    | none => none
    | some (k, sends) =>
      let far := if n < 32 then 32 + (n - 7) else n - 32 + 7
      let farSide := if n < 32 then 3 else 1
      let key := if sends then n * 128 + side * 32 + seg else far * 128 + farSide * 32 + seg
      if members.contains far then none
      else if (s.fab.spanWordArc.get (fun _ => 0x1FF) key) = 0x1FF then none
      else some (chanId 2 n side (if sends then 0 else 1) (k % 64)))

/-- Border channels of a region in use, apart from channels internal to the fenced set (R65, R77): Arc segments, Bisector
channels, and the site word and site bit channels. -/
def State.borderChannels (s : State) (members : List Nat) (n : Nat) : List Nat :=
  (List.range 4).flatMap (fun d => s.arcChannels members n d) ++ s.bisChannels members n
    ++ (List.range 16).filterMap (fun k =>
        if s.fab.spanWordSite.get (fun _ => 0x1FF) (n * 16 + k) = 0x1FF then none else some (chanId 3 n 0 0 k))
    ++ (List.range 16).filterMap (fun k =>
        if (s.fab.sinksOf (.siteOut n k)).isEmpty then none else some (chanId 3 n 0 1 k))
    ++ (List.range 32).filterMap (fun k =>
        if s.fab.spanBitSite.get (fun _ => 0xFFF) (n * 32 + k) = 0xFFF then none else some (chanId 4 n 0 0 k))
    ++ (List.range 32).filterMap (fun k =>
        if (s.fab.siteBit.get (fun _ => none) (n * 32 + k)).isSome || !(s.fab.sinkAcks (.site n k)).isEmpty then some (chanId 4 n 0 1 k) else none)

/-- A source's present token has been taken by one of its sinks and waits for the others (R42, R85). -/
def State.partTaken (s : State) (src : WSrc) : Bool := (s.fab.sinksOf src).any (fun k => s.fab.taken.contains k)

/-- A joined request over a site's bit channel has risen and its LU has not captured yet: the token has begun to enter (R50, R73). -/
def State.joinBegun (s : State) (n i : Nat) : Bool :=
  (s.fab.lus.keysWhere (fun _ x => x.joined && !x.full)).any (fun u => (s.fab.luSrcs u).contains (.site n i))

/-- A border channel is at rest (R45, R73). An outbound channel is when no token is offered on it that the far side has not taken; an
inbound one, whose acknowledge the fence withholds, when no sink inside has taken the token that stands on it or has joined it, if one
stands there (R71). -/
def State.chanAtRest (s : State) (ch : Nat) : Bool :=
  let n := chanRegion ch
  let side := fieldAt ch 12 2
  let i := ch % 64
  if ch.testBit 11 then
    match ch >>> 28 with
    | 1 => !s.partTaken (.arcIn n side i)
    | 2 => !s.partTaken (.arcIn n side (if n < 32 then 16 + i % 16 else i % 16))
    | 3 => !s.partTaken (.siteOut n i)
    | _ => !s.fab.ack (.site n i) && !s.joinBegun n i &&
        ((s.fab.siteBit.get (fun _ => none) (n * 32 + i)).isNone || (s.fab.sinkAcks (.site n i)).all (fun b => !b))
  else match ch >>> 28 with
    | 1 => (s.fab.arcTx.get (fun _ => none) (n * 128 + side * 32 + i)).isNone
    | 2 => (s.fab.offered (sinkArc n side (if n < 32 then i % 16 else 16 + i % 16))).isNone
    | 3 => (s.fab.offered (sinkSite n i)).isNone
    | 4 =>
      (match s.fab.siteBitSrc n i with
       | some src => !s.fab.req src
       | none => true)
    | _ => true

/-- Every border channel of the region is closed, so its hold is asserted (R73 step 4). -/
def State.checkHold (s : State) (n : Nat) : State :=
  let x := s.fab.fence n
  if (s.borderChannels x.members n).all (fun ch => x.closed.contains ch) then s.modFence n (fun y => { y with hold := true }) else s

/-- Members of every close that runs over one of these regions, with the regions themselves (R77). -/
def State.mergedSet (s : State) (ns : List Nat) : List Nat :=
  allRegions.filter (fun m => ns.contains m || ns.any (fun n => decide (s.regState n = 3) && (s.fab.fence n).members.contains m))

/-- Members of a set whose fences still close: the others are closed already, and their channels to these are internal (R65, R77). -/
def State.closingOf (s : State) (ms : List Nat) : List Nat := allRegions.filter (fun n => ms.contains n && decide (s.regState n = 3))

/-- Set a reason bit on a set of regions (R72, R73, R76, R77). A RUNNING member starts to close, a CLOSING member joins, and
their closes merge into one; a FENCED, RESETTING, HELD or UNCONFIGURED member takes the reason at once and is of the set. -/
def State.fenceSet (s : State) (ns : List Nat) (bit : Nat) (force : Bool) : State :=
  let closing := ns.filter (fun n => decide (s.regState n = 2) || decide (s.regState n = 3))
  let all := s.mergedSet ns
  let set_ := (s.mergedSet closing).filter (fun n => decide (s.regState n = 2) || decide (s.regState n = 3))
  let old := set_.filter (fun n => decide (s.regState n = 3))
  let start := old.foldl (fun a n => min a (s.fab.fence n).start) s.now
  let timeout := (old.map (fun n => (s.fab.fence n).timeout) ++ closing.map (fun n => s.rd (regObj n) 5)).foldl max 0
  let frc := force || old.any (fun n => (s.fab.fence n).force)
  let s1 := s.each (fun t n => t.wr (regObj n) 4 (setBit (t.reasons n) bit)) ns
  let s2 := s1.each (fun t n =>
    let fresh := decide (t.regState n = 2)
    (t.modFence n (fun x =>
      let x := if fresh then {} else x
      { x with start := start, timeout := timeout, force := frc, members := all,
               joined := if ns.contains n then setBit x.joined bit else x.joined })).setRegState n 3) set_
  s2.each State.checkHold set_

/-- The fence of a region opens (R76): the hold is released, then every border channel is reopened. -/
def State.fenceOpen (s : State) (n : Nat) : State := (s.modFence n (fun _ => {})).setRegState n 2

/-- Reason bits that an abandoned close clears on a member (R75); CONFIG of an UNCONFIGURED region is never among them. -/
def State.abandonBits (s : State) (n : Nat) : Nat := (s.fab.fence n).joined &&& s.reasons n

/-- A close is abandoned for one member (R75, R76): its channels reopen, the hold is released and the joined bits are cleared. -/
def State.closeDrop (s : State) (n : Nat) : State :=
  ((s.wr (regObj n) 4 (s.reasons n ^^^ s.abandonBits n)).wr (regObj n) 0xA 2).fenceOpen n

/-- After an abandoned close every agent but the user, and the one that has just cleared its bit, sets its bit again on the members
that still need it (R72): all but CONFIG and SNAPSHOT close with FORCE (R75). `need` gives the bits that each member had joined. -/
def State.rejoin (s : State) (need : List (Nat × Nat)) (bit : Nat) : State :=
  s.each (fun t b =>
    let ms := (need.filter (fun p => p.2.testBit b)).map (fun p => p.1)
    if b = bit ∨ ms = [] then t else t.fenceSet ms b (decide (3 ≤ b))) [1, 2, 3, 4, 5, 6, 7]

/-- The last reason of a CLOSING region is cleared: its whole set's close is abandoned without an event (R75 to R77). -/
def State.leaveClose (s : State) (n bit : Nat) : State :=
  let ms := s.closingOf (n :: (s.fab.fence n).members)
  let need := (ms.filter (fun m => decide (m ≠ n))).map (fun m => (m, s.abandonBits m))
  (s.each State.closeDrop ms).rejoin need bit

/-- Clear a reason bit (R72, R76). Bytes 20 and 21 of event 0x0D02 name the last reason as a mask in the layout of FENCE_REASON, as those
of events 0x0D01 and 0x0D03 do; R79 does not say whether they are a mask or a number (DESIGN CHOICE, notes/assumptions/163.md). -/
def State.fenceClear (s : State) (n bit : Nat) : State :=
  if (s.reasons n).testBit bit then
    let r := clrBit (s.reasons n) bit
    let s1 := s.wr (regObj n) 4 r
    if r ≠ 0 then s1
    else if s.regState n = 4 then
      (s1.fenceOpen n).raise 0x0D02 1 0 (locRegion n) [(20, 2, 1 <<< bit)]
    else if s.regState n = 3 then s1.leaveClose n bit
    else s1
  else s

/-- Every member of a closing set has reached step 5 (R77). -/
def State.allSettled (s : State) (ms : List Nat) : Bool := (s.closingOf ms).all (fun m => (s.fab.fence m).settled)

/-- One member becomes FENCED, with event 0x0D01 (R73 step 5, R78, R79). -/
def State.becomeFenced (s : State) (n : Nat) : State :=
  let x := s.fab.fence n
  let dt := s.now - x.start
  ((((s.modFence n (fun y => { y with members := [], resetFrom := s.now, closedAt := s.now })).setRegState n 4).wr (regObj n) 8 dt).wr (regObj n) 0xA
    (if x.forcedClose then 3 else 1)).raise 0x0D01 1 0 (locRegion n) [(20, 2, s.reasons n), (24, 8, dt)]

/-- Border channels of a member not yet closed and not at rest (R75). -/
def State.restless (s : State) (n : Nat) : List Nat :=
  let x := s.fab.fence n
  (s.borderChannels x.members n).filter (fun ch => !x.closed.contains ch && !s.chanAtRest ch)

/-- The lowest of a list of identifiers, or 0 (R566). -/
def lowest : List Nat → Nat
  | [] => 0
  | [a] => a
  | a :: l => min a (lowest l)

/-- A close is abandoned for one member with event 0x0D03 (R75). -/
def State.abandonOne (s : State) (n : Nat) : State :=
  let bits := s.abandonBits n
  let rest := s.restless n
  (s.closeDrop n).raise 0x0D03 1 1 (locRegion n) [(20, 2, bits), (22, 2, rest.length), (24, 4, lowest rest)]

end Sys2Proof.Machine
end

