-- ==== Sys2Proof/Machine/Mem.lean ====
section
/-! DEFINITION. Device physical memory (R228 to R230, R237, R254, R262): decoding of addresses, words stored and read and the errors they
meet, the columns that a request takes, and whether a request of a port of the controller's own die may be served. -/

namespace Sys2Proof.Machine

/-- INTERLEAVE of the full bitstream (R230). -/
def State.interleave (s : State) : Bool := decide (s.rd 0x4000 2 = 1)

/-- Stack of a physical address (R230). -/
def State.stackOf (s : State) (p : Nat) : Nat := if s.interleave then fieldAt p 12 1 else fieldAt p 34 1

/-- Stack address A of a physical address (R230). -/
def State.stackAddr (s : State) (p : Nat) : Nat :=
  if s.interleave then (p >>> 13) % 2 ^ 22 * 4096 + p % 4096 else p % 2 ^ 34

/-- Pseudo-channel of a stack address (R230). -/
def pcOf (a : Nat) : Nat := fieldAt a 8 5

/-- Row of a stack address, and its bank (R230). -/
def rowOf (a : Nat) : Nat := fieldAt a 21 13
/-- Bank of a stack address (R230). -/
def bankOf (a : Nat) : Nat := fieldAt a 13 6

/-- The channel of a word's pseudo-channel is offline (R253), or its stack has failed (R256). -/
def State.wordOffline (s : State) (p : Nat) : Bool :=
  let d := s.stackOf p
  (s.rd (0x4010 + d) 0xD).testBit (pcOf (s.stackAddr p) / 2) || decide (s.rd (0x4010 + d) 1 = 4)

/-- Where the octet at a physical address is stored: `2 ^ 34` × stack + A (R230). -/
def State.memKey (s : State) (p : Nat) : Nat := 2 ^ 34 * s.stackOf p + s.stackAddr p

/-- The physical address of an octet stored under a key: the decoding of R230 backwards. -/
def State.memPhys (s : State) (k : Nat) : Nat :=
  if s.interleave then k % 2 ^ 34 / 4096 * 8192 + k / 2 ^ 34 * 4096 + k % 4096 else k

/-- The 16 octets of a word of memory as a number; an octet not listed is 0 (R256). -/
def memData (m : SMap Byte) (p : Nat) : Nat → Nat
  | 0 => 0
  | k + 1 => memData m p k ||| (m.get (fun _ => 0) (p + k)).toNat <<< (8 * k)

/-- The word stored under a key: LAST, U0 and U1 are never stored (R237). -/
def MemSt.load (m : MemSt) (p : Nat) : Word :=
  ⟨BitVec.ofNat 128 (memData m.bytes p 16), false, m.poison.get (fun _ => false) (p / 16), false, false⟩

/-- Octets stored in memory from a key on. -/
def putBytes (m : SMap Byte) (p : Nat) : List Byte → SMap Byte
  | [] => m
  | b :: l => putBytes (m.put (fun _ => 0) p b) (p + 1) l

/-- A word stored under a key, with its POISON (R237) and without an error (R254). -/
def MemSt.store (m : MemSt) (p : Nat) (w : Word) : MemSt :=
  { m with bytes := putBytes m.bytes p (octets 16 w.data.toNat), poison := m.poison.put (fun _ => false) (p / 16) w.poison,
           errs := m.errs.put (fun _ => 0) (p / 16) 0 }

/-- The error that a word's array bits hold (R254): 1 single-bit, 2 double-bit. -/
def MemSt.err (m : MemSt) (p : Nat) : Nat := m.errs.get (fun _ => 0) (p / 16)

/-- The canonical form of memory: addresses strictly rising, and no entry equal to what an unlisted address reads as. -/
def MemSt.wf (m : MemSt) : Bool :=
  m.bytes.wf (fun _ => 0) && m.poison.wf (fun _ => false) && m.errs.wf (fun _ => 0)

/-- Every listed octet, stored POISON and error under the keys that satisfy a condition is cleared: they read as zeros (R256, R261). -/
def MemSt.zero (m : MemSt) (p : Nat → Bool) : MemSt :=
  { m with bytes := m.bytes.dropKeys p, poison := m.poison.dropKeys (fun k => p (16 * k)), errs := m.errs.dropKeys (fun k => p (16 * k)) }

/-- A word read at a physical address: a word with a double-bit error carries POISON and its data are open, a single-bit error is corrected
(R254); POISON with it where its channel is offline (R238). -/
def State.memRead (s : State) (p : Nat) : Word :=
  let k := s.memKey p
  let w := s.mem.load k
  { w with data := if s.mem.err k = 2 then Config.eccData k s.dev.freeCtr else w.data,
           poison := w.poison || decide (s.mem.err k = 2) || s.wordOffline p }

/-- A word written at a physical address; a write to an offline channel is dropped (R253). -/
def State.memWrite (s : State) (p : Nat) (w : Word) : State :=
  if s.wordOffline p then s else { s with mem := s.mem.store (s.memKey p) w }

/-- Memory with a range of physical addresses zeroed (R261). -/
def State.memZero (s : State) (base size : Nat) : MemSt :=
  s.mem.zero (fun k => decide (base ≤ s.memPhys k) && decide (s.memPhys k < base + size))

/-- A controller's record (R263). -/
def ctlObj (d : Nat) : Nat := 0x4010 + d

/-- `k` corrected errors are counted, in CE_COUNT and in half-open windows of 1 s; the count that reaches CE_THRESHOLD raises event 0x0401 once
in its window (R254). -/
def State.countCorrected (s : State) (d k : Nat) : State :=
  let m := s.mem
  let w := s.now / 10 ^ 9
  let fresh := decide (m.ceStart.getD d 0 ≠ w)
  let old := if fresh then 0 else m.ceCount.getD d 0
  let raised := !fresh && m.ceRaised.getD d false
  let thr := s.rd (ctlObj d) 9
  let hit := decide (0 < k) && decide (0 < thr) && decide (thr ≤ old + k) && !raised
  let s1 := ({ s with mem := { m with ceStart := m.ceStart.set d w, ceCount := m.ceCount.set d (old + k),
                                      ceRaised := m.ceRaised.set d (raised || hit) } } : State).bump (ctlObj d) 8 4 k
  if hit then s1.raise 0x0401 3 1 (ctlObj d) [(24, 4, max thr (old + 1))] else s1

/-- An uncorrectable word is counted, recorded and reported (R254). -/
def State.countUncorrectable (s : State) (port addr : Nat) : State :=
  let d := s.stackOf addr
  (((s.bump (ctlObj d) 0xA 4 1).wr (ctlObj d) 0xB addr)).raise 0x0402 3 2 (ctlObj d) [(20, 1, port), (24, 8, addr)]

/-- The words that a read of a port returns are checked (R254): what their array bits hold is counted. -/
def State.readCheck (s : State) (port : Nat) (ps : List Nat) : State :=
  s.each (fun t p =>
    if t.wordOffline p then t
    else if t.mem.err (t.memKey p) = 1 then t.countCorrected (t.stackOf p) 1
    else if t.mem.err (t.memKey p) = 2 then t.countUncorrectable port p
    else t) ps

/-- A pseudo-channel's state. -/
def State.pc (s : State) (c : Nat) : PcSt := s.mem.pcs.get (fun _ => {}) c
/-- Set a pseudo-channel's state. -/
def State.setPc (s : State) (c : Nat) (x : PcSt) : State := { s with mem := { s.mem with pcs := s.mem.pcs.put (fun _ => {}) c x } }
/-- The pseudo-channel that serves a physical address (R230). -/
def State.pcAt (s : State) (p : Nat) : Nat := 32 * s.stackOf p + pcOf (s.stackAddr p)

/-- Key of a pseudo-channel's count of a class for an account (R262). -/
def pcKey (c acct cls : Nat) : Nat := (c * 16 + acct) * 8 + (cls - 0x12)

/-- `k` events of a class on a pseudo-channel count for an account (R262, R340). -/
def State.pcCount (s : State) (c acct cls k : Nat) : State :=
  let a := pcKey c acct cls
  { s with mem := { s.mem with meter := s.mem.meter.put (fun _ => 0) a (s.mem.meter.get (fun _ => 0) a + k) } }

/-- A bank's row is opened for an account: an activate, with a precharge before it where another row is open (R243, R262). -/
def State.openRow (s : State) (c acct bank row : Nat) : State :=
  let x := s.pc c
  match cellsFind x.rows bank with
  | some r => if r = row then s
    else ((s.setPc c { x with rows := cellsInsert x.rows bank row }).pcCount c acct 0x15 1).pcCount c acct 0x12 1
  | none => (s.setPc c { x with rows := cellsInsert x.rows bank row }).pcCount c acct 0x12 1

/-- Open rows of a pseudo-channel are closed for an account (R248, R252). -/
def State.closeRows (s : State) (c acct : Nat) (p : Nat → Bool) : State :=
  let x := s.pc c
  (s.setPc c { x with rows := x.rows.filter (fun r => !p r.1) }).pcCount c acct 0x15 (x.rows.filter (fun r => p r.1)).length

/-- A pseudo-channel is busy now: one in power-down wakes (R257). -/
def State.pcTouch (s : State) (c : Nat) : State :=
  let s1 := s.setPc c { s.pc c with idleFrom := s.now }
  if s.rd (0x4300 + c) 1 = 3 then s1.wr (0x4300 + c) 1 0 else s1

/-- A column of 32 bytes is read or written for an account (R262). -/
def State.pcColumn (s : State) (acct : Nat) (write : Bool) (p : Nat) : State :=
  let c := s.pcAt p
  let a := s.stackAddr p
  if s.wordOffline p then s
  else ((s.pcTouch c).openRow c acct (bankOf a) (rowOf a)).pcCount c acct (if write then 0x14 else 0x13) 1

/-- A list of words' columns, those that follow in one column taken together (R243). -/
def columnsOf : List Nat → List Nat
  | [] => []
  | [p] => [p / 32]
  | p :: q :: l => if p / 32 = q / 32 then columnsOf (q :: l) else p / 32 :: columnsOf (q :: l)

/-- Words that port 32 to 35 reads or writes at physical addresses, for an account: within one command they are admitted, issued and, if they
are read, checked (R254, R262, notes/assumptions/180.md). -/
def State.pcWords (s : State) (acct port : Nat) (write : Bool) (ps : List Nat) : State :=
  let t := s.each (fun t c => t.pcColumn acct write (32 * c)) (columnsOf ps)
  if write then t else t.readCheck port ps

/-- Octets of a stack that lie below a physical address (R230). -/
def State.stackBelow (s : State) (d p : Nat) : Nat :=
  if s.interleave then p / 8192 * 4096 + min 4096 (p % 8192 - 4096 * d) else min (2 ^ 34) (p - 2 ^ 34 * d)

/-- 256-byte blocks of a pseudo-channel among the first `k` of its stack (R230). -/
def blocksOf (c k : Nat) : Nat := (k + 31 - c % 32) / 32

/-- A whole range of physical addresses is read or written once, for an account (R255, R256, R261): the columns of each
pseudo-channel, and an activate and a precharge for each row of each bank. -/
def State.pcSweep (s : State) (acct : Nat) (write : Bool) (base size : Nat) : State :=
  s.each (fun t c =>
    let a := t.stackBelow (c / 32) base
    let b := t.stackBelow (c / 32) (base + size)
    let cols := 8 * (blocksOf c (b / 256) - blocksOf c (a / 256))
    let rows := min cols (64 * ((b - 1) / 2 ^ 21 - a / 2 ^ 21 + 1))
    if cols = 0 ∨ (t.rd (0x4010 + c / 32) 0xD).testBit (c % 32 / 2) = true ∨ t.rd (0x4010 + c / 32) 1 = 4 then t
    else ((t.pcCount c acct 0x12 rows).pcCount c acct 0x15 rows).pcCount c acct (if write then 0x14 else 0x13) cols)
    (List.range 64)

/-- A channel's parity replay is in progress (R252). -/
def State.parityBusy (s : State) (c : Nat) : Bool := decide (s.mem.replaying.get (fun _ => 0) (c / 2) ≠ 0)

/-- A fixed loop clocks its block: LOCKED, and not under test, where its consumers are not connected (R192 to R194, R537). -/
def State.loopClocks (s : State) (d n : Nat) : Bool :=
  decide (s.rd (0xA010 + 16 * d + n) 2 = 2) && !s.unitHeld (unitKey 6 (16 * d + n))

/-- A controller serves requests (R256, R258): its stack is trained and out of self-refresh, and the Annulus of its die is clocked. -/
def State.annulusOn (s : State) (d : Nat) : Bool :=
  decide (s.rd (ctlObj d) 1 ≠ 0) && decide (s.rd (ctlObj d) 1 ≠ 2) && s.loopClocks d 2

/-- A physical address lies in a window that is being zeroed (R261). -/
def State.inZeroing (s : State) (p : Nat) : Bool :=
  s.mem.zeroing.any (fun z => decide (s.rd (0x4200 + z.1) 2 ≤ p) && decide (p < s.rd (0x4200 + z.1) 2 + s.rd (0x4200 + z.1) 3))

/-- A command of a port that is not real-time may be admitted and issued for the word at a physical address now (R241 to R244, R248, R252, R256,
R258, R261): no zeroing of its window runs, its controller serves requests, its pseudo-channel has room, calls for no refresh before it and is
not in a parity replay. One for an offline channel needs none of these but the first two. -/
def State.memServes (s : State) (p : Nat) : Bool :=
  let c := s.pcAt p
  let q := (s.pc c).queue
  !s.inZeroing p && s.annulusOn (s.stackOf p) &&
    (s.wordOffline p || (decide (q.length < 64) && decide ((q.filter (fun m => !m.rt)).length < 48)
      && decide (s.rd (0x4300 + c) 1 ≠ 1) && decide (s.rd (0x4300 + c) 1 ≠ 2) && !s.parityBusy c))

end Sys2Proof.Machine
end

