-- ==== Sys2Proof/Machine/Queue.lean ====
section
/-! DEFINITION. Operations on Locus queues (R205 to R226, R564): levels, storage and spill, batches, read order, watermarks,
discards and flushes. A queue is named by its die and number. -/

namespace Sys2Proof.Machine

/-- A queue's runtime state. -/
def State.q (s : State) (d q : Nat) : QueueSt := s.loc.queues.get (fun _ => {}) (512 * d + q)
/-- Set a queue's runtime state. -/
def State.setQ (s : State) (d q : Nat) (x : QueueSt) : State :=
  { s with loc := { s.loc with queues := s.loc.queues.put (fun _ => {}) (512 * d + q) x } }
/-- A write port's state. -/
def State.lport (s : State) (d p : Nat) : LPortSt := s.loc.ports.get (fun _ => {}) (128 * d + p)
/-- Set a write port's state. -/
def State.setLport (s : State) (d p : Nat) (x : LPortSt) : State :=
  { s with loc := { s.loc with ports := s.loc.ports.put (fun _ => {}) (128 * d + p) x } }

/-- A value of a queue record (R226). -/
def State.qo (s : State) (d q sub : Nat) : Nat := s.rd (queueObj d q) sub
/-- Region number of a Locus port (R205). -/
def portRegion (d p : Nat) : Nat := 32 * d + p / 4

/-- Words written to or read from a queue count for the account of its owner (R340). -/
def State.locCount (s : State) (d q k : Nat) : State :=
  let a := 16 * d + accountOf (s.qo d q 1)
  { s with loc := { s.loc with meter := s.loc.meter.put (fun _ => 0) a (s.loc.meter.get (fun _ => 0) a + k) } }

/-- Kind of a PRODUCER or CONSUMER value (R208). -/
def kindOf (v : Nat) : Nat := v / 4096
/-- Number of a PRODUCER or CONSUMER value (R208). -/
def numOf (v : Nat) : Nat := v % 4096

/-- A kind 1 port of a queue lies in an UNCONFIGURED region or one of another owner (R564). -/
def State.portAway (s : State) (d q v : Nat) : Bool :=
  decide (kindOf v = 1) &&
    (decide (s.regState (portRegion d (numOf v)) = 0) || decide (s.regOwner (portRegion d (numOf v)) ≠ s.qo d q 1))

/-- STATE of a queue: 0 UNUSED, 1 RUNNING, 2 INERT, 3 FLUSHING (R226, R564). -/
def State.qState (s : State) (d q : Nat) : Nat :=
  if s.qo d q 2 = 1 ∧ (s.portAway d q (s.qo d q 3) || s.portAway d q (s.qo d q 4)) = true then 2 else s.qo d q 2

/-- LEVEL_WORDS: words held, a partly written item included (R218). -/
def QueueSt.words (x : QueueSt) : Nat :=
  (x.items.map (fun i => i.words.length)).foldl (· + ·) 0 + (match x.part with | some (ws, _) => ws.length | none => 0)
/-- LEVEL_ITEMS: items held, a partly written item included (R226). -/
def QueueSt.level (x : QueueSt) : Nat := x.items.length + (match x.part with | some _ => 1 | none => 0)
/-- Words of the spill part that hold items. -/
def QueueSt.spillUsed (x : QueueSt) : List Nat := x.items.flatMap (fun i => i.spill)
/-- Words of items held in spill. -/
def QueueSt.spilled (x : QueueSt) : Nat := x.spillUsed.length
/-- Words of complete items held on-die. -/
def QueueSt.onDie (x : QueueSt) : Nat := (x.items.map (fun i => i.words.length - i.spill.length)).foldl (· + ·) 0

/-- The first `k` numbers from `i` on that a list does not hold; the first argument bounds the numbers tried. -/
def freeSpots (used : List Nat) : Nat → Nat → Nat → List Nat
  | 0, _, _ => []
  | _, _, 0 => []
  | fuel + 1, i, k + 1 => if used.contains i then freeSpots used fuel (i + 1) (k + 1) else i :: freeSpots used fuel (i + 1) k

/-- Where an item of `k` words is stored (R216): on-die where QUOTA has room for it, else whole in the spill part where that has; else, so that
neither part holds more than its words, its last words that QUOTA has no room for (notes/assumptions/177.md). -/
def QueueSt.spillFor (x : QueueSt) (quota spill k : Nat) : List Nat :=
  if x.onDie + k ≤ quota then []
  else freeSpots x.spillUsed (x.spilled + k) 0 (if x.spilled + k ≤ spill then k else x.onDie + k - quota)

/-- Another word fits (R217). -/
def State.wordRoom (s : State) (d q k : Nat) : Bool := decide ((s.q d q).words + k ≤ s.qo d q 5 + s.qo d q 6)
/-- Another item fits (R217). -/
def State.itemRoom (s : State) (d q : Nat) : Bool := decide ((s.q d q).level + 1 ≤ s.qo d q 7)

/-- The queue's watermarks after a change of its level (R218). While a flush by domain reset runs they raise nothing (R223). -/
def State.watermark (s : State) (d q : Nat) : State :=
  let x := s.q d q
  let l := x.words
  if s.qo d q 2 = 3 ∧ x.flushCause = 1 then s
  else if !x.high && decide (0 < s.qo d q 9) && decide (s.qo d q 9 ≤ l) then
    (s.setQ d q { x with high := true }).raise 0x0C03 3 1 (queueObj d q) [(24, 4, l)]
  else if x.high && decide (l ≤ s.qo d q 0xA) then
    (s.setQ d q { x with high := false }).raise 0x0C04 3 0 (queueObj d q) [(24, 4, l)]
  else s

/-- Words of spill that a queue takes in a window. -/
def State.spillIn (s : State) (w d q : Nat) : Nat := if s.qo d q 0x19 = w ∧ s.qo d q 2 ≠ 0 then s.qo d q 6 else 0

/-- Words of spill that lie before a queue's spill part in its window: those of lower-numbered queues that name the same window, on either
die, the queue of die 0 before that of die 1 with its number (R215, notes/assumptions/178.md). -/
def State.spillBefore (s : State) (d q : Nat) : Nat → Nat
  | 0 => if d = 1 then s.spillIn (s.qo d q 0x19) 0 q else 0
  | k + 1 =>
    s.spillBefore d q k + (if k < q then s.spillIn (s.qo d q 0x19) 0 k + s.spillIn (s.qo d q 0x19) 1 k else 0)

/-- Physical address of a word of a queue's spill part (R215). -/
def State.spillAddr (s : State) (d q i : Nat) : Nat :=
  s.rd (winObj (s.qo d q 0x19)) 2 + 16 * (s.spillBefore d q 512 + i)

/-- Words stored at places of a queue's spill part. -/
def State.spillStore (s : State) (d q : Nat) : List Nat → List Word → State
  | i :: is, w :: l => (s.memWrite (s.spillAddr d q i) w).spillStore d q is l
  | _, _ => s

/-- Words at places of a queue's spill part are written or read through port 34, for the account of its window's owner (R233, R262). -/
def State.spillCount (s : State) (d q : Nat) (is : List Nat) (write : Bool) : State :=
  s.pcWords (accountOf (s.rd (winObj (s.qo d q 0x19)) 1)) 34 write (is.map (s.spillAddr d q))

/-- Places of a queue's spill part may be written or read now; else what needs them waits (R238, R239, R261). -/
def State.spillServes (s : State) (d q : Nat) (is : List Nat) : Bool := is.all (fun i => s.memServes (s.spillAddr d q i))

/-- A whole item of `k` words may be stored now: what QUOTA has no room for may be written to spill. -/
def State.pushServes (s : State) (d q k : Nat) : Bool :=
  s.spillServes d q ((s.q d q).spillFor (s.qo d q 5) (s.qo d q 6) k)

/-- Words that return from places of a queue's spill part: data and POISON as memory holds them, the other sideband bits as
written (R207, R216). -/
def State.spillLoad (s : State) (d q : Nat) : List Nat → List Word → List Word
  | i :: is, w :: l =>
    let m := s.memRead (s.spillAddr d q i)
    { w with data := m.data, poison := m.poison } :: s.spillLoad d q is l
  | _, _ => []

/-- The words of an item that stand on-die. -/
def QItem.kept (i : QItem) : List Word := i.words.take (i.words.length - i.spill.length)
/-- The words of an item that stand in spill, as they were written. -/
def QItem.away (i : QItem) : List Word := i.words.drop (i.words.length - i.spill.length)

/-- The words of an item as they are read. -/
def State.itemLoad (s : State) (d q : Nat) (i : QItem) : List Word := i.kept ++ s.spillLoad d q i.spill i.away

/-- Count and report each word of a list that returned from spill with POISON it was not written with (R216). -/
def State.spillPoison (s : State) (d q : Nat) : List Word → List Word → State
  | a :: l, b :: m =>
    if b.poison && !a.poison then
      let t := s.bump (0xB000 + d) 5 4 1
      (t.raise 0x0C07 3 2 (queueObj d q) [(24, 4, t.rd (0xB000 + d) 5)]).spillPoison d q l m
    else s.spillPoison d q l m
  | _, _ => s

/-- A whole item is stored in a queue (R212, R215, R216). -/
def State.pushItem (s : State) (d q : Nat) (ws : List Word) (prio : Nat) (close : Bool) : State :=
  let x := s.q d q
  let item : QItem := { words := ws, prio := prio, batch := x.batch, spill := x.spillFor (s.qo d q 5) (s.qo d q 6) ws.length }
  let closes := close || decide (s.qo d q 8 ≤ x.inBatch + 1)
  let y := { x with
    items := x.items ++ [item], batch := if closes then x.batch + 1 else x.batch, inBatch := if closes then 0 else x.inBatch + 1,
    since := if x.level = 0 then s.now else x.since }
  (((s.setQ d q y).tally (queueObj d q) 0x15 1).spillStore d q item.spill item.away).spillCount d q item.spill true

/-- A producer other than a tagged port writes a whole item that closes its own batch (R208); none when it does not fit. -/
def State.putItem (s : State) (d q : Nat) (ws : List Word) (prio : Nat) : Option State :=
  if decide (s.qState d q = 1) && s.wordRoom d q ws.length && s.itemRoom d q && s.pushServes d q ws.length then
    some (((s.pushItem d q ws prio true).watermark d q).locCount d q ws.length)
  else none

/-- The lowest batch among items. -/
def minBatch : List QItem → Nat
  | [] => 0
  | [i] => i.batch
  | i :: l => min i.batch (minBatch l)

/-- The highest priority among items. -/
def maxPrio : List QItem → Nat
  | [] => 0
  | i :: l => max i.prio (maxPrio l)

/-- The item that the read channel presents next (R213): in the oldest closed batch, the highest priority, first written. -/
def QueueSt.nextItem (x : QueueSt) : Option QItem :=
  let b := minBatch x.items
  if b < x.batch then
    let l := x.items.filter (fun i => decide (i.batch = b))
    l.find? (fun i => decide (i.prio = maxPrio l))
  else none

/-- The list without the first item equal to one. -/
def dropItem (i : QItem) : List QItem → List QItem
  | [] => []
  | j :: l => if j = i then l else j :: dropItem i l

/-- An item leaves a queue: its words as they return, the queue without it. -/
def State.takeItem (s : State) (d q : Nat) (i : QItem) : List Word × State :=
  let x := s.q d q
  let ws := s.itemLoad d q i
  let s1 := (s.spillCount d q i.spill false).setQ d q { x with items := dropItem i x.items }
  (ws, (s1.spillPoison d q i.words ws).locCount d q i.words.length)

/-- A completed read or handoff (R219, R226): the interval starts again. -/
def State.readDone (s : State) (d q : Nat) : State :=
  let x := s.q d q
  (s.setQ d q { x with since := s.now, fired := false }).tally (queueObj d q) 0x16 1

/-- No notify token of an earlier firing stands, and its channel is at rest (R220, R45). -/
def State.notifyRest (s : State) (d q : Nat) : Bool :=
  let p := numOf (s.qo d q 4)
  let n := portRegion d p
  decide (kindOf (s.qo d q 4) ≠ 1) || (!s.fab.bitOut n (20 + p % 4) && !s.fab.ack (.site n (20 + p % 4)))

/-- The idle timeout is due (R219): it has run for TIMEOUT ns and has not yet fired, and no notify token stands (R220). -/
def State.timeoutDue (s : State) (d q : Nat) : Bool :=
  let x := s.q d q
  decide (s.qState d q = 1) && decide (s.qo d q 0xE ≠ 0) && decide (s.qo d q 0x11 ≠ 2) && decide (0 < x.level)
    && decide (x.since + s.qo d q 0xE ≤ s.now) && !x.fired && !x.waiting
    && s.notifyRest d q

/-- The queue whose item a write port is at. -/
def State.portItem (s : State) (d p : Nat) : Option Nat := (s.lport d p).tag.map (fun t => t.1)

/-- A write port loses the item that it is at, without a status token (R224): the words still to come are dropped up to LAST, those of an item
of which only the tag has come too. ABORTED of its queue counts it. -/
def State.resetWritePort (s : State) (d p : Nat) : State :=
  match s.portItem d p with
  | none => s
  | some q =>
    let t := (s.setQ d q { s.q d q with part := none }).bump (queueObj d q) 0x17 4 1
    (t.watermark d q).setLport d p { tag := none, drop := some 0 }

/-- A flush starts (R222 step 1). A domain reset clears the watermark state first (R223). -/
def State.flushStart (s : State) (d q cause : Nat) : State :=
  if s.qo d q 2 = 0 then s
  else
    let x := s.q d q
    (s.setQ d q { x with flushCause := cause, high := if cause = 1 then false else x.high }).wr (queueObj d q) 2 3

/-- The write ports of a die that are at an item of a queue. -/
def State.writersOf (s : State) (d q : Nat) : List Nat :=
  (s.loc.ports.keysWhere (fun k x => decide (k / 128 = d) && (match x.tag with | some (a, _) => decide (a = q) | none => false))).map
    (fun k => k % 128)

/-- A flush completes (R222 steps 2 to 5). The port that is writing an item drops the words still to come; it may be another than PRODUCER
names since a commit. -/
def State.flushEnd (s : State) (d q : Nat) : State :=
  let x := s.q d q
  let nWords := (x.items.map (fun i => i.words.length)).foldl (· + ·) 0
  let s1 := s.setQ d q { x with items := [], inBatch := 0, batch := x.batch + 1, fired := false, waiting := false, part := none, shown := [] }
  let s2 := match x.part with
    | none => s1
    | some _ => (s1.bump (queueObj d q) 0x17 4 1).each (fun t p => t.setLport d p { tag := none, drop := some 1 }) (s.writersOf d q)
  let s3 := s2.wr (queueObj d q) 2 1
  let s4 := s3.raise 0x0C02 3 0 (queueObj d q)
    [(20, 1, x.flushCause), (21, 1, x.part.isSome.toNat), (24, 4, x.items.length), (28, 4, nWords)]
  s4.watermark d q

/-- Every queue, as die and number, that a domain owns. -/
def State.queuesOf (s : State) (owner : Nat) : List (Nat × Nat) :=
  ((List.range 1024).filter (fun k => decide (s.qo (k / 512) (k % 512) 2 ≠ 0) && decide (s.qo (k / 512) (k % 512) 1 = owner))).map
    (fun k => (k / 512, k % 512))

end Sys2Proof.Machine
end

