-- ==== Sys2Proof/Machine/Stream.lean ====
section
/-! DEFINITION. Log and replay streams (R152 to R162): records, sequence numbers, stalls, the record at the head of a replay
queue, and the check of a region's queues. -/

namespace Sys2Proof.Machine

/-- Number of a stream: regions 0 to 63, queues 64 to 1087, windows from 1088. -/
def streamKey : Stream → Nat
  | .region r => rn r
  | .queue d q => 64 + 512 * d.val + q.val
  | .window w => 1088 + w.val

/-- A stream's state. -/
def State.stream (s : State) (k : Nat) : StreamSt := s.fab.streams.get (fun _ => {}) k
/-- Set a stream's state. -/
def State.setStream (s : State) (k : Nat) (x : StreamSt) : State :=
  { s with fab := { s.fab with streams := s.fab.streams.put (fun _ => {}) k x } }

/-- Die of a stream's queues: the region's or queue's die, or the die that owns the window's stack (R152, R242). -/
def State.streamDie (s : State) (k : Nat) : Nat :=
  if k < 64 then k / 32 else if k < 1088 then (k - 64) / 512 else s.stackOf (s.rd (winObj (k - 1088)) 2)

/-- The log queue that a stream names; 0xFFFF none (R169, R226, R263). -/
def State.logQueue (s : State) (k : Nat) : Nat :=
  if k < 64 then s.rd (detObj k) 1 else if k < 1088 then s.rd (0xB100 + (k - 64)) 0x12 else s.rd (winObj (k - 1088)) 8
/-- The replay queue that a stream names; 0xFFFF none. -/
def State.replayQueue (s : State) (k : Nat) : Nat :=
  if k < 64 then s.rd (detObj k) 2 else if k < 1088 then s.rd (0xB100 + (k - 64)) 0x13 else s.rd (winObj (k - 1088)) 9

/-- LUs of a region in MX mode with ARB `a` (R149). -/
def State.mxPoints (s : State) (n a : Nat) : List Nat :=
  s.fab.lus.keysWhere (fun u x => decide (u / 16384 = n) &&
    (match x.cfg with | some c => decide (c.mode = 3) && decide (c.arb = a) | none => false))

/-- The stream logs decisions: an MX LU with ARB 01 or SITE_MODE 1, TO_MODE 1, or ORDER_MODE 1 (R149, R221, R242). -/
def State.logging (s : State) (k : Nat) : Bool :=
  if k < 64 then decide (s.rd (detObj k) 3 = 1) || !(s.mxPoints k 1).isEmpty
  else if k < 1088 then decide (s.rd (0xB100 + (k - 64)) 0x11 = 1) else decide (s.rd (winObj (k - 1088)) 7 = 1)
/-- The stream replays decisions. -/
def State.replaying (s : State) (k : Nat) : Bool :=
  if k < 64 then decide (s.rd (detObj k) 3 = 2) || !(s.mxPoints k 2).isEmpty
  else if k < 1088 then decide (s.rd (0xB100 + (k - 64)) 0x11 = 2) else decide (s.rd (winObj (k - 1088)) 7 = 2)

/-- A log record (R153). -/
def logRecord (kind source seq decision : Nat) : Word :=
  ⟨BitVec.ofNat 128 (kind <<< 124 ||| source <<< 88 ||| seq <<< 64 ||| decision % 2 ^ 64), true, false, false, false⟩

/-- Location code in a stream's EPOCH record: the region's, or the die's at LEVEL 3 (R153, R221, R242). -/
def State.epochSource (s : State) (k : Nat) : Nat := if k < 64 then locRegion k else locDie (s.streamDie k)

/-- The sequence number of a source. -/
def seqOf (l : List (Nat × Nat)) (src : Nat) : Nat := (cellsFind l src).getD 0

/-- A stream's log port can write at all: its log queue is named and passed the check of R162. -/
def State.logOpen (s : State) (k : Nat) : Bool := decide (s.logQueue k < 512) && !(s.stream k).logFailed

/-- A stream stalls on a record of a KIND (R157). -/
def State.stallMark (s : State) (k kind : Nat) : State :=
  let x := s.stream k
  match x.stalledAt with
  | some _ => s
  | none => if s.logOpen k then s.setStream k { x with stalledAt := some (kind, s.now) } else s

/-- The EPOCH records that a stream still owes are written, oldest first, as far as its log port takes them (R154, R155). -/
def State.epochWrite (s : State) (k : Nat) : List Nat → State
  | [] => s
  | t :: l =>
    match s.putItem (s.streamDie k) (s.logQueue k) [logRecord 0 (s.epochSource k) 0 t] 0 with
    | none => s.stallMark k 0
    | some u =>
      let v := u.setStream k { u.stream k with epochDue := l, stalledAt := none, stallRaised := false }
      (if k < 64 then v.bump (detObj k) 4 4 1 else v).epochWrite k l

/-- What a stream owes is written, where its log port can write. -/
def State.epochFlush (s : State) (k : Nat) : State := if s.logOpen k then s.epochWrite k (s.stream k).epochDue else s

/-- A decision waits for its stream's log queue (R155, R157): an EPOCH record before it may still pass, and the stall begins. -/
def State.logWait (s : State) (k kind : Nat) : State := (s.epochFlush k).stallMark k kind

/-- A record is accepted by its stream's log port after the EPOCH records before it, or nothing is (R154, R155). -/
def State.logPut (s : State) (k kind source decision : Nat) : Option State :=
  let s1 := s.epochFlush k
  let x := s1.stream k
  if !s.logOpen k || !x.epochDue.isEmpty then none
  else
    match s1.putItem (s.streamDie k) (s.logQueue k) [logRecord kind source (seqOf x.seqs source % 2 ^ 24) decision] 0 with
    | none => none
    | some s2 =>
      let s3 := s2.setStream k { x with seqs := cellsInsert x.seqs source (seqOf x.seqs source + 1), stalledAt := none, stallRaised := false }
      some (if k < 64 then s3.bump (detObj k) 4 4 1 else s3)

/-- The cycle counter of a user site restarts (R154). -/
def State.cyclesZero (s : State) (j : Nat) : State :=
  { s with cell := { s.cell with recs := s.cell.recs.put (fun _ => {}) j { s.cell.recs.get (fun _ => {}) j with cycles := 0 } } }

/-- A start point of a stream that logs or replays (R154): its counters restart, those of a region's user sites among them, and an
EPOCH record is written, behind those that still wait (R155). -/
def State.epoch (s : State) (k : Nat) : State :=
  let x := s.stream k
  let owed := !x.epochDue.isEmpty
  let s0 := s.setStream k { epochDue := if s.logging k then x.epochDue ++ [s.now] else x.epochDue,
                            stalledAt := if owed then x.stalledAt else none, stallRaised := owed && x.stallRaised,
                            logFailed := x.logFailed, repFailed := x.repFailed }
  let s1 := if k < 64 then
      (((s0.wr (detObj k) 4 0).wr (detObj k) 5 0).cyclesZero (64 * (k / 32) + 2 * (k % 32))).cyclesZero (64 * (k / 32) + 2 * (k % 32) + 1)
    else s0
  s1.epochFlush k

/-- The streams that owe an EPOCH record write it once there is room. -/
def State.epochsFlush (s : State) : State := s.each State.epochFlush (s.fab.streams.keysWhere (fun _ x => !x.epochDue.isEmpty))

/-- The record at the head of a stream's replay queue. -/
def State.replayPeek (s : State) (k : Nat) : Option Nat :=
  let d := s.streamDie k
  let q := s.replayQueue k
  if q ≥ 512 ∨ s.qState d q ≠ 1 then none
  else (s.q d q).nextItem.map (fun i => (((s.takeItem d q i).1).headD Word.zero).data.toNat)

/-- KIND, SOURCE, SEQ and DECISION of a record (R153). -/
def recKind (w : Nat) : Nat := fieldAt w 124 4
/-- SOURCE of a record. -/
def recSource (w : Nat) : Nat := fieldAt w 88 32
/-- SEQ of a record. -/
def recSeq (w : Nat) : Nat := fieldAt w 64 24
/-- DECISION of a record. -/
def recDecision (w : Nat) : Nat := w % 2 ^ 64

/-- The record at the head of a stream's replay queue once the EPOCH record has been read and while the stream goes on (R158). -/
def State.headRecord (s : State) (k : Nat) : Option Nat :=
  let x := s.stream k
  if s.replaying k && x.epochRead && !x.stopped && !x.repFailed then s.replayPeek k else none

/-- A read of a queue has completed: its stream counts it (R159, R221). -/
def State.countRead (s : State) (d q : Nat) : State :=
  let k := 64 + 512 * d + q
  let x := s.stream k
  s.setStream k { x with reads := (x.reads + 1) % 2 ^ 32 }

/-- The queue completes no read: its timeout is due or its handoff waits (R219, R220), or replay holds reads at the count of the record
at the head (R159). -/
def State.readsHeld (s : State) (d q : Nat) : Bool :=
  let k := 64 + 512 * d + q
  (s.q d q).waiting || (decide (s.qo d q 0x11 ≠ 2) && s.timeoutDue d q) ||
    (match s.headRecord k with
     | some w => decide (recKind w = 4) && decide (recSource w = q) && decide (recDecision w % 2 ^ 32 ≤ (s.stream k).reads)
     | none => false)

/-- The record at the head of a stream's replay queue is consumed: a read of that queue by its kind 5 consumer (R208, R213). -/
def State.replayTake (s : State) (k : Nat) : State :=
  let d := s.streamDie k
  let q := s.replayQueue k
  match (s.q d q).nextItem with
  | some i => if q < 512 then ((((s.takeItem d q i).2).readDone d q).countRead d q).watermark d q else s
  | none => s

/-- The record at the head of a stream's replay queue can be read now: it stands on-die or its words in spill may be read (R216, R238). -/
def State.headServes (s : State) (k : Nat) : Bool :=
  match (s.q (s.streamDie k) (s.replayQueue k)).nextItem with
  | some i => s.spillServes (s.streamDie k) (s.replayQueue k) i.spill
  | none => true

/-- Key of a decision handed to a choice point: its KIND and SOURCE. -/
def readyKey (kind source : Nat) : Nat := kind <<< 32 ||| source

/-- The decision handed to a choice point, if it is the one whose record is at the head (R158), while the replay queue completes reads
(R219). -/
def State.decision (s : State) (k kind source : Nat) : Option Nat :=
  match (s.stream k).ready with
  | some (key, v) => if key = readyKey kind source ∧ s.readsHeld (s.streamDie k) (s.replayQueue k) = false ∧ s.headServes k = true then some v else none
  | none => none

/-- Source class and index of a stream's events (R170). -/
def streamIndex (k : Nat) : Nat × Nat :=
  if k < 64 then (1, locRegion k) else if k < 1088 then (3, 0xB100 + (k - 64)) else (3, winObj (k - 1088))

/-- A replayed decision has been taken: its record is consumed (R158, R169). -/
def State.decided (s : State) (k : Nat) : State :=
  let t := s.replayTake k
  let x := t.stream k
  let src := (x.ready.getD (0, 0)).1 % 2 ^ 32
  let s1 := t.setStream k { x with
    ready := none, headSince := none, headRaised := false, exhausted := false,
    rseqs := cellsInsert x.rseqs src (seqOf x.rseqs src + 1) }
  if k < 64 then s1.bump (detObj k) 5 4 1 else s1

/-- The stream stops replaying on a head record that does not fit, with event 0x0D13 (R161, R162). -/
def State.replayMismatch (s : State) (k w : Nat) : State :=
  (s.setStream k { s.stream k with stopped := true, ready := none }).raise 0x0D13 (streamIndex k).1 2 (streamIndex k).2
    [(20, 4, recSource w), (24, 1, recKind w), (25, 3, recSeq w)]

/-- The producer of a replay queue is detached (R161). -/
def State.producerDetached (s : State) (d q : Nat) : Bool :=
  let v := s.qo d q 3
  if kindOf v = 0 then true
  else if kindOf v = 4 then
    decide (s.rd (engObj (numOf v)) 2 = 0xFFFF) ||
      decide ((s.host.engines.get (fun _ => {}) (numOf v)).state = 0) || decide ((s.host.engines.get (fun _ => {}) (numOf v)).state = 2)
  else if kindOf v = 1 then decide (s.regState (portRegion d (numOf v)) ≠ 2)
  else false

/-- A queue is named by a REPLAY_QUEUE object other than the stream's own (R208 kind 5). -/
def State.otherReplay (s : State) (k d q : Nat) : Bool :=
  (List.range 1152).any (fun j => decide (j ≠ k) && decide (s.replayQueue j = q) && decide (s.streamDie j = d))
/-- A queue is named by a LOG_QUEUE object other than the stream's own. -/
def State.otherLog (s : State) (k d q : Nat) : Bool :=
  (List.range 1152).any (fun j => decide (j ≠ k) && decide (s.logQueue j = q) && decide (s.streamDie j = d))

/-- Failure of the check of one queue of a region stream (R162): 1 missing, 2 wrong owner, 3 taken by another. -/
def State.queueFault (s : State) (n q : Nat) (log : Bool) : Nat :=
  let d := dieOf n
  if q ≥ 512 ∨ s.qo d q 2 = 0 then 1
  else if s.qo d q 1 ≠ s.regOwner n then 2
  else if log then
    (if (kindOf (s.qo d q 3) ≠ 0 ∧ kindOf (s.qo d q 3) ≠ 2) ∨ s.otherLog n d q = true then 3 else 0)
  else (if (kindOf (s.qo d q 4) ≠ 0 ∧ kindOf (s.qo d q 4) ≠ 5) ∨ s.otherReplay n d q = true then 3 else 0)

/-- The check of a region stream at GSR release and at fence opening (R162): of its log queue where it logs, of its replay queue where
it replays, each for the choice points that need it. -/
def State.streamCheck (s : State) (n : Nat) : State :=
  let lf := if s.logging n then s.queueFault n (s.logQueue n) true else 0
  let rf := if s.replaying n then s.queueFault n (s.replayQueue n) false else 0
  let s1 := s.setStream n { s.stream n with logFailed := decide (lf ≠ 0), repFailed := decide (rf ≠ 0) }
  let s2 := if lf ≠ 0 then s1.raise 0x0D15 1 2 (locRegion n) [(20, 1, lf), (22, 2, s.logQueue n)] else s1
  if rf ≠ 0 then s2.raise 0x0D15 1 2 (locRegion n) [(20, 1, rf), (22, 2, s.replayQueue n)] else s2

/-- The first record of a replay queue must be the EPOCH record: it is consumed, and any other head, one of another
SOURCE included, stops the stream (R161, R162). -/
def State.replayEpoch (s : State) (k w : Nat) : State :=
  if recKind w = 0 ∧ recSource w = s.epochSource k then
    let t := s.replayTake k
    let t1 := t.setStream k { t.stream k with epochRead := true }
    if k < 64 then t1.bump (detObj k) 5 4 1 else t1
  else s.replayMismatch k w

/-- At fence opening the region's replay begins with the EPOCH record (R162). -/
def State.replayOpen (s : State) (n : Nat) : State :=
  if s.replaying n && !(s.stream n).epochRead && !(s.stream n).repFailed && !s.readsHeld (s.streamDie n) (s.replayQueue n) && s.headServes n then
    match s.replayPeek n with
    | none => s
    | some w => s.replayEpoch n w
  else s

/-- A reason bit is cleared by its agent (R72). When the fence opens, the region's stream is checked and its replay begins
(R162), and a DELAY_MON self-test of the region ends (R537). -/
def State.clearReason (s : State) (n bit : Nat) : State :=
  let t := s.fenceClear n bit
  if s.regState n = 4 ∧ t.regState n = 2 then ((t.unitRequest (unitKey 9 n)).streamCheck n).replayOpen n else t

end Sys2Proof.Machine
end

