-- ==== Sys2Proof/Machine/Cells.lean ====
section
/-! DEFINITION. Tangent cells and their sites (R171 to R189, R205, R270, R314, R485, R514): where a site lies, what its cell
holds, the logging of a crossing, and the reset of a cell. -/

namespace Sys2Proof.Machine

/-- Region number of a site. -/
def siteRegion : Site → Nat
  | .user d s => 32 * d.val + s.val / 2
  | .lane d l _ => 32 * d.val + 24 + l.val
  | .host h => h.val
  | .memory d p => 32 * d.val + p.val
  | .object d server => 32 * d.val + server.toNat
  | .pin c => 32 * (c.val / 20) + c.val % 20

/-- Word slot of a site, towards the island; a pin crossing's reader is in slot 7 (R185, R188, R270, R314, R485, R514). -/
def siteSlot : Site → Nat
  | .user _ s => 14 + s.val % 2
  | .lane _ _ k => k.val
  | .host _ => 5
  | .memory _ _ => 12
  | .object _ _ => 6
  | .pin _ => 3

/-- Number of a site's cell record. -/
def siteNum : Site → Nat
  | .user d s => 64 * d.val + s.val
  | .lane d l k => 128 + 32 * d.val + 4 * l.val + k.val
  | .host h => 192 + h.val
  | .memory d p => 224 + 32 * d.val + p.val
  | .object d server => 288 + 2 * d.val + server.toNat
  | .pin c => 292 + c.val

/-- Object index of a user site's record. -/
def siteObj (d s : Nat) : Nat := 0xA100 + 64 * d + s

/-- A cell's state. -/
def State.cellAt (s : State) (k : Nat) : CellRec := s.cell.recs.get (fun _ => {}) k
/-- Set a cell's state. -/
def State.setCell (s : State) (k : Nat) (x : CellRec) : State :=
  { s with cell := { s.cell with recs := s.cell.recs.put (fun _ => {}) k x } }

/-- Site control word of a user site; fixed sites have none (R188). -/
def State.siteCfg (s : State) : Site → Nat
  | .user d k => s.rd (siteObj d.val k.val) 1
  | _ => 0

/-- One token leaves a region on an outbound border channel: a paced region draws it from its bucket, which PACE_LIMIT
refills and which holds one microsecond's worth, at least one token (R352). The bucket counts in units of 10^-9 token. -/
def State.paceTake (s : State) (n : Nat) : Option State :=
  let rate := s.rd (enObj n) 5
  if rate = 0 then some s
  else
    let (lvl, last) := s.fab.pace.get (fun _ => (0, 0)) n
    let have_ := min (max (10 ^ 9) (1000 * rate)) (lvl + rate * (s.now - last))
    if 10 ^ 9 ≤ have_ then
      some { s with fab := { s.fab with pace := s.fab.pace.put (fun _ => (0, 0)) n (have_ - 10 ^ 9, s.now) } }
    else none

/-- A word token leaves a region on a site word input: the region is not held and its pacing allows it. -/
def State.siteTake (s : State) (n slot : Nat) (w : Word) : Option State :=
  if s.siteOpen n then
    match s.fab.takeSite n slot w with
    | none => none
    | some f => ({ s with fab := f }).paceTake n
  else none

/-- A request token of any value leaves a region on a site word input. -/
def State.siteTakeAny (s : State) (n slot : Nat) : Option State :=
  match s.fab.offered (sinkSite n slot) with
  | some (_, w) => s.siteTake n slot w
  | none => s.siteTake n slot Word.zero

/-- A token leaves a region on a site bit input. -/
def State.bitTake (s : State) (n slot : Nat) : Option State :=
  if s.siteOpen n then
    match s.fab.takeBit n slot with
    | none => none
    | some f => ({ s with fab := f }).paceTake n
  else none

/-- Kind of cell: 0 WORD FIFO, 1 VALUE, 2 PULSE, 3 COUNT (R188). -/
def State.siteType (s : State) : Site → Nat
  | .user d k => fieldAt (s.rd (siteObj d.val k.val) 1) 8 2
  | .pin _ => 1
  | _ => 0

/-- Object index of the island that a user site names (R188, R203). -/
def islandObj (d cfg : Nat) : Nat := 0xA040 + 4 * d + fieldAt cfg 11 2

/-- A user island runs: RUNNING, or HELD for replay while its loop is LOCKED (R159, R194). -/
def State.islandLive (s : State) (d i : Nat) : Bool :=
  let st := s.rd (0xA040 + 4 * d + i) 2
  decide (st = 2) || (decide (st = 3) && decide (s.rd (0xA010 + 16 * d + 5 + i) 2 = 2))

/-- The clock of a fixed site's island runs (R173, R190, R193, R194). The Perimeter has the always-on clock while its loop is OFF and Apex
of the die sleeps; Apex has the RC oscillator while its loop is OFF or starts (notes/assumptions/174.md). The gearbox of a lane under
self-test takes no token (R537). -/
def State.fixedOn (s : State) : Site → Bool
  | .user _ _ => false
  | .host _ => s.loopClocks 0 0
  | .lane d l _ => s.loopClocks d.val 1 && decide (s.rd (0x5810 + 8 * d.val + l.val) 2 ≠ 4)
  | .memory d _ => s.loopClocks d.val 2
  | .pin c =>
    let d := c.val / 20
    s.loopClocks d 3 || (decide (s.rd (0xA013 + 16 * d) 2 = 0) && !s.dev.awake.contains d)
  | .object d _ => s.loopClocks d.val 4 || (decide (s.rd (0xA014 + 16 * d.val) 2 ≤ 1) && decide (s.rd 0xA000 3 = 1))

/-- A site's cell works in a direction: a user site that is in use so, its island enabled and running (R173, R189); a fixed
site in both directions while its island's clock runs. -/
def State.cellOn (s : State) (site : Site) (toFabric : Bool) : Bool :=
  match site with
  | .user d k =>
    let c := s.rd (siteObj d.val k.val) 1
    c.testBit 15 && (c.testBit 10 == toFabric) && decide (s.rd (islandObj d.val c) 3 = 1) && s.islandLive d.val (fieldAt c 11 2)
  | _ => s.fixedOn site

/-- Mask of the island signals or value bits that a user site carries (R188, R195); 128 bits on a fixed site. -/
def State.siteBits (s : State) (site : Site) : Nat :=
  match site with
  | .user d k => 2 ^ (s.rd (siteObj d.val k.val) 1 % 128 + 1)
  | .pin _ => 2
  | _ => 2 ^ 128

/-- Channel identifier of a site's word channel: dir 0 towards the island, 1 towards the fabric (R107). -/
def siteChan (site : Site) (dir : Nat) : Nat := chanId 3 (siteRegion site) 0 dir (siteSlot site)
/-- Channel identifier of a user site's bit channel (R188, R107). -/
def bitChan (site : Site) (dir : Nat) : Nat := chanId 4 (siteRegion site) 0 dir (siteSlot site + 14)

/-- A crossing in a region takes its decision (R149, R155, R159): passed, logged as `value`, or taken from the log. The answer
is the decision and the state after it; none while the decision has to wait. -/
def State.siteDecide (s : State) (n kind chan value : Nat) : Option (Nat × State) :=
  if s.rd (detObj n) 3 = 0 then some (value, s)
  else if s.rd (detObj n) 3 = 1 then (s.logPut n kind chan value).map (fun t => (value, t))
  else (s.decision n kind chan).map (fun v => (v, s.decided n))

/-- What a crossing that has to wait leaves: its stream's stall begins (R157). -/
def State.siteWait (s : State) (n kind : Nat) : State := if s.rd (detObj n) 3 = 1 then s.logWait n kind else s

/-- The island cycle in which a token is seen is the one in which its command stands: the site's count since the epoch, logged as
SITE_CYCLE (R149, R153). In replay the token waits for the logged cycle (R159). -/
def State.cycleDecide (s : State) (n chan : Nat) : Option State :=
  let v := (s.cellAt (64 * (n / 32) + 2 * (n % 32) + chan % 2)).cycles % 2 ^ 48
  match s.siteDecide n 2 chan v with
  | some (d, t) => if d % 2 ^ 48 = v then some t else none
  | none => none

/-- A dropped word or event of a user site: counted and reported (R175, R180). -/
def State.overrun (s : State) (site : Site) (ch : Nat) : State :=
  match site with
  | .user d k =>
    let t := s.bump (siteObj d.val k.val) 6 4 1
    t.raise 0x0B05 2 2 ch [(20, 1, s.siteType site), (24, 4, t.rd (siteObj d.val k.val) 6)]
  | _ => s

/-- Events outstanding in a COUNT cell (R180). -/
def CellRec.outstanding (x : CellRec) : Nat := (x.written + 64 - x.delivered) % 64

/-- An island launches values on its signals, one a cycle (R195): they are recorded by island, newest first. -/
def State.launch (s : State) (site : Site) (vs : List Nat) : State :=
  match site with
  | .user d k =>
    let i := 4 * d.val + fieldAt (s.rd (siteObj d.val k.val) 1) 11 2
    { s with pin := { s.pin with launched := (vs.map (fun v => (i, v))).reverse ++ s.pin.launched } }
  | _ => s

/-- What the island sees of a COUNT cell that it feeds: 48 or more events outstanding (R180). -/
def CellRec.nearFull (x : CellRec) : Bool := decide (48 ≤ x.outstanding)

/-- A PULSE or COUNT cell out of its island brings its fabric half up to date: a taken token counts as delivered, and a
waiting event is presented once the channel is at rest (R177, R180). -/
def State.cellPresent (s : State) (site : Site) : State :=
  let n := siteRegion site
  let slot := siteSlot site + 14
  let x := s.cellAt (siteNum site)
  if s.siteType site = 3 then
    let x1 := if x.presented && !s.fab.bitOut n slot then { x with presented := false, delivered := (x.delivered + 1) % 64 } else x
    if !x1.presented && decide (0 < x1.outstanding) && s.siteOpen n && !s.fab.bitOut n slot && !s.fab.ack (.site n slot) then
      let t := s.setCell (siteNum site) { x1 with presented := true }
      { t with fab := t.fab.giveBit n slot 1 }
    else s.setCell (siteNum site) x1
  else if x.srcToggle != x.retToggle && !x.presented && s.siteOpen n && !s.fab.bitOut n slot && !s.fab.ack (.site n slot) then
    let t := s.setCell (siteNum site) { x with presented := true }
    { t with fab := t.fab.giveBit n slot x.merged.toNat }
  else s

/-- Tokens that a cell holds: words in both halves, a pending event, outstanding events (R182). -/
def State.cellTokens (s : State) (site : Site) : Nat :=
  let x := s.cellAt (siteNum site)
  let n := siteRegion site
  let out := match site with | .pin _ => 0 | _ => (s.fab.siteOut.get (fun _ => []) (n * 16 + siteSlot site)).length
  x.fifo.length + out +
    (if s.siteType site = 2 then (if x.srcToggle != x.retToggle then 1 else 0)
     else if s.siteType site = 3 then x.outstanding else 0)

/-- The words that stand on a site word output are lost with their channel (R182). -/
def State.dropOut (s : State) (n slot : Nat) : State :=
  { s with fab := { s.fab.dropTaken (.siteOut n slot) with siteOut := s.fab.siteOut.put (fun _ => []) (n * 16 + slot) [] } }

/-- The token that stands on a site bit output is lost with its channel (R182). -/
def State.dropBit (s : State) (n slot : Nat) : State :=
  { s with fab := ({ s.fab with siteBit := s.fab.siteBit.put (fun _ => none) (n * 32 + slot) none } : FabSt).settled }

/-- Both halves of a cell are reset together (R182): contents discarded, epochs inverted, DISCARDED counts them. -/
def State.resetCell (s : State) (site : Site) : State :=
  let k := siteNum site
  let n := siteRegion site
  let x := s.cellAt k
  let cnt := s.cellTokens site
  let s1 := s.setCell k { epochF := !x.epochF, epochI := !x.epochI }
  let outLen := (s.fab.siteOut.get (fun _ => []) (n * 16 + siteSlot site)).length
  let s2 := match site with
    | .pin _ => s1.dropOut n 7
    | .lane _ _ k => if k.val = 0 then (s1.dropOut n 0).dropOut n 4 else s1.dropOut n (siteSlot site)
    | .user _ _ => (s1.dropOut n (siteSlot site)).dropBit n (siteSlot site + 14)
    | _ => s1.dropOut n (siteSlot site)
  match site with
  | .user d j => s2.bump (siteObj d.val j.val) 7 4 cnt
  | .host h => (s2.bump (0x5300 + h.val) 4 4 outLen).bump (0x5320 + h.val) 4 4 x.fifo.length
  | _ => s2

/-- Every fixed and user cell of a region (R182). -/
def regionSites (n : Nat) : List Site :=
  let d : Fin 2 := if n < 32 then 0 else 1
  let r := n % 32
  [Site.user d (Fin.ofNat 64 (2 * r)), Site.user d (Fin.ofNat 64 (2 * r + 1)), Site.memory d (Fin.ofNat 32 r)]
    ++ (if n < 32 then [Site.host (Fin.ofNat 32 n)] else [])
    ++ (if r = 0 then [Site.object d false] else []) ++ (if r = 1 then [Site.object d true] else [])
    ++ (if 24 ≤ r then (List.finRange 4).map (fun k => Site.lane d (Fin.ofNat 8 (r - 24)) k) else [])
    ++ (if r < 20 then [Site.pin (Fin.ofNat 40 (20 * d.val + r))] else [])

/-- The cell on a site channel of a region is reset with its channel under FORCE (R182, R75): a user site's one cell, and of a fixed site
the half that the channel runs through; a TIME request that waits is lost. `kind` is 3 for a word slot and 4 for a bit slot; `dir` is
0 for a channel that leaves the region. -/
def State.forceCell (s : State) (n kind slot dir : Nat) (site : Site) : State :=
  let x := s.cellAt (siteNum site)
  match site with
  | .user _ _ =>
    if kind = (if s.siteType site < 2 then 3 else 4) ∧ slot = siteSlot site + (if s.siteType site < 2 then 0 else 14) ∧
        (s.siteCfg site).testBit 15 = true then s.resetCell site else s
  | .host h =>
    if kind ≠ 3 ∨ slot ≠ siteSlot site then s
    else if dir = 0 then
      (s.setCell (siteNum site) { x with fifo := [], epochF := !x.epochF, epochI := !x.epochI }).bump (0x5320 + h.val) 4 4 x.fifo.length
    else
      ((s.dropOut n slot).setCell (siteNum site) { x with epochF := !x.epochF, epochI := !x.epochI }).bump (0x5300 + h.val) 4 4
        (s.fab.siteOut.get (fun _ => []) (n * 16 + slot)).length
  | .memory _ _ =>
    if kind ≠ 3 then s
    else if slot = 13 then
      if dir = 0 then { s with dev := { s.dev with timeWaiters := s.dev.timeWaiters.filter (fun m => decide (m ≠ n)) } } else s.dropOut n slot
    else if slot ≠ siteSlot site then s
    else (if dir = 0 then s else s.dropOut n slot).setCell (siteNum site)
      { x with fifo := if dir = 0 then [] else x.fifo, epochF := !x.epochF, epochI := !x.epochI }
  | _ =>
    if kind ≠ 3 ∨ slot ≠ siteSlot site then s
    else (if dir = 0 then s else s.dropOut n slot).setCell (siteNum site)
      { x with fifo := if dir = 0 then [] else x.fifo, value := if dir = 0 then 0 else x.value, epochF := !x.epochF, epochI := !x.epochI }

/-- Reset every cell of a list of sites. -/
def State.resetCells (s : State) : List Site → State
  | [] => s
  | a :: l => (s.resetCell a).resetCells l

/-- Every cell of a region is reset with the region's configuration (R182), its TIME site's among them. -/
def State.cellsAnew (s : State) (n : Nat) : State :=
  let t := (s.resetCells (regionSites n)).dropOut n 13
  { t with dev := { t.dev with timeWaiters := t.dev.timeWaiters.filter (fun m => decide (m ≠ n)) } }

/-- Tokens that the cells of a list of sites hold. -/
def State.cellsTokens (s : State) : List Site → Nat
  | [] => 0
  | a :: l => s.cellTokens a + s.cellsTokens l

/-- User sites of a die. -/
def userSites (d : Fin 2) : List Site := (List.finRange 64).map (fun k => Site.user d k)

/-- User sites of a die that name an island (R188). -/
def State.islandSites (s : State) (i : Island) : List Site :=
  (List.finRange 64).filterMap (fun k =>
    let c := s.rd (siteObj i.die.val k.val) 1
    if c.testBit 15 && decide (fieldAt c 11 2 = i.i.val) then some (Site.user i.die k) else none)

/-- The cell on one site channel of a region is reset under FORCE. -/
def State.forceCells (s : State) (n kind slot dir : Nat) : State := (regionSites n).foldl (fun t a => t.forceCell n kind slot dir a) s

/-- The fabric half of a cell is at rest (R182): it presents no token and acknowledges none. That of a held region does neither (R183). -/
def State.halfAtRest (s : State) (site : Site) : Bool :=
  let n := siteRegion site
  let still (slot : Nat) : Bool :=
    (s.fab.siteOut.get (fun _ => []) (n * 16 + slot)).isEmpty && !s.fab.taken.contains (sinkSite n slot)
  !s.siteOpen n || (match site with
    | .pin _ => still 3 && still 7
    | .user _ _ =>
      still (siteSlot site) && !s.fab.bitOut n (siteSlot site + 14) && !s.fab.ack (.site n (siteSlot site + 14))
        && !(s.fab.gAck.get (fun _ => false) (2 ^ 20 + n * 32 + siteSlot site + 14))
    | _ => still (siteSlot site))

end Sys2Proof.Machine
end

