-- ==== Sys2Proof/Machine/Pins.lean ====
section
/-! DEFINITION. The crossbar of the Perimeter (R507 to R513, R517, R525, R526): what each peripheral signal code names, who owns it,
what a pin drives, which level an input signal takes, and conflicts. The Perimeter's commands stand in Perimeter.lean. -/

namespace Sys2Proof.Machine

/-- Every pin. -/
def allPins : List Nat := List.range 40
/-- Object index of a bank record. -/
def bankObj (b : Nat) : Nat := 0x6008 + b
/-- Object index of a serial peripheral record: UART0, UART1, I2C0, I2C1, SPI. -/
def serialObj (k : Nat) : Nat := 0x6100 + k
/-- Object index of a PWM record. -/
def pwmObj (k : Nat) : Nat := 0x6110 + k
/-- Object index of a TSCAP record. -/
def tscapObj (k : Nat) : Nat := 0x6120 + k
/-- Object index of an interrupt line record. -/
def lineObj (n : Nat) : Nat := 0x6130 + n

/-- Kind of a signal code (R509): 0 none, 1 output, 2 input, 3 bidirectional, 4 PLL reference input, 9 reserved. -/
def sigKind (c : Nat) : Nat :=
  if c = 0 then 0
  else if c = 1 then 1
  else if c = 2 then 4
  else if 0x010 ≤ c ∧ c < 0x038 then 1
  else if 0x040 ≤ c ∧ c < 0x068 then 2
  else if 0x080 ≤ c ∧ c < 0x120 then 1
  else if 0x120 ≤ c ∧ c < 0x1C0 then 2
  else if 0x1C0 ≤ c ∧ c < 0x1C8 then (if c % 2 = 0 then 1 else 2)
  else if 0x1C8 ≤ c ∧ c < 0x1CC then 3
  else if c = 0x1CE then 2
  else if 0x1CC ≤ c ∧ c < 0x1D7 then 1
  else if 0x1D7 ≤ c ∧ c < 0x1DB then 2
  else if c = 0x1DB ∨ c = 0x1DC then 1
  else 9

/-- Object index of the claimed peripheral that a code belongs to (R509). -/
def sigPeriph (c : Nat) : Option Nat :=
  if 0x1C0 ≤ c ∧ c < 0x1C4 then some (serialObj 0)
  else if 0x1C4 ≤ c ∧ c < 0x1C8 then some (serialObj 1)
  else if 0x1C8 ≤ c ∧ c < 0x1CA then some (serialObj 2)
  else if 0x1CA ≤ c ∧ c < 0x1CC then some (serialObj 3)
  else if 0x1CC ≤ c ∧ c < 0x1D3 then some (serialObj 4)
  else if 0x1D3 ≤ c ∧ c < 0x1D7 then some (pwmObj (c - 0x1D3))
  else if 0x1D7 ≤ c ∧ c < 0x1DB then some (tscapObj (c - 0x1D7))
  else none

/-- Owner of a signal (R509); `mine` for a signal that belongs to the pin's owner, 0xFF for a peripheral that nobody holds. -/
def State.sigOwner (s : State) (mine c : Nat) : Nat :=
  match sigPeriph c with
  | some o => s.rd o 2
  | none =>
    if 0x010 ≤ c ∧ c < 0x038 then s.regOwner (32 * ((c - 0x010) / 20) + (c - 0x010) % 20)
    else if 0x040 ≤ c ∧ c < 0x068 then s.regOwner (32 * ((c - 0x040) / 20) + (c - 0x040) % 20)
    else if 0x080 ≤ c ∧ c < 0x120 then s.rd (0xA040 + 4 * ((c - 0x080) / 80) + (c - 0x080) % 80 / 20) 1
    else if 0x120 ≤ c ∧ c < 0x1C0 then s.rd (0xA040 + 4 * ((c - 0x120) / 80) + (c - 0x120) % 80 / 20) 1
    else if c = 0x1DB ∨ c = 0x1DC then heldOwner (s.rd (0x58C0 + (c - 0x1DB)) 1) 0xFF
    else mine

/-- FUNC of a pin that is in force: none before startup step 3 and while JTAG holds the pins (R524, R462). -/
def State.pinFunc (s : State) (p : Nat) : Nat := if s.pin.enabled && !s.pin.jtag then s.rd (pinObj p) 2 else 0

/-- The bank of a pin is OK (R505). -/
def State.bankOk (s : State) (p : Nat) : Bool := decide (s.rd (bankObj (p / 10)) 3 = 1)

/-- Pins that name a signal. -/
def State.sigPins (s : State) (c : Nat) : List Nat := allPins.filter (fun p => decide (s.pinFunc p = c))

/-- An input signal is fed: exactly one pin names it, of a bank that is OK (R509, R512). -/
def State.sigFed (s : State) (c : Nat) : Bool := match s.sigPins c with | [p] => s.bankOk p | _ => false

/-- Level of an input or bidirectional signal (R509, R512): the level of the one pin that names it, else its default. -/
def State.inSignal (s : State) (c dflt : Nat) : Nat :=
  match s.sigPins c with
  | [p] => if s.bankOk p then s.rd (pinObj p) 7 else dflt
  | _ => dflt

/-- A PWM unit's present period. -/
def State.pwm (s : State) (k : Nat) : PwmSt := s.pin.pwm.get (fun _ => {}) k
/-- Set a PWM unit's present period. -/
def State.setPwm (s : State) (k : Nat) (x : PwmSt) : State :=
  { s with pin := { s.pin with pwm := s.pin.pwm.put (fun _ => {}) k x } }

/-- Level of a PWM output (R520). -/
def State.pwmLevel (s : State) (k : Nat) : Bool :=
  let x := s.pwm k
  decide (s.rd (pwmObj k) 5 = 1) && decide (x.period ≠ 0) && (decide (x.period ≤ x.high) || decide (s.now < x.start + x.high))

/-- A code names an output whose waveform the model does not follow: a launch signal, a serial peripheral, a recovered clock. -/
def waveCode (c : Nat) : Bool :=
  (decide (sigKind c = 1) || decide (sigKind c = 3)) && !decide (c = 1) && !(decide (0x010 ≤ c) && decide (c < 0x038))
    && !(decide (0x1D3 ≤ c) && decide (c < 0x1D7))

/-- A pad's latch. -/
def State.pad (s : State) (p : Nat) : PadSt := s.pin.pads.get (fun _ => {}) p
/-- Set a pad's latch. -/
def State.setPad (s : State) (p : Nat) (x : PadSt) : State :=
  { s with pin := { s.pin with pads := s.pin.pads.put (fun _ => {}) p x } }

/-- The value that a pin's output has, where it has one that the model follows (R508, R526). -/
def State.outLevel (s : State) (p : Nat) : Option Bool :=
  let c := s.pinFunc p
  if s.rd (pinObj p) 8 = 1 then (if (s.pad p).driven then some (s.pad p).level else none)
  else if c = 1 then some (decide (s.rd (pinObj p) 6 = 1))
  else if 0x010 ≤ c ∧ c < 0x038 then
    some ((s.cellAt (siteNum (.pin (Fin.ofNat 40 (c - 0x010))))).value.getLsbD 0)
  else if 0x1D3 ≤ c ∧ c < 0x1D7 then some (s.pwmLevel (c - 0x1D3))
  else if (c = 0x1DB ∨ c = 0x1DC) ∧ s.rd (0x58C0 + (c - 0x1DB)) 5 = 2 ∧ s.rd (0x58C0 + (c - 0x1DB)) 4 = 0 then some false
  else none

/-- VCCIO in mV that a VCCIO_SEL declares (R505). -/
def vccioNominal (sel : Nat) : Nat := [1200, 1500, 1800, 2500, 3300].getD sel 1200

/-- Energy of one output edge of a pin, fJ (R340): (6 pF + LOAD_PF) × VCCIO². -/
def State.edgeEnergy (s : State) (p : Nat) : Nat :=
  (6 + s.rd (pinObj p) 5) * vccioNominal (s.rd (bankObj (p / 10)) 1) ^ 2 / 1000

/-- EDGES of a pin counts a change of its output value, while its bank is OK (R529); the edge is charged to the pin's owner (R340). -/
def State.countEdge (s old : State) (p : Nat) : State :=
  match old.outLevel p, s.outLevel p with
  | some a, some b =>
    if a ≠ b ∧ s.bankOk p = true then
      let k := accountOf (s.rd (pinObj p) 1)
      let m := s.pin.meter.put (fun _ => 0) k (s.pin.meter.get (fun _ => 0) k + s.edgeEnergy p)
      ({ s with pin := { s.pin with meter := m } } : State).tally (pinObj p) 9 1
    else s
  | _, _ => s

/-- EDGES of every pin. -/
def State.countEdges (s old : State) : State := s.each (fun t p => t.countEdge old p) allPins

/-- Input signal codes that two or more pins name. -/
def State.conflicts (s : State) : List Nat :=
  (List.range 512).filter (fun c => (decide (sigKind c = 2) || decide (sigKind c = 3)) && decide (2 ≤ (s.sigPins c).length))

/-- CONFLICTS and the CONFLICT flags follow the pins; each entry into conflict raises event 0x0704 for the pin that made it
(R512). -/
def State.conflictCheck (s : State) (p : Nat) : State :=
  let now_ := s.conflicts
  let old := s.rd 0x6000 1
  let s1 := s.wr 0x6000 1 (now_.foldl setBit 0)
  let s2 := s1.each (fun t j => t.wr (pinObj j) 0xA (now_.contains (t.pinFunc j)).toNat) allPins
  s2.each (fun t c => t.raise 0x0704 3 1 (pinObj p) [(20, 1, (t.sigPins c).length), (22, 2, c)])
    (now_.filter (fun c => !old.testBit c))

/-- FUNC of a pin changes (R512, R517). -/
def State.pinSet (s : State) (p func : Nat) : State :=
  let s1 := s.wr (pinObj p) 2 func
  let s2 := if waveCode func then s1.setPad p { s1.pad p with wave := true } else s1
  s2.conflictCheck p

/-- A pin takes a FUNC (R517): its hold latch bridges the switch, so only the new value is an edge. -/
def State.pinSwitch (s : State) (p func : Nat) : State := (s.pinSet p func).countEdge s p

/-- Manifest value of an object in force (R380, R481). -/
def State.manVal (s : State) (idx sub : Nat) : Nat := s.cfg.manifest.get odDefault (oa idx sub)

/-- A pin returns to its configured reset state (R525). -/
def State.pinReset (s : State) (p : Nat) : State :=
  let o := pinObj p
  let s1 := (s.wrs o [(3, s.manVal o 3), (4, s.manVal o 4), (5, s.manVal o 5), (6, s.manVal o 6), (8, 0)]).pinSet p (s.manVal o 2)
  s1.countEdge s p

/-- A serial peripheral's buffers. -/
def State.serial (s : State) (k : Nat) : SerialSt := s.pin.serial.get (fun _ => {}) k
/-- Set a serial peripheral's buffers. -/
def State.setSerial (s : State) (k : Nat) (x : SerialSt) : State :=
  { s with pin := { s.pin with serial := s.pin.serial.put (fun _ => {}) k x } }

/-- A released peripheral or line stops (R525, R35). -/
def State.periphRelease (s : State) (o : Nat) : State :=
  let s1 := s.wrs o [(1, 0), (2, 0xFF)]
  if o < 0x6110 then (s1.setSerial (o - 0x6100) {}).wr o 6 0
  else if o < 0x6120 then ((s1.setPwm (o - 0x6110) {}).wr o 5 0).countEdges s
  else if o < 0x6130 then s1
  else { s1 with pin := { s1.pin with lines := s1.pin.lines.put (fun _ => {}) (o - 0x6130) {} } }

/-- Every peripheral and interrupt line record. -/
def periphObjs : List Nat :=
  (List.range 5).map serialObj ++ (List.range 4).map pwmObj ++ (List.range 4).map tscapObj ++ (List.range 10).map lineObj

/-- A domain reset reaches the Perimeter (R525). -/
def State.pinsDomainReset (s : State) (owner : Nat) : State :=
  let s1 := s.each (fun t o => if t.rd o 2 = owner then t.periphRelease o else t) periphObjs
  let s2 := s1.each (fun t c =>
    if t.regOwner (32 * (c / 20) + c % 20) = owner then (t.resetCell (.pin (Fin.ofNat 40 c))).countEdges t else t) allPins
  s2.each (fun t p => if t.rd (pinObj p) 1 = owner then t.pinReset p else t) allPins

end Sys2Proof.Machine
end

