-- ==== Sys2Proof/Machine/Status.lean ====
section
/-! DEFINITION. Small reads of the block's state on which the acceptance of object writes depends: records' indices, claims, running
operations, and the states of loads, lanes, tokens and the key store. -/

namespace Sys2Proof.Machine

/-- A snapshot slot's contents and operation. -/
def State.slot (s : State) (k : Nat) : SlotSt := s.cfg.slots.get (fun _ => {}) k

/-- Set a snapshot slot's contents and operation. -/
def State.setSlot (s : State) (k : Nat) (x : SlotSt) : State :=
  { s with cfg := { s.cfg with slots := s.cfg.slots.put (fun _ => {}) k x } }

/-- A snapshot or rollback runs on a slot (R424, R426). -/
def State.slotBusy (s : State) (k : Nat) : Bool := decide (s.rd (slotObj k) 8 = 2) || decide (s.rd (slotObj k) 8 = 3)

/-- A snapshot or rollback of a region runs (R69). -/
def State.slotRuns (s : State) (n : Nat) : Bool := (List.range 64).any (fun k => s.slotBusy k && (s.slot k).members.contains n)

/-- A partial load's progress. -/
def State.load (s : State) (d : Nat) : LoadSt := s.cfg.loads.get (fun _ => {}) d

/-- Set a partial load's progress. -/
def State.setLoad (s : State) (d : Nat) (x : LoadSt) : State :=
  { s with cfg := { s.cfg with loads := s.cfg.loads.put (fun _ => {}) d x } }

/-- Object index of a die's load record (R406). -/
def loadObj (d : Nat) : Nat := 0x2010 + d

/-- LOAD_STATE of a die: 0 IDLE, 1 STAGING, 2 FENCING, 3 COMMITTING, 4 DONE, 5 REJECTED. -/
def State.loadState (s : State) (d : Nat) : Nat := s.rd (loadObj d) 5

/-- A load in progress targets a region (R405): LOAD_STATE STAGING to COMMITTING. -/
def State.loadOn (s : State) (n : Nat) : Bool :=
  [0, 1].any (fun d => decide (1 ≤ s.loadState d) && decide (s.loadState d ≤ 3) && (s.load d).targets.contains n)

/-- A load at steps 1 to 5 targets a region. -/
def State.loadBefore (s : State) (n : Nat) : Bool :=
  [0, 1].any (fun d => (decide (s.loadState d = 1) || decide (s.loadState d = 2)) && (s.load d).targets.contains n)

/-- Object index of a domain's token record (R469). -/
def tokObj (d : Nat) : Nat := 0x8040 + d

/-- Object index of a domain's quote record. -/
def quoteObj (d : Nat) : Nat := 0x8030 + d

/-- Object index of a tenant domain's delegation record. -/
def delObj (owner : Nat) : Nat := 0x8100 + (owner - 8)

/-- Domains that have quote and token records: MGT and T0 to T7. -/
def tokenDomains : List Nat := [1, 8, 9, 10, 11, 12, 13, 14, 15]

/-- KEY_STATE is READY. -/
def State.keysReady (s : State) : Bool := decide (s.rd 0x8000 3 = 1)

/-- TAMPER_STATE is ACTIVE. -/
def State.tamperActive (s : State) : Bool := decide (s.rd 0x8050 1 = 1)

/-- LIFECYCLE is RMA. -/
def State.isRma (s : State) : Bool := decide (s.rd 0x8000 2 = 2)

/-- A domain's active token has not expired and carries a scope bit (R457, R459). -/
def State.tokenScope (s : State) (d bit : Nat) : Bool :=
  decide (s.rd (tokObj d) 4 = 1) && decide (s.now < s.rd (tokObj d) 6) && (s.rd (tokObj d) 5).testBit bit

/-- No tenant domain owns or holds a resource of any kind (R457). -/
def State.noTenant (s : State) : Bool :=
  let mine (v : Nat) : Bool := decide (v < 8) || decide (15 < v)
  let own (sub : Nat) (l : List Nat) : Bool := l.all (fun o => mine (s.rd o sub))
  let run (a n : Nat) : List Nat := (List.range n).map (fun k => a + k)
  let fn (l : List Nat) : Bool := l.all (fun o => decide (s.rd o 2 = 0xFFFF) || decide (s.rd o 2 / 256 = 0))
  own 1 (run 0xC100 64) && own 1 (run 0xA040 8) && own 3 (run 0xA010 9 ++ run 0xA020 9) && own 1 (run 0xB100 1024)
    && own 1 (run 0x4200 64) && own 1 (run 0x5810 16) && own 1 (run 0x58C0 2) && own 1 (run 0x6010 40) && own 2 periphObjs
    && own 2 (run 0x7010 16) && own 2 (run 0x2A00 64) && fn (run 0x5100 64) && fn (run 0x5200 256)

/-- Object index of a rail record: 4 × die + rail (R365). -/
def railObj (k : Nat) : Nat := 0x3200 + k

/-- Apex firmware runs, on which the Ledger's arithmetic runs (R475). -/
def State.fwUp (s : State) : Bool := !s.dev.por && decide (s.rd 0x1020 1 = 3)

/-- Rails are ordered VF_L, VF_M, VF_H; the lowest a region may take (R353). -/
def State.floorOf (s : State) (n : Nat) : Nat := if s.rd (enObj n) 3 = 0xFF then 0 else s.rd (enObj n) 3

/-- MGMT_STATE is SPLIT_HOLD (R500). -/
def State.split (s : State) : Bool := decide (s.rd 0x1030 3 = 2)

/-- A region's hop progress. -/
def State.hop (s : State) (n : Nat) : HopSt := s.led.hops.get (fun _ => {}) n

/-- Set a region's hop progress. -/
def State.setHop (s : State) (n : Nat) (x : HopSt) : State :=
  { s with led := { s.led with hops := s.led.hops.put (fun _ => {}) n x } }

/-- Object index of a lane record (R292). -/
def laneObj (k : Nat) : Nat := 0x5810 + k

/-- Object index of the port record of the port whose first lane is `k`. -/
def rportObj (k : Nat) : Nat := 0x5840 + k

/-- Object index of an equalisation record. -/
def eqObj (k : Nat) : Nat := 0x5880 + k

/-- Lanes of a port of a MODE (R267). -/
def modeLanes (m : Nat) : Nat := [1, 1, 1, 2, 2, 4, 4, 8, 8].getD m 1

/-- Lanes of the port whose first lane is `p`; one for a raw lane (R272). -/
def State.portWidth (s : State) (p : Nat) : Nat := modeLanes (s.rd (rportObj p) 1)

/-- The first lane of the lane's port; none for a raw lane. -/
def State.portOf (s : State) (k : Nat) : Option Nat :=
  if s.rd (laneObj k) 8 = 0xFF then none else some (8 * (k / 8) + s.rd (laneObj k) 8)

/-- Lane rate of a MODE, kb/s (R267). -/
def modeRate (m : Nat) : Nat := [0, 106250000, 212500000, 106250000, 212500000, 106250000, 212500000, 106250000, 212500000].getD m 0

/-- Rate of a lane, kb/s: set by MODE in a port (R267, R292). -/
def State.laneRate (s : State) (k : Nat) : Nat :=
  match s.portOf k with
  | some p => modeRate (s.rd (rportObj p) 1)
  | none => s.rd (laneObj k) 4

/-- Modulation of a lane, 0 NRZ and 1 PAM4: PAM4 in a port (R265). -/
def State.laneMod (s : State) (k : Nat) : Nat := if (s.portOf k).isSome then 1 else s.rd (laneObj k) 5

/-- A raw rate and modulation lie within R265, and CHANNEL is not LR above 112 Gb/s (R289 reason 4). -/
def rawPairOk (rate modulation channel : Nat) : Bool :=
  (if modulation = 0 then decide (1250000 ≤ rate) && decide (rate ≤ 56000000) else decide (20000000 ≤ rate) && decide (rate ≤ 224000000))
    && !(decide (channel = 2) && decide (112000000 < rate))

/-- A lane's receiver runs: it adapts and locks, or is locked (R286, R288). -/
def State.laneRuns (s : State) (k : Nat) : Bool := decide (s.rd (laneObj k) 2 = 2) || decide (s.rd (laneObj k) 2 = 3)

/-- A die's reference clock is present (R266). -/
def State.rayRef (s : State) (d : Nat) : Bool := (s.rd 0x5800 3).testBit d

/-- An engine's register page. -/
def State.eng (s : State) (e : Nat) : EngSt := s.host.engines.get (fun _ => {}) e

/-- Set an engine's register page. -/
def State.setEng (s : State) (e : Nat) (x : EngSt) : State :=
  { s with host := { s.host with engines := s.host.engines.put (fun _ => {}) e x } }

/-- Object index of a PF record. -/
def pfObj (f : Nat) : Nat := 0x5010 + f

/-- Object index of the record of VF `v` of PF `f`. -/
def vfObj (f v : Nat) : Nat := 0x5400 + 32 * (f - 1) + (v - 1)

/-- Object index and subindex of a function's TDI_STATE. -/
def tdiAt (code : Nat) : Nat × Nat := if code % 256 = 0 then (pfObj (code / 256), 7) else (vfObj (code / 256) (code % 256), 2)

/-- TDI_STATE of a function. -/
def State.tdi (s : State) (code : Nat) : Nat := s.rd (tdiAt code).1 (tdiAt code).2

/-- Function code that uses an engine: its assignee, else its holder; 0xFFFF none (R307). -/
def State.engUser (s : State) (e : Nat) : Nat := if s.rd (engObj e) 3 = 0xFFFF then s.rd (engObj e) 2 else s.rd (engObj e) 3

/-- Domain of an engine: its holder's (R307). -/
def State.engDomain (s : State) (e : Nat) : Nat := funcDomain (s.rd (engObj e) 2)

/-- Object index of a die's user island. -/
def islObj (d i : Nat) : Nat := 0xA040 + 4 * d + i

end Sys2Proof.Machine
end

