-- ==== Sys2Proof/Machine/Meters.lean ====
section
/-! DEFINITION. The Energy Ledger's meters (R340 to R343): what an event, a nanosecond of leakage, a lane, the host link, a block and a
test cost, in fJ, and the charges that they make to accounts, rails and regions. -/

namespace Sys2Proof.Machine

/-- Nominal output of a rail, mV (R333). -/
def railNominal (rail : Nat) : Nat := [600, 750, 900, 800].getD rail 0

/-- The rail that prices a region's events, 0 VF_L to 2 VF_H: while it hops the higher of the two (R338); none when it is gated. -/
def State.priceRail (s : State) (n : Nat) : Option Nat :=
  match (s.hop n).running with
  | some (a, b, _) => some (max a b)
  | none => if s.rd (enObj n) 2 < 3 then some (s.rd (enObj n) 2) else none

/-- Rail factor in hundredths (R341). -/
def railFactor (rail : Nat) : Nat := [44, 69, 100].getD rail 0

/-- COEFF of a class (R365). -/
def State.coeff (s : State) (cls : Nat) : Nat := s.rd 0x3300 cls

/-- The calibration multiplier of a class, Q16.16, applied to an energy (R365). -/
def State.multiplied (s : State) (cls e : Nat) : Nat := e * s.coeff cls / 65536

/-- Charge for `k` events of a class that scales with a rail (R341), fJ. -/
def State.railPrice (s : State) (die rail cls k : Nat) : Nat :=
  let r := railObj (4 * die + rail)
  k * s.coeff cls * railFactor rail * s.rd r 1 ^ 2 * s.rd r 3 / (100 * railNominal rail ^ 2 * 65536)

/-- Leakage of a rail at 25, 85 and 100 °C, mW (R342). -/
def leakTable (rail : Nat) : Nat × Nat × Nat := [(14, 58, 80), (26, 105, 145), (45, 180, 250)].getD rail (0, 0, 0)

/-- Leakage energy of `ns` nanoseconds on a rail at a temperature in m°C, fJ (R342). The table gives no rate below 25 °C, above
100 °C, or where no sensor has been read. -/
def leakEnergy (rail : Nat) (temp : Option Int) (ns : Nat) : Nat :=
  let (a, b, c) := leakTable rail
  match temp with
  | some t =>
    if 25000 ≤ t ∧ t ≤ 85000 then ns * (a * 60000 + (b - a) * (t - 25000).toNat) / 60
    else if 85000 < t ∧ t ≤ 100000 then ns * (b * 15000 + (c - b) * (t - 85000).toNat) / 15
    else ns * Config.leakPower rail temp
  | none => ns * Config.leakPower rail none

/-- A count grows. -/
def bumpAt (m : SMap Nat) (k v : Nat) : SMap Nat := m.put (fun _ => 0) k (m.get (fun _ => 0) k + v)

/-- A charge to an account, in part of a rail's (R340, R344, R348). -/
def MeterSt.charge (m : MeterSt) (acct v : Nat) (rail : Option Nat) : MeterSt :=
  let m1 := { m with acc := bumpAt m.acc acct v, total := bumpAt m.total acct v }
  match rail with
  | none => m1
  | some k => { m1 with rail := bumpAt m1.rail (16 * k + acct) v, cal := bumpAt m1.cal k v }

/-- The charge for a region's counts of a class (R340, R341). -/
def State.chargeEvents (s : State) (m : MeterSt) (key k : Nat) : MeterSt :=
  let n := key / 32
  match s.priceRail n with
  | none => m
  | some r =>
    let v := s.railPrice (n / 32) r (key % 32) k
    { m.charge (accountOf (s.regOwner n)) v (some (4 * (n / 32) + r)) with region := bumpAt m.region n v }

/-- The charge for a region's leakage since it was last priced (R342). -/
def State.chargeLeak (s : State) (m : MeterSt) (n : Nat) : MeterSt :=
  match s.priceRail n with
  | none => m
  | some r =>
    let v := s.multiplied 0x1A (leakEnergy r (m.temp.get (fun _ => none) n) (m.clock - m.leakFrom) * m.ring.get (fun _ => 65536) n / 65536)
    { m.charge (accountOf (s.regOwner n)) v (some (4 * (n / 32) + r)) with
      region := bumpAt m.region n v, leak := bumpAt m.leak n v }

/-- The charges for everything counted since the meters were last priced (R340 to R342). -/
def State.priced (s : State) : MeterSt :=
  let m1 := s.fab.meter.cells.foldl (fun m c => s.chargeEvents m c.1 c.2) s.led.m
  let m2 := s.loc.meter.cells.foldl (fun m c => m.charge (c.1 % 16) (c.2 * s.coeff 0x11) (some (4 * (c.1 / 16) + 2))) m1
  let m3 := s.mem.meter.cells.foldl (fun m c => m.charge (c.1 / 8 % 16) (c.2 * s.coeff (0x12 + c.1 % 8)) none) m2
  let m4 := s.host.meter.cells.foldl (fun m c => m.charge c.1 (c.2 * s.coeff 0x18) none) m3
  let m5 := s.pin.meter.cells.foldl (fun m c => m.charge c.1 (s.multiplied 0x19 c.2) none) m4
  let m6 := if m5.clock = m5.leakFrom then m5 else allRegions.foldl (fun m n => s.chargeLeak m n) m5
  { m6 with leakFrom := m6.clock }

/-- The counts are priced at what is in force and start again (R338, R341, R347). -/
def State.meterFold (s : State) : State :=
  { s with
    fab := { s.fab with meter := ⟨[]⟩ }, loc := { s.loc with meter := ⟨[]⟩ }, mem := { s.mem with meter := ⟨[]⟩ },
    host := { s.host with meter := ⟨[]⟩ }, pin := { s.pin with meter := ⟨[]⟩ }, led := { s.led with m := s.priced } }

/-- Power of a lane at a rate, mW, in a port with PCS and FEC or raw (R291); none where the table has no figure. -/
def lanePower (port : Bool) (rate modulation : Nat) : Option Nat :=
  if port then (if rate = 212500000 then some 1150 else if rate = 106250000 then some 700 else none)
  else if modulation = 1 then (if rate = 224000000 then some 1200 else none)
  else if rate = 56000000 then some 450
  else if rate ≤ 10000000 then some 200
  else none

/-- Power of a slot's unit, mW (R535). -/
def State.testPower (s : State) (k : Nat) : Option Nat :=
  let test := s.rd (testObj k) 3
  let u := s.rd (testObj k) 4
  if test ≤ 3 then lanePower (s.portOf u).isSome (s.laneRate u) (s.laneMod u)
  else if test = 4 then some (340 * popcnt 16 u)
  else if test = 5 then some 450
  else if test = 6 then some 50
  else some 20

/-- Power of a lane by its state, mW (R291); open while it acquires. A lane under test is charged as the test. -/
def State.lanePowerNow (s : State) (k : Nat) : Nat :=
  let rate := s.laneRate k
  let md := s.laneMod k
  match s.rd (laneObj k) 2 with
  | 0 => 0
  | 1 => 80
  | 2 => Config.lanePower 2 rate md
  | 3 => (lanePower (s.portOf k).isSome rate md).getD (Config.lanePower 3 rate md)
  | _ => 0

/-- Power of the host link by its state, mW (R342); open while it trains. -/
def State.linkPower (s : State) : Nat :=
  let rate := s.rd 0x5000 3
  match s.rd 0x5000 1 with
  | 1 => Config.linkPower
  | 2 | 3 => s.rd 0x5000 2 * (if rate = 7 then 340 else if rate = 6 then 250 else 150)
  | 4 => 400
  | _ => 30

/-- A power drawn for `dt` ns is charged to an account, as a class's multiplier scales it. -/
def State.chargePower (s : State) (m : MeterSt) (dt cls acct mw : Nat) (rail : Option Nat) : MeterSt :=
  if mw = 0 then m else m.charge acct (s.multiplied cls (dt * mw * 1000)) rail

/-- Charges of a span of device time (R340 classes 0x1B to 0x1D, R532): lanes, the host link, the fixed blocks of each die, and the units
of running tests. -/
def State.timeCharges (s : State) (dt : Nat) : MeterSt :=
  let m0 := { s.led.m with clock := s.led.m.clock + dt }
  let m1 := (List.range 16).foldl (fun m k => s.chargePower m dt 0x1B (accountOf (s.rd (laneObj k) 1)) (s.lanePowerNow k) none) m0
  let m2 := s.chargePower m1 dt 0x1C 9 s.linkPower none
  let m3 := [0, 1].foldl (fun m d =>
    let apex := s.chargePower m dt 0x1D 0 (if s.dev.awake.contains d then 250 else 0) (some (4 * d + 3))
    s.chargePower apex dt 0x1D 9 (if s.rd 0x3000 0xA = 0 then 600 else 100) (some (4 * d + 3))) m2
  testSlots.foldl (fun m k =>
    if s.testRuns k then
      m.charge (accountOf (s.rd (testObj k) 2)) (dt * 1000 * (s.testPower k).getD
        (Config.lanePower 4 (s.laneRate (s.rd (testObj k) 4)) (s.laneMod (s.rd (testObj k) 4)))) none
    else m) m3

/-- Device time has passed for the meters. -/
def State.timeCharge (s : State) (dt : Nat) : State := { s with led := { s.led with m := s.timeCharges dt } }

/-- The exchange at a boundary (R36, R37, R346): what has been counted belongs to the closing window, what is counted from now on to the
next. -/
def State.meterSwap (s : State) : State :=
  let t := s.meterFold
  { t with led := { t.led with closing := some t.led.m, m := { t.led.m with acc := ⟨[]⟩, rail := ⟨[]⟩, region := ⟨[]⟩, leak := ⟨[]⟩ } } }

/-- Device time goes from `t0` to `t1` for the meters (R340, R346). Where the end of the present window lies between them the meters are exchanged
there. A boundary that passes while the one before it still waits for its figures exchanges nothing (notes/assumptions/172.md). -/
def State.timePass (s : State) (t0 t1 : Nat) : State :=
  let b := s.led.windowStart + s.rd 0x3000 1
  if t0 < b ∧ b ≤ t1 ∧ s.led.closing = none ∧ s.rd 0x1020 1 = 3 then ((s.timeCharge (b - t0)).meterSwap).timeCharge (t1 - b)
  else s.timeCharge (t1 - t0)

/-- Sensors of regions have been read, in m°C. -/
def State.tempsRead (s : State) (temps : List (Region × Int)) : State :=
  { s with led := { s.led with m := { s.led.m with
    temp := temps.foldl (fun t p => t.put (fun _ => none) (rn p.1) (some p.2)) s.led.m.temp } } }

/-- An account's charge in the present window, fJ. -/
def State.charged (s : State) (a : Nat) : Nat := s.led.m.acc.get (fun _ => 0) a

/-- The objects of the running charges follow the meters (R347, R365): CHARGE_NOW and TOTAL_UJ in whole µJ. -/
def State.chargeSync (s : State) : State :=
  s.each (fun t a => t.wrs (accObj a) [(0xA, t.charged a / 10 ^ 9 % 2 ^ 64), (0xD, t.led.m.total.get (fun _ => 0) a / 10 ^ 9 % 2 ^ 64)])
    (List.range 10)

/-- A regulator's loss is charged to the accounts in proportion to their charges on its rail (R343). -/
def MeterSt.lossOn (m : MeterSt) (k loss : Nat) : MeterSt :=
  let part (a : Nat) : Nat := m.rail.get (fun _ => 0) (16 * k + a)
  let total := ((List.range 10).map part).foldl (· + ·) 0
  if total = 0 then m else (List.range 10).foldl (fun x a => x.charge a (loss * 10 ^ 9 * part a / total) none) m

/-- Losses of the regulators from one on, in µJ. -/
def MeterSt.lossesFrom (m : MeterSt) : Nat → List Nat → MeterSt
  | _, [] => m
  | k, v :: l => (m.lossOn k v).lossesFrom (k + 1) l

/-- The regulators' losses are charged (R343). -/
def State.losses (s : State) (loss : List Nat) : State := { s with led := { s.led with m := s.led.m.lossesFrom 0 loss } }

end Sys2Proof.Machine
end

