-- ==== Sys2Proof/Machine/Access.lean ====
section
/-! DEFINITION. Whether a write to the object dictionary is accepted (R475 to R482): the order of the abort codes, the writers
that each chapter permits, and each chapter's conditions on values and state. -/

namespace Sys2Proof.Machine

/-- Abort codes of R482. -/
def abortRange : Nat := 0x00030002
/-- The requester's domain is not permitted. -/
def abortDomain : Nat := 0x00040001
/-- Held by another claim, or busy. -/
def abortBusy : Nat := 0x00050001
/-- Not in this state. -/
def abortState : Nat := 0x00060001

/-- The first abort code of a list of conditions; 0 when none holds. -/
def firstAbort : List (Bool × Nat) → Nat
  | [] => 0
  | (c, a) :: l => if c then a else firstAbort l

/-- A queue has a producer other than log stream `k` (R208, R221): one of another kind, or another stream that names it. -/
def State.hasProducer (s : State) (k d q : Nat) : Bool :=
  (decide (kindOf (s.qo d q 3) ≠ 0) && decide (kindOf (s.qo d q 3) ≠ 2)) || s.otherLog k d q

/-- A queue has a consumer other than replay stream `k`. -/
def State.hasConsumer (s : State) (k d q : Nat) : Bool :=
  (decide (kindOf (s.qo d q 4) ≠ 0) && decide (kindOf (s.qo d q 4) ≠ 5)) || s.otherReplay k d q

/-- Conditions on a write of a region's LOG_QUEUE or REPLAY_QUEUE (R169). -/
def State.abortRegionQueue (s : State) (n v : Nat) (log : Bool) : Nat :=
  let d := dieOf n
  let named := decide (v ≠ 0xFFFF)
  firstAbort [
    (named && decide (s.qo d v 2 = 0), abortRange),
    (named && decide (s.qo d v 1 ≠ s.regOwner n), abortDomain),
    (decide (s.regState n ≠ 4), abortState),
    (named && (if log then s.hasProducer n d v else s.hasConsumer n d v), abortBusy)]

/-- Conditions on writes of fabric and determinism objects (R78, R166, R169). -/
def State.abortFabric (s : State) (idx sub v : Nat) : Nat :=
  let n := idx % 64
  if 0xC100 ≤ idx ∧ idx < 0xC140 then
    firstAbort [
      (decide (sub = 3) && (decide (8 ≤ v) || decide (v % 4 = 3)), abortRange),
      (decide (s.regState n = 0) || decide (s.regState n = 1), abortState),
      (decide (sub = 6) && (decide (s.rd idx 7 = 1) || decide (s.rd idx 7 = 2)), abortBusy)]
  else if 0xC400 ≤ idx ∧ idx < 0xC440 then
    (if sub = 1 then s.abortRegionQueue n v true
     else if sub = 2 then s.abortRegionQueue n v false
     else if sub = 3 then (if s.regState n = 4 then 0 else abortState)
     else if sub = 9 then (if s.rd idx 8 = 1 then abortState else 0)
     else 0)
  else 0

/-- Conditions on writes of clock, island, site and time objects (R203). -/
def State.abortClock (s : State) (idx sub v : Nat) : Nat :=
  if 0xA010 ≤ idx ∧ idx < 0xA029 then
    firstAbort [
      (decide (sub = 5) && decide (v % 1000 ≠ 0), abortRange),
      ((decide (sub = 4) || decide (sub = 5)) && decide (s.rd idx 2 ≠ 0), abortBusy)]
  else if idx = 0xA200 ∧ sub = 5 then (if s.rd 0x1010 1 = 1 ∧ s.rd 0xA200 7 = 1 then abortBusy else 0)
  else 0

/-- TIMEOUT_ACTION meets R220. -/
def State.actionOk (s : State) (d q v : Nat) : Bool :=
  if v = 0 then decide (kindOf (s.qo d q 4) = 1)
  else if v = 2 then
    let a := s.qo d q 0x10
    decide (a < 512) && decide (a ≠ q) && decide (s.qo d a 1 = s.qo d q 1) && decide (s.qo d a 3 = 3 * 4096 + q)
  else true

/-- A queue's watermarks would meet reason 5 of R225. -/
def wmOk (high low bp batch : Nat) : Bool := decide (low < high) && !(decide (bp = 1) && decide (low < 16 * batch))

/-- Conditions on writes of Locus objects (R222, R225, R226). -/
def State.abortLocus (s : State) (idx sub v : Nat) : Nat :=
  if 0xB100 ≤ idx ∧ idx < 0xB500 then
    let d := (idx - 0xB100) / 512
    let q := (idx - 0xB100) % 512
    let k := 64 + 512 * d + q
    let carried := decide (s.qo d q 2 ≠ 0)
    let named := decide (v ≠ 0xFFFF)
    let ahead := decide ((s.q d q).level ≠ 0)
    if sub = 9 then (if carried && !wmOk v (s.qo d q 0xA) (s.qo d q 0xB) (s.qo d q 8) then abortRange else 0)
    else if sub = 0xA then (if carried && !wmOk (s.qo d q 9) v (s.qo d q 0xB) (s.qo d q 8) then abortRange else 0)
    else if sub = 0xB then (if carried && !wmOk (s.qo d q 9) (s.qo d q 0xA) v (s.qo d q 8) then abortRange else 0)
    else if sub = 0xF then (if s.actionOk d q v then 0 else abortRange)
    else if sub = 0x11 then
      firstAbort [
        ((decide (v = 1) && decide (s.qo d q 0x12 = 0xFFFF)) || (decide (v = 2) && decide (s.qo d q 0x13 = 0xFFFF)), abortRange),
        (ahead, abortState)]
    else if sub = 0x12 ∨ sub = 0x13 then
      firstAbort [
        (named && (decide (v = q) || decide (s.qo d v 2 = 0)), abortRange),
        (!named && decide (s.qo d q 0x11 = (if sub = 0x12 then 1 else 2)), abortRange),
        (named && decide (s.qo d v 1 ≠ s.qo d q 1), abortDomain),
        (ahead, abortState),
        (named && (if sub = 0x12 then s.hasProducer k d v else s.hasConsumer k d v), abortBusy)]
    else if sub = 0x14 then
      firstAbort [(decide (s.qo d q 2 = 0), abortState), (decide (s.qo d q 2 = 3), abortBusy)]
    else 0
  else 0

/-- A window lies, at least in part, in a stack (R230). -/
def State.inStack (s : State) (w d : Nat) : Bool :=
  s.interleave || decide (s.stackOf (s.rd (winObj w) 2) = d) ||
    decide (s.stackOf (s.rd (winObj w) 2 + s.rd (winObj w) 3 - 1) = d)

/-- Conditions on writes of memory objects (R242, R263). -/
def State.abortMemory (s : State) (idx sub v : Nat) : Nat :=
  if 0x4100 ≤ idx ∧ idx < 0x4164 then
    let top := if s.rd idx 3 = 2 then 544 else 256
    let on := if sub = 4 then v else s.rd idx 4
    let off := if sub = 5 then v else s.rd idx 5
    if on < off ∧ off ≤ top then 0 else abortRange
  else if 0x4200 ≤ idx ∧ idx < 0x4240 then
    let w := idx - 0x4200
    let k := 1088 + w
    let d := s.streamDie k
    let fencedAll := (maskBits 64 (s.rd idx 4)).all (fun n => s.fenced n)
    let spans := s.interleave || (s.inStack w 0 && s.inStack w 1)
    let named := decide (v ≠ 0xFFFF)
    if sub = 7 then firstAbort [(decide (v ≠ 0) && spans, abortRange), (!fencedAll, abortState)]
    else
      firstAbort [
        (named && decide (s.qo d v 2 = 0), abortRange),
        (named && decide (s.qo d v 1 ≠ s.rd idx 1), abortDomain),
        (!fencedAll, abortState),
        (named && (if sub = 8 then s.hasProducer k d v else s.hasConsumer k d v), abortBusy)]
  else 0

/-- Apex serves a path (R475): firmware runs, or PF0 asks for object 0x1000 or 0x1020 once the ROM stage is ready. -/
def State.served (s : State) (q : Req) (idx : Nat) : Bool :=
  !s.dev.por && (decide (s.rd 0x1020 1 = 3) ||
    (decide (q = .pf 0) && (decide (idx = 0x1000) || decide (idx = 0x1020)) && decide (s.rd 0x8000 3 ≠ 0)))

/-- Access codes that a chapter forbids beyond the table: a fixed loop's REF_SEL and FREQ_HZ (R203), and SIG_POLICY while LOCK is set
(R438). -/
def State.writeForbidden (s : State) (idx sub : Nat) : Bool :=
  (decide (0xA010 ≤ idx) && decide (idx < 0xA029) && decide (idx % 16 < 5) && (decide (sub = 4) || decide (sub = 5)))
    || (decide (idx = 0x8000) && decide (sub = 4) && (s.rd 0x8000 4).testBit 2)

/-- Conditions on writes of objects 0x1xxx (R501, R502). -/
def State.abortComms (s : State) (idx sub v : Nat) : Nat :=
  if idx = 0x1010 ∧ sub = 0xC then (if s.rd 0x1010 1 = 2 then 0 else abortState)
  else if idx = 0x1020 then
    firstAbort [
      (decide (sub = 3) && decide (v % 4096 ≠ 0), abortRange),
      (decide (s.rd 0x1020 1 ≠ 1) && decide (s.rd 0x1020 1 ≠ 4), abortState)]
  else if idx = 0x1030 ∧ sub = 4 then (if s.split then 0 else abortState)
  else 0

/-- A write of CLAIM of a record whose holder stands at subindex 2 (R331, R34): 1 claims a free resource, 0 is accepted from the
holder. -/
def State.abortClaim (s : State) (idx none_ mine v : Nat) : Nat :=
  if v = 1 then (if s.rd idx 2 = none_ then 0 else abortBusy) else if s.rd idx 2 = mine then 0 else abortDomain

/-- The set that SET_D0 and SET_D1 of a slot name. -/
def State.slotSet (s : State) (k : Nat) : List Nat :=
  maskBits 32 (s.rd (slotObj k) 3) ++ (maskBits 32 (s.rd (slotObj k) 4)).map (fun r => 32 + r)

/-- Conditions on a write of OP (R428, R429, R431, R467). -/
def State.abortOp (s : State) (k v : Nat) : Nat :=
  let ms := s.slotSet k
  let st := s.rd (slotObj k) 8
  let all := ms ++ (if v = 2 then (s.slot k).images.map (fun c => c.1) else [])
  firstAbort [
    (ms.isEmpty, abortRange),
    (ms.any (fun n => decide (s.regOwner n ≠ heldOwner (s.rd (slotObj k) 2) 0xFF)), abortDomain),
    (s.tamperActive || ms.any (fun n => decide (s.regState n = 0)), abortState),
    (decide (v = 2) && (decide (st = 0) || decide (st = 4)), abortState),
    (s.slotBusy k || all.any (fun n => s.slotRuns n || s.loadOn n), abortBusy),
    (decide (v = 1) && decide (s.rd 0x2800 2 < ms.length), abortBusy)]

/-- Regions that a partial load of a die targets, or that it may still turn out to target. -/
def State.dieLoads (s : State) (d : Nat) : Bool :=
  [0, 1].any (fun e => decide (1 ≤ s.loadState e) && decide (s.loadState e ≤ 3)
    && (decide (e = d) || (s.load e).targets.any (fun n => decide (n / 32 = d))))

/-- Conditions on writes of objects 0x2xxx (R400, R405, R406, R431, R467). -/
def State.abortLoads (s : State) (dom idx sub v : Nat) : Nat :=
  if 0x2010 ≤ idx ∧ idx < 0x2012 then
    let d := idx - 0x2010
    let idle := decide (s.rd idx 5 = 0) || decide (s.rd idx 5 = 4)
    if sub = 1 ∨ sub = 2 then
      firstAbort [(decide (sub = 1) && decide (s.rd idx 3 = 0) && decide (v % 4096 ≠ 0), abortRange), (!idle, abortBusy)]
    else if sub = 4 then firstAbort [(s.tamperActive, abortState), (!idle || s.dieLoads d, abortBusy)]
    else 0
  else if 0x2900 ≤ idx ∧ idx < 0x2940 ∧ sub = 2 then
    let h := s.rd (slotObj v) 2
    if v = 0xFF ∨ h = 0xFF ∨ h = s.regOwner (idx % 64) then 0 else abortDomain
  else if 0x2A00 ≤ idx ∧ idx < 0x2A40 then
    if sub = 1 then s.abortClaim idx 0xFF dom v
    else if 3 ≤ sub ∧ sub ≤ 5 then (if s.slotBusy (idx - 0x2A00) then abortBusy else 0)
    else if sub = 7 then s.abortOp (idx - 0x2A00) v
    else 0
  else 0

/-- Nominal budget of an account, a written one included that takes effect at the next boundary (R349). -/
def State.nominal (s : State) (a : Nat) : Nat := (s.led.nextBudget.get (fun _ => none) a).getD (s.rd (accObj a) 1)

/-- A standby state may be entered (R363). -/
def State.mayStandby (s : State) : Bool :=
  allRegions.all (fun n => decide (s.floorOf n = 0) || s.fenced n) && (List.range 64).all (fun k => !s.slotBusy k)
    && [0, 1].all (fun d => decide (s.loadState d = 0) || decide (3 < s.loadState d))

/-- Conditions on writes of objects 0x3xxx (R356, R363, R365). -/
def State.abortEnergy (s : State) (idx sub v : Nat) : Nat :=
  if idx = 0x3000 then (if sub = 0xA ∧ v ≠ 0 ∧ s.mayStandby = false then abortBusy else 0)
  else if 0x3010 ≤ idx ∧ idx < 0x301A then
    let a := idx - 0x3010
    let sum := ((List.range 10).map (fun b => if b = a then v else s.nominal b)).foldl (· + ·) 0
    if (sub = 4 ∧ a = 9 ∧ v ≠ 0) ∨ (sub = 1 ∧ 165000 * s.rd 0x3000 1 / 10 ^ 6 < sum) then abortRange else 0
  else if 0x3100 ≤ idx ∧ idx < 0x3140 then (if v < s.floorOf (idx % 64) then abortRange else 0)
  else 0

/-- Magnitude of a tap: a signed count of 16 bits. -/
def tapSize (v : Nat) : Nat := if v < 2 ^ 15 then v else 2 ^ 16 - v

/-- Conditions on writes of Ray objects (R265, R285, R287, R292, R537). A raw lane outside R265 is not enabled, and a source or rate that takes the
recovered clock above 200 MHz is refused as DIVIDER is (DESIGN CHOICE, notes/assumptions/190.md). -/
def State.abortRay (s : State) (idx sub v : Nat) : Nat :=
  if 0x5810 ≤ idx ∧ idx < 0x5820 then
    let on := decide (s.rd idx 3 = 1)
    let tested := s.unitHeld (unitKey 1 (idx - 0x5810))
    let k := idx - 0x5810
    let rec_ := 0x58C0 + k / 8
    let fast := decide (s.rd rec_ 1 ≠ 0xFF) && decide (s.rd rec_ 2 = k % 8) && decide (200000 * s.rd rec_ 3 < v)
    if sub = 3 then
      firstAbort [(decide (v = 1) && (s.portOf k).isNone && !rawPairOk (s.rd idx 4) (s.rd idx 5) (s.rd idx 6), abortRange),
        (decide (v = 1) && tested, abortBusy)]
    else if 4 ≤ sub ∧ sub ≤ 7 then
      firstAbort [(decide (sub = 4) && (decide (v < 1250000) || decide (224000000 < v) || ((s.portOf k).isNone && fast)), abortRange),
        (on || (tested && decide (sub ≠ 7)), abortBusy)]
    else if sub = 9 then firstAbort [(decide (s.rd idx 8 ≠ 0xFF), abortState), (tested, abortBusy)]
    else 0
  else if 0x5840 ≤ idx ∧ idx < 0x5850 then
    let n := s.portWidth (idx - 0x5840)
    if sub = 3 then (if (List.range n).any (fun i => decide (s.rd (laneObj (idx - 0x5840 + i)) 3 = 1)) then abortBusy else 0)
    else if sub = 4 ∧ 1024 * n < v then abortRange
    else 0
  else if 0x5880 ≤ idx ∧ idx < 0x5890 then
    if sub ≤ 4 then
      firstAbort [
        (decide (64 < tapSize v + (([1, 2, 3, 4].filter (fun k => decide (k ≠ sub))).map (fun k => tapSize (s.rd idx k))).foldl (· + ·) 0),
          abortRange),
        (s.unitHeld (unitKey 1 (idx - 0x5880)), abortBusy)]
    else 0
  else if 0x58C0 ≤ idx ∧ idx < 0x58C2 then
    let lane (l : Nat) : Nat := 8 * (idx - 0x58C0) + l
    let fast (l div : Nat) : Bool := decide (l ≠ 0xFF) && decide (200000 * div < s.laneRate (lane l))
    if sub = 2 then
      firstAbort [(fast v (s.rd idx 3), abortRange), (decide (v ≠ 0xFF) && decide (s.rd (laneObj (lane v)) 1 ≠ s.rd idx 1), abortDomain)]
    else if sub = 3 then (if fast (s.rd idx 2) v then abortRange else 0)
    else 0
  else 0

/-- Function code of the PF of a domain (R297). -/
def pfCode (dom : Nat) : Nat := if 8 ≤ dom then 256 * (dom - 7) else 0

/-- A function's TDI is locked or runs (R329). -/
def State.tdiLocked (s : State) (code : Nat) : Bool :=
  decide (code ≠ 0xFFFF) && decide (256 ≤ code) && (decide (s.tdi code = 1) || decide (s.tdi code = 2))

/-- A code names an enabled VF of the holder, or none (R307). -/
def State.assigneeOk (s : State) (holder v : Nat) : Bool :=
  decide (v = 0xFFFF) || (decide (v / 256 = holder / 256) && decide (1 ≤ v % 256) && decide (v % 256 ≤ s.rd (pfObj (holder / 256)) 2))

/-- Conditions on writes of Host Port objects (R307, R329, R331). -/
def State.abortHost (s : State) (dom idx sub v : Nat) : Nat :=
  if 0x5010 ≤ idx ∧ idx < 0x5019 then
    if sub = 3 then
      (let others := (((List.range 9).filter (fun f => decide (pfObj f ≠ idx))).map (fun f => s.rd (pfObj f) 3)).foldl (· + ·) 0
       if 4096 < others + v then abortRange else 0)
    else if idx = 0x5010 then abortRange
    else 0
  else if 0x5100 ≤ idx ∧ idx < 0x5140 then
    let e := idx - 0x5100
    let locked := s.tdiLocked (s.engUser e)
    let idle := decide ((s.eng e).state = 0)
    if sub = 1 then
      firstAbort [(decide (s.abortClaim idx 0xFFFF (pfCode dom) v ≠ 0), s.abortClaim idx 0xFFFF (pfCode dom) v),
        (locked || s.tdiLocked (pfCode dom), abortBusy)]
    else
      let chan := if sub = 4 then 0x5300 + v else 0x5320 + v
      let named := decide (v ≠ 0xFF) && (decide (sub = 4) || decide (sub = 5))
      let ring := decide (sub = 7) && decide (v ≠ 0xFFFF)
      firstAbort [
        (named && decide (s.ownerOfIdx chan ≠ s.engDomain e), abortDomain),
        (ring && decide (heldFunc (s.rd (ringObj v) 2) ≠ s.engDomain e), abortDomain),
        (decide (sub = 3) && !s.assigneeOk (s.rd idx 2) v, abortRange),
        (named && decide (s.rd chan 2 ≠ 0xFF) && decide (s.rd chan 2 ≠ e), abortBusy),
        (ring && decide (s.ringFunc v ≠ s.engUser e), abortBusy),
        (locked || (decide (sub = 3) && s.tdiLocked v) || !idle, abortBusy)]
  else if 0x5200 ≤ idx ∧ idx < 0x5300 then
    let r := idx - 0x5200
    let locked := s.tdiLocked (s.ringFunc r)
    if sub = 1 then
      firstAbort [(decide (s.abortClaim idx 0xFFFF (pfCode dom) v ≠ 0), s.abortClaim idx 0xFFFF (pfCode dom) v),
        (locked || s.tdiLocked (pfCode dom), abortBusy)]
    else firstAbort [(!s.assigneeOk (s.rd idx 2) v, abortRange), (locked || s.tdiLocked v, abortBusy)]
  else if 0x5400 ≤ idx ∧ idx < 0x5500 then
    firstAbort [
      ((maskBits 64 v).any (fun w => decide (s.rd (winObj w) 1 ≠ s.ownerOfIdx idx)), abortDomain),
      (s.tdiLocked (256 * ((idx - 0x5400) / 32 + 1) + (idx - 0x5400) % 32 + 1), abortBusy)]
  else s.abortRay idx sub v

/-- A CONFIG word of serial peripheral `k` is in range (R529). -/
def configOk (k v : Nat) : Bool :=
  let rate := v % 2 ^ 24
  if k < 2 then decide (1200 ≤ rate) && decide (rate ≤ 12000000) && decide (v < 2 ^ 28) && decide (fieldAt v 24 2 ≠ 3)
  else if k < 4 then decide (10000 ≤ rate) && decide (rate ≤ 1000000) && decide (v < 2 ^ 24)
  else decide (rate ≤ 50000000) && decide (v < 2 ^ 28)

/-- Conditions on writes of Perimeter objects (R507, R510, R519, R522, R529, R537). -/
def State.abortPins (s : State) (dom idx sub len v : Nat) : Nat :=
  if 0x6010 ≤ idx ∧ idx < 0x6038 then
    let p := idx - 0x6010
    let mine := s.rd idx 1
    if sub = 5 then 0
    else firstAbort [
      (decide (sub = 2) && decide (sigKind v ≠ 9) && decide (s.sigOwner mine v ≠ mine), abortDomain),
      (decide (sub = 2) && decide (sigKind v = 9), abortRange),
      (decide (sub = 3) && decide (v % 4 = 3) && decide (s.rd (bankObj (p / 10)) 1 = 0), abortRange),
      (s.unitHeld (unitKey 10 p), abortBusy)]
  else if 0x6100 ≤ idx ∧ idx < 0x613A then
    if sub = 1 then s.abortClaim idx 0xFF dom v
    else if idx < 0x6105 then
      let k := idx - 0x6100
      if sub = 3 then (if configOk k v then 0 else abortRange)
      else if sub = 4 then
        firstAbort [
          ((decide (k = 2) || decide (k = 3)) && decide (254 < v / 256 % 256), abortRange),
          (decide (k < 2) && decide (256 < (s.serial k).tx.length + len), abortBusy),
          (decide (2 ≤ k) && (s.rd idx 6).testBit 0, abortBusy)]
      else 0
    else if 0x6130 ≤ idx ∧ sub = 3 then
      (if s.rd (pinObj (10 * v + (idx - 0x6130))) 1 = s.rd idx 2 then 0 else abortDomain)
    else 0
  else 0

/-- A test names a unit of its kind (R532). -/
def testUnitOk (test u : Nat) : Bool :=
  if test = 0 then false
  else if test ≤ 3 then decide (u < 16)
  else if test = 4 then decide (u ≠ 0)
  else if test = 5 then decide (u < 32)
  else if test = 6 then decide (u < 32) && decide (u % 16 < 9)
  else if test = 7 then decide (u < 8)
  else if test = 8 then decide (u < 2)
  else if test = 9 then decide (u < 64)
  else decide (test = 10) && decide (u < 40)

/-- The domain that may test a unit (R532). -/
def State.testOwner (s : State) (test u : Nat) : Nat :=
  if test ≤ 3 then s.rd (laneObj u) 1
  else if test = 6 ∧ 5 ≤ u % 16 then s.rd (islObj (u / 16) (u % 16 - 5)) 1
  else if test = 9 then s.regOwner u
  else if test = 10 then s.rd (pinObj u) 1
  else 1

/-- A reference of a loop is present (R191): PCIE_REFCLK with the link, and a clock pin of the loop's own die as CLKIN (R509). -/
def State.loopRef (s : State) (u : Nat) : Bool :=
  let d := u / 16
  let sel := s.rd (0xA010 + u) 4
  let sysref := decide (s.rd 0xA000 2 = 1)
  let rc := decide (s.rd 0xA000 3 = 1)
  match u % 16 with
  | 0 => decide (1 ≤ s.rd 0x5000 1)
  | 1 => s.rayRef d
  | 2 => sysref || s.rayRef d
  | 3 | 4 => sysref || rc
  | _ =>
    if sel = 0 then sysref
    else if sel = 1 then rc
    else decide ((sel - 2) / 20 = d) && decide (s.pinFunc (sel - 2) = 2) && s.bankOk (sel - 2)

/-- The precondition of a test (R532): 0 when it holds, else the REASON of R540: 1 the unit is in use, 2 a reference, supply or bank is
absent. -/
def State.testPre (s : State) (test u : Nat) : Nat :=
  if s.unitHeld (unitKey test u) then 1
  else if test ≤ 3 then (if s.rd (laneObj u) 3 = 0 then 0 else 1)
  else if test = 4 then (if s.rd 0x5000 1 = 0 then 0 else 1)
  else if test = 5 then (if s.rd (ctlObj (u / 16)) 1 = 2 ∨ (s.rd (ctlObj (u / 16)) 0xD).testBit (u % 16) = true then 0 else 1)
  else if test = 6 then (if s.rd (0xA010 + u) 2 ≠ 0 then 1 else if s.rd 0xA000 2 = 1 ∧ s.loopRef u = true then 0 else 2)
  else if test = 7 then (if s.rd (railObj u) 5 = 1 then 0 else 2)
  else if test = 8 then 0
  else if test = 9 then (if s.regState u = 0 ∨ s.fenced u = true then 0 else 1)
  else if s.rd (pinObj u) 2 ≠ 0 then 1
  else if s.bankOk u = false then 2
  else if s.rd 0x3000 0xA = 0 then 0 else 1

/-- Conditions on writes of a test slot (R534, R535, R542). -/
def State.abortTest (s : State) (dom idx sub v : Nat) : Nat :=
  let o (k : Nat) : Nat := s.rd idx k
  let live := decide (o 8 = 1) || decide (o 8 = 2)
  if sub = 1 then s.abortClaim idx 0xFF dom v
  else if sub = 7 then
    if v = 2 then 0
    else firstAbort [
      (!testUnitOk (o 3) (o 4), abortRange),
      (decide (s.testOwner (o 3) (o 4) ≠ dom), abortDomain),
      (live, abortBusy),
      (decide (s.testPre (o 3) (o 4) ≠ 0), abortBusy),
      (!s.keysReady || s.tamperActive, abortState)]
  else if live then abortBusy
  else 0

/-- The last owner slot that is VALID (R469). -/
def State.lastValid (s : State) (k : Nat) : Bool := [0, 1, 2, 3].all (fun j => decide (j = k) || decide (s.rd (0x8010 + j) 3 ≠ 1))

/-- Conditions on writes of Sebex objects (R435, R464, R466, R467, R469, R565). -/
def State.abortSebex (s : State) (idx sub v : Nat) : Nat :=
  let old := s.rd idx sub
  if idx = 0x8000 ∧ sub = 0xB then firstAbort [(decide (v = 0), abortRange), (decide (s.rd 0x8000 0xC ≠ 0), abortState)]
  else if 0x8010 ≤ idx ∧ idx < 0x8014 then
    if sub = 4 then
      firstAbort [(decide (s.rd idx 3 = 1) && s.lastValid (idx - 0x8010), abortRange), (decide (s.rd idx 3 ≠ 1), abortState)]
    else if s.rd idx 3 ≠ 0 ∨ old &&& v ≠ old then abortState
    else 0
  else if 0x8030 ≤ idx ∧ idx < 0x8040 then (if s.rd 0x8000 3 = 2 ∨ s.tamperActive = true then abortState else 0)
  else if 0x8040 ≤ idx ∧ idx < 0x8050 then
    (if sub = 3 ∧ v = 1 ∧ (s.rd 0x8000 3 = 2 ∨ s.tamperActive = true ∨ s.rd 0x8000 8 = 2) then abortState else 0)
  else if idx = 0x8050 then (if s.rd 0x8050 2 = 0 ∨ s.tamperActive = true then abortState else 0)
  else 0

/-- The island's loop is under test (R537). -/
def State.abortIsland (s : State) (idx sub v : Nat) : Nat :=
  if 0xA040 ≤ idx ∧ idx < 0xA048 ∧ sub = 3 ∧ v = 1 ∧ s.unitHeld (unitKey 6 (16 * ((idx - 0xA040) / 4) + 5 + idx % 4)) = true then abortBusy
  else s.abortClock idx sub v

/-- Conditions of the object's chapter on value and state (orders 9 to 11 of R482). -/
def State.abortChapter (s : State) (dom idx sub len v : Nat) : Nat :=
  match idx / 4096 with
  | 0x1 => s.abortComms idx sub v
  | 0x2 => s.abortLoads dom idx sub v
  | 0x3 => s.abortEnergy idx sub v
  | 0x4 => s.abortMemory idx sub v
  | 0x5 => s.abortHost dom idx sub v
  | 0x6 => s.abortPins dom idx sub len v
  | 0x7 => s.abortTest dom idx sub v
  | 0x8 => s.abortSebex idx sub v
  | 0xA => s.abortIsland idx sub v
  | 0xB => s.abortLocus idx sub v
  | 0xC => s.abortFabric idx sub v
  | _ => 0

/-- The writer is permitted (R480): the owner of what the record describes, or MGT, unless the chapter narrows the rule (R331, R365,
R406, R431, R469, R501, R502, R510, R529, R534, R542). -/
def State.mayWrite (s : State) (q : Req) (dom idx sub : Nat) : Bool :=
  let holder := decide (dom = s.rd idx 2)
  if idx = 0x1020 then decide (q = .pf 0)
  else if idx = 0x1030 then decide (dom = 1) && !(match q with | .client _ => true | _ => false)
  else if 0x2010 ≤ idx ∧ idx < 0x2012 then true
  else if 0x2A00 ≤ idx ∧ idx < 0x2A40 ∧ sub = 1 then true
  else if 0x3010 ≤ idx ∧ idx < 0x301A ∧ sub ≠ 8 then decide (dom = 1)
  else if 0x5010 ≤ idx ∧ idx < 0x5019 then decide (dom = 1)
  else if 0x5100 ≤ idx ∧ idx < 0x5300 then decide (sub = 1) || decide (s.rd idx 2 = pfCode dom)
  else if 0x5400 ≤ idx ∧ idx < 0x5500 then decide (dom = s.ownerOfIdx idx)
  else if idx = 0x6000 then decide (sub = 3) || decide (dom = 1)
  else if 0x6010 ≤ idx ∧ idx < 0x6038 then decide (dom = s.rd idx 1)
  else if (0x6100 ≤ idx ∧ idx < 0x613A) ∨ (0x7010 ≤ idx ∧ idx < 0x7020) then decide (sub = 1) || holder
  else if 0x8030 ≤ idx ∧ idx < 0x8050 then decide (dom = idx % 16)
  else decide (dom = 1) || decide (dom = s.ownerOfIdx idx)

/-- An authorised writer of an RWA object (R459): its domain's token carries OBJECT_AUTH, or the object is a hash of owner slot 0 of a
BLANK device (R439). -/
def State.rwaOk (s : State) (dom idx sub : Nat) : Bool :=
  s.tokenScope dom 0 || (decide (idx = 0x8010) && (decide (sub = 1) || decide (sub = 2)) && decide (s.rd 0x8000 2 = 0))

/-- The length suits the object (R478): a range for XFER (R529) and TOKEN_APPEND (R469). -/
def State.lengthOk (s : State) (r : ObjRow) (idx sub len : Nat) : Bool :=
  if 0x6100 ≤ idx ∧ idx < 0x6105 ∧ sub = 4 then
    decide ((if idx = 0x6102 ∨ idx = 0x6103 then 2 else 1) ≤ len) && decide (len ≤ 256)
  else if 0x8040 ≤ idx ∧ idx < 0x8050 ∧ sub = 2 then
    decide (1 ≤ len) && decide (len ≤ 2048) && decide ((s.sec.buffers.get (fun _ => []) (idx % 16)).length + len ≤ 8192)
  else decide (len = r.bytes)

/-- An index at which the dictionary has an object now: a port record stands on its port's first lane alone (R292). -/
def State.indexOk (s : State) (idx : Nat) : Bool :=
  !(objRowsAt idx).isEmpty && !(decide (0x5840 ≤ idx) && decide (idx < 0x5850) && decide (s.rd idx 1 = 0))

/-- The abort of a write of an object of the table, in the order of R482; 0 when it takes effect. -/
def State.writeAbort (s : State) (q : Req) (idx sub len v : Nat) : Nat :=
  let dom := s.reqDomain q
  if !s.served q idx then abortState
  else if s.split = true ∧ ¬ (idx = 0x1030 ∧ sub = 4) then 0x00050002
  else if !s.indexOk idx then 0x00010001
  else match findRow idx sub with
    | none => 0x00010002
    | some r =>
      if r.acc = .ro ∨ r.acc = .cst ∨ s.writeForbidden idx sub = true then 0x00020001
      else if !s.mayWrite q dom idx sub then abortDomain
      else if r.acc = .rwa ∧ s.rwaOk dom idx sub = false then 0x00040002
      else if !s.lengthOk r idx sub len then 0x00030001
      else if !r.inRange v then abortRange
      else s.abortChapter dom idx sub len v

/-- A domain may read a record (R480, R452): its own, one of MGT or SEC, or any as MGT; a quote or token record of its own alone
(R469). -/
def State.mayRead (s : State) (dom idx : Nat) : Bool :=
  let o := s.ownerOfIdx idx
  if 0x8030 ≤ idx ∧ idx < 0x8050 then decide (dom = idx % 16)
  else decide (o ≤ 1) || decide (dom = 1) || decide (dom = o)

/-- The abort of a read of an object of the table, in the order of R482. -/
def State.readAbort (s : State) (q : Req) (idx sub : Nat) : Nat :=
  if !s.served q idx then abortState
  else if !s.indexOk idx then 0x00010001
  else match findRow idx sub with
    | none => 0x00010002
    | some r =>
      if r.acc = .wo then 0x00020002
      else if !s.mayRead (s.reqDomain q) idx then abortDomain
      else if idx = 0x8000 ∧ sub = 9 ∧ s.rd 0x8000 8 = 2 then abortState
      else 0

/-- The firmware of a die acts: its watchdog is served (R476) and it is not idle (R471). -/
def State.apexActs (s : State) (d : Nat) : State :=
  { s with mgt := { s.mgt with served := s.mgt.served.set d s.now, idleFrom := s.mgt.idleFrom.set d s.now } }

/-- The answer to an object request, by the prime's Apex: an abort code and the octets returned (R482, R302). -/
def State.answer (s : State) (abort : Nat) (data : List Byte) : State :=
  let t := s.apexActs (s.rd 0x1030 1)
  { t with mgt := { t.mgt with resp := { abort := abort, data := data } } }

/-- A write command: the effect `k` when the write is accepted, its abort code otherwise (R482). -/
def State.writing (s : State) (q : Req) (idx sub len v : Nat) (k : State → State) : Result :=
  let a := s.writeAbort q idx sub len v
  .next (if a = 0 then (k s).answer 0 [] else s.answer a [])

/-- A write whose effect may still fail after it has begun (R438): the effect answers its own abort code. -/
def State.writingTo (s : State) (q : Req) (idx sub len v : Nat) (k : State → State × Nat) : Result :=
  let a := s.writeAbort q idx sub len v
  .next (if a = 0 then (k s).1.answer (k s).2 [] else s.answer a [])

end Sys2Proof.Machine
end

