-- ==== Sys2Proof/Machine/Tangent.lean ====
section
/-! DEFINITION. Tangent cells (R171 to R189): what each side of a cell does. -/

namespace Sys2Proof.Machine

/-- Word slot on which a VALUE reader of the fabric asks and is answered: slot 7 for a pin crossing (R514). -/
def readSlot (site : Site) : Nat := match site with | .pin _ => 7 | _ => siteSlot site

/-- A crossing into a user island takes its SITE_CYCLE decision; a crossing into a fixed island is SILENT (R149, R150). -/
def State.enterIsland (s : State) (site : Site) (chan : Nat) : Option State :=
  match site with
  | .user _ _ => s.cycleDecide (siteRegion site) chan
  | _ => some s

/-- What is left when a crossing has to wait for its log (R155, R157). -/
def State.enterWait (s : State) (site : Site) : State :=
  match site with
  | .user _ _ => s.siteWait (siteRegion site) 2
  | _ => s

/-- A word that the fabric offers to a fixed block's channel: the head of its cell, else straight from the fabric. The block takes it while
its island's clock runs (R173). -/
def State.siteWord (s : State) (site : Site) (w : Word) : Option State :=
  let x := s.cellAt (siteNum site)
  if s.cellOn site false = false then none
  else match x.fifo with
  | v :: rest => if v = w then some (s.setCell (siteNum site) { x with fifo := rest }) else none
  | [] => s.siteTake (siteRegion site) (siteSlot site) w

/-- Several words that the fabric offers to a fixed block's channel in order. -/
def State.siteWords (s : State) (site : Site) : List Word → Option State
  | [] => some s
  | w :: l =>
    match s.siteWord site w with
    | none => none
    | some t => t.siteWords site l

/-- WORD_FIFO_FABRIC_WRITE (R174): a fabric-to-island WORD FIFO takes a word unless it holds 16. -/
def execWordFifoFabricWrite (site : Site) (w : Word) (s : State) : Result :=
  let x := s.cellAt (siteNum site)
  if s.siteType site = 0 ∧ s.cellOn site false = true ∧ x.fifo.length < 16 then
    match s.siteTake (siteRegion site) (siteSlot site) w with
    | none => .next s
    | some t =>
      match t.enterIsland site (siteChan site 0) with
      | none => .next (s.enterWait site)
      | some t1 => .next (t1.setCell (siteNum site) { x with fifo := x.fifo ++ [w], written := x.written + 1 })
  else .next s

/-- The levels of a user island's signals at one edge of its clock, where `pads` holds the pads' (R195): a capture signal that no pin
feeds, or that is in conflict, or whose bank is not OK, is 0 (R509, R512). A fixed island's word is its block's. -/
def State.captured (s : State) (site : Site) (pads : Nat) : Nat :=
  match site with
  | .user d k =>
    let c := 0x120 + 80 * d.val + 20 * fieldAt (s.rd (siteObj d.val k.val) 1) 11 2
    ((List.range 20).filter (fun j => pads.testBit j && s.sigFed (c + j))).foldl setBit 0
  | _ => pads

/-- The word that a user island's capture registers make of its signals (R195): bits [WIDTH:0], zeros above, LAST 1. -/
def State.islandWord (s : State) (site : Site) (w : Word) : Word :=
  match site with
  | .user _ _ => ⟨BitVec.ofNat 128 (s.captured site w.data.toNat % s.siteBits site), true, false, false, false⟩
  | _ => w

/-- A user island writes a word in this cycle (R195): the signal that VALID_SEL names is 1, or VALID_SEL is 0xFF. -/
def State.islandValid (s : State) (site : Site) (w : Word) : Bool :=
  match site with
  | .user d k =>
    let v := s.rd (islandObj d.val (s.rd (siteObj d.val k.val) 1)) 4
    decide (v = 0xFF) || (s.captured site w.data.toNat).testBit v
  | _ => true

/-- A fabric writer's word of a VALUE cell is taken, and bits [WIDTH - 1:0] of it become the held value (R176). -/
def State.valueTake (s : State) (site : Site) (w : Word) : State :=
  let x := s.cellAt (siteNum site)
  if s.siteType site = 1 ∧ s.cellOn site false = true then
    match s.siteTake (siteRegion site) (siteSlot site) w with
    | none => s
    | some t =>
      match t.enterIsland site (siteChan site 0) with
      | none => s.enterWait site
      | some t1 => t1.setCell (siteNum site) { x with value := BitVec.ofNat 128 (w.data.toNat % s.siteBits site) }
  else s

/-- VALUE_FABRIC_WRITE (R176). -/
def execValueFabricWrite (site : Site) (w : Word) (s : State) : Result := .next ((s.valueTake site w).countEdges s)

/-- The value that a fabric reader of a VALUE cell gets: the held value, or the level of FABRIC_IN c (R176, R512, R514). -/
def State.heldValue (s : State) (site : Site) : Nat :=
  match site with
  | .pin c => s.inSignal (0x040 + c.val) 0
  | _ => (s.cellAt (siteNum site)).value.toNat

/-- A reply word of a VALUE reader: LAST 1, POISON 0 (R176). -/
def replyWord (v : Nat) : Word := ⟨BitVec.ofNat 128 v, true, false, false, false⟩

/-- A reader's request is taken and one reply returned (R176, R149, R150). A read of a user island is logged as SITE_CYCLE; one of a
fixed site whose value depends on arrival as SITE_VALUE. -/
def State.valueAsk (s : State) (site : Site) (w : Word) : State :=
  let n := siteRegion site
  let slot := readSlot site
  if s.siteType site = 1 ∧ s.cellOn site true = true ∧ s.fab.siteOut.get (fun _ => []) (n * 16 + slot) = [] then
    match s.siteTake n slot w with
    | none => s
    | some t =>
      match site with
      | .user _ _ =>
        match t.cycleDecide n (chanId 3 n 0 0 slot) with
        | none => s.siteWait n 2
        | some t1 => { t1 with fab := t1.fab.give n slot [replyWord (s.heldValue site)] }
      | _ =>
        match t.siteDecide n 3 (chanId 3 n 0 0 slot) (s.heldValue site) with
        | none => s.siteWait n 3
        | some (v, t1) => { t1 with fab := t1.fab.give n slot [replyWord v] }
  else s

/-- VALUE_READ_REQUEST (R176). -/
def execValueReadRequest (site : Site) (w : Word) (s : State) : Result := .next (s.valueAsk site w)

/-- VALUE_ISLAND_WRITE (R176, R513): the island writes the register. At a pin's site the Perimeter writes LEVEL, the synchronised
level of the pad, which FABRIC_IN channels read. -/
def execValueIslandWrite (site : Site) (v : BitVec 128) (s : State) : Result :=
  match site with
  | .pin c => .next (if s.cellOn site true then s.wr (pinObj c.val) 7 (v.toNat % 2) else s)
  | _ =>
    if s.siteType site = 1 ∧ s.cellOn site true = true then
      .next (s.setCell (siteNum site) { s.cellAt (siteNum site) with value := BitVec.ofNat 128 (v.toNat % s.siteBits site) })
    else .next s

/-- Object index of the site that a MERGE_COUNT belongs to. -/
def siteRecord : Site → Nat
  | .user d k => siteObj d.val k.val
  | _ => 0

/-- Signal 0 of a user site's island, on which PULSE and COUNT cells see their pulse, is fed by a pin (R195, R509). -/
def State.pulseFed (s : State) (site : Site) : Bool := (s.captured site 1).testBit 0

/-- ISLAND_PULSE (R177, R178, R195): the source toggle inverts, or the pulse merges into the pending event. -/
def execIslandPulse (site : Site) (s : State) : Result :=
  let k := siteNum site
  let x := s.cellAt k
  if s.siteType site = 2 ∧ s.cellOn site true = true ∧ s.pulseFed site = true then
    if x.srcToggle = x.retToggle then
      .next ((s.setCell k { x with srcToggle := !x.srcToggle, presented := false, merged := false }).cellPresent site)
    else
      let o := siteRecord site
      let first := decide (s.rd o 5 = 0)
      let s1 := (s.setCell k { x with merged := x.merged || !x.presented }).bump o 5 1 1
      .next (if first then s1.raise 0x0B04 2 1 (bitChan site 1) [(20, 1, s1.rd o 5)] else s1)
  else .next s

/-- PULSE_RETURN_TOGGLE (R177, R178): the return toggle is seen, and the event is no longer pending. Out of the island, once
the token has been taken and the channel is at rest; into the island, the fabric's token is acknowledged now. -/
def execPulseReturnToggle (site : Site) (s : State) : Result :=
  let k := siteNum site
  let n := siteRegion site
  let slot := siteSlot site + 14
  let x := s.cellAt k
  if s.siteType site = 2 ∧ x.srcToggle ≠ x.retToggle then
    if s.cellOn site true then
      if x.presented ∧ s.fab.bitOut n slot = false ∧ s.fab.ack (.site n slot) = false then
        match s.cycleDecide n (bitChan site 1) with
        | none => .next (s.siteWait n 2)
        | some t => .next (t.setCell k { x with retToggle := x.srcToggle, presented := false, merged := false })
      else .next (s.cellPresent site)
    else if s.cellOn site false then
      match s.bitTake n slot with
      | none => .next s
      | some t => .next (t.setCell k { x with retToggle := x.srcToggle, presented := false })
    else .next s
  else .next s

/-- FABRIC_PULSE (R178): the cell sees a fabric token and delivers one pulse; it acknowledges only at the return toggle. -/
def execFabricPulse (site : Site) (s : State) : Result :=
  let k := siteNum site
  let x := s.cellAt k
  if s.siteType site = 2 ∧ s.cellOn site false = true ∧ x.srcToggle = x.retToggle then
    match s.bitTake (siteRegion site) (siteSlot site + 14) with
    | none => .next s
    | some _ =>
      match s.enterIsland site (bitChan site 0) with
      | none => .next (s.enterWait site)
      | some t => .next ((t.setCell k { x with srcToggle := !x.srcToggle, presented := true, delivered := x.delivered + 1 }).launch site [1])
  else .next s

/-- COUNT_ISLAND_EVENT (R180, R195): one event is added, or dropped while 63 are outstanding. -/
def execCountIslandEvent (site : Site) (s : State) : Result :=
  if s.siteType site = 3 ∧ s.cellOn site true = true ∧ s.pulseFed site = true then
    let s1 := s.cellPresent site
    let x := s1.cellAt (siteNum site)
    if x.outstanding = 63 then .next (s1.overrun site (bitChan site 1))
    else .next ((s1.setCell (siteNum site) { x with written := (x.written + 1) % 64 }).cellPresent site)
  else .next s

/-- COUNT_FABRIC_TOKEN (R180): a fabric token adds one event, or is withheld while 63 are outstanding. -/
def execCountFabricToken (site : Site) (s : State) : Result :=
  let k := siteNum site
  let x := s.cellAt k
  if s.siteType site = 3 ∧ s.cellOn site false = true ∧ x.outstanding < 63 then
    match s.bitTake (siteRegion site) (siteSlot site + 14) with
    | none => .next s
    | some t =>
      match t.enterIsland site (bitChan site 0) with
      | none => .next (s.enterWait site)
      | some t1 => .next (t1.setCell k { x with written := (x.written + 1) % 64 })
  else .next s

/-- Direction of the channel that names a site in an event (R107): a user site's own; 0, towards the island, for a fixed site, which has
both (notes/assumptions/175.md). -/
def State.siteDir (s : State) (site : Site) : Nat := ((s.siteCfg site).testBit 10).toNat

/-- The reset epochs of a cell after one half alone was reset (R184). -/
def CellRec.halfLost (x : CellRec) (islandHalf : Bool) : CellRec :=
  if islandHalf then { x with epochI := !x.epochI } else { x with epochF := !x.epochF }

/-- SKEW (R184): one half has lost its state alone, and its reset has inverted its epoch. On the mismatch both halves are reset, the other
half's epoch follows, and the site's flag and count are set. -/
def execSkew (site : Site) (islandHalf : Bool) (s0 : State) : Result :=
  let n := s0.cellTokens site
  let x := (s0.cellAt (siteNum site)).halfLost islandHalf
  let chan := if s0.siteType site < 2 then siteChan site (s0.siteDir site) else bitChan site (s0.siteDir site)
  let s := s0.setCell (siteNum site) x
  let e := if islandHalf then x.epochI else x.epochF
  let r := s.resetCell site
  let s1 := r.setCell (siteNum site) { r.cellAt (siteNum site) with epochF := e, epochI := e }
  let o := siteRecord site
  let s2 := match site with | .user _ _ => (s1.wr o 4 1).bump o 8 4 1 | _ => s1
  if x.epochF = x.epochI then .next s
  else .next (s2.raise 0x0B03 2 2 chan [(20, 1, islandHalf.toNat), (22, 2, n), (24, 4, match site with | .user _ _ => s2.rd o 8 | _ => 0)])

/-- TIME_SITE_REQUEST (R187): a request token on word slot 13 waits for the first tick after it is seen. -/
def execTimeSiteRequest (r : Region) (s : State) : Result :=
  let n := rn r
  if s.dev.timeWaiters.contains n || !(s.fab.siteOut.get (fun _ => []) (n * 16 + 13)).isEmpty then .next s
  else match s.siteTakeAny n 13 with
    | none => .next s
    | some t => .next { t with dev := { t.dev with timeWaiters := t.dev.timeWaiters ++ [n] } }

/-- A waiting TIME request captures device time and is answered (R187, R149); it waits on while its log cannot take the
record. -/
def State.timeAnswer (s : State) (n : Nat) : State :=
  match s.siteDecide n 3 (chanId 3 n 0 0 13) s.now with
  | none => s.siteWait n 3
  | some (v, t) =>
    let t1 := { t with dev := { t.dev with timeWaiters := t.dev.timeWaiters.filter (fun m => decide (m ≠ n)) } }
    { t1 with fab := t1.fab.give n 13 [replyWord (v % 2 ^ 64)] }

end Sys2Proof.Machine
end

