-- ==== Sys2Proof/Machine/Mport.lean ====
section
/-! DEFINITION. Annulus ports (R233 to R239, R245): responses in order, the response buffer, the port's cell, and panic. A
port is named by 64 × die + its number. -/

namespace Sys2Proof.Machine

/-- A port's state. -/
def State.mport (s : State) (k : Nat) : MPortSt := s.mem.ports.get (fun _ => {}) k
/-- Set a port's state. -/
def State.setMport (s : State) (k : Nat) (x : MPortSt) : State :=
  { s with mem := { s.mem with ports := s.mem.ports.put (fun _ => {}) k x } }
/-- Object index of a port's record. -/
def mpObj (k : Nat) : Nat := mportObj (k / 64) (k % 64)
/-- Site of a fabric port's request and response channels (R186). -/
def mpSite (k : Nat) : Site := .memory (Fin.ofNat 2 (k / 64)) (Fin.ofNat 32 (k % 64))
/-- Region number of a fabric port. -/
def mpRegion (k : Nat) : Nat := 32 * (k / 64) + k % 64

/-- The level that a real-time port watches (R245): words in its response buffer for RT 1; free entries of its request
buffer at 17 words each for RT 2. -/
def State.rtLevel (s : State) (k : Nat) : Nat :=
  let x := s.mport k
  if s.rd (mpObj k) 3 = 2 then 17 * (32 - x.reqs.length) else x.resp.length

/-- Panic follows the watched level (R245): entered below PANIC_ON, left at PANIC_OFF. -/
def State.panicCheck (s : State) (k : Nat) : State :=
  let o := mpObj k
  if s.rd o 3 = 0 then s
  else if s.rd o 7 = 0 ∧ s.rtLevel k < s.rd o 4 then
    ((s.wr o 7 1).bump o 8 4 1).setMport k { s.mport k with panicAt := s.now }
  else if s.rd o 7 = 1 ∧ s.rd o 5 ≤ s.rtLevel k then s.wr o 7 0
  else s

/-- A read of a port is outstanding (R245). -/
def MPortSt.readsDue (x : MPortSt) : Bool := x.reqs.any (fun r => decide (r.op = 0)) || x.slots.any (fun r => r.read)

/-- Responses that are complete enter the response buffer in the order of their requests (R236). A read of a port in panic
measures its latency (R251, R263). -/
def State.release (s : State) (k : Nat) : Nat → State
  | 0 => s
  | fuel + 1 =>
    let x := s.mport k
    match x.slots with
    | [] => s
    | r :: rest =>
      if r.due = 0 then
        let s1 := s.setMport k { x with slots := rest, resp := x.resp ++ r.words }
        let o := mpObj k
        let s2 := if r.read ∧ s.rd o 7 = 1 then
            s1.wr o 0xB (min (2 ^ 32 - 1) (max (s.rd o 0xB) (s.now - max r.at_ x.panicAt))) else s1
        s2.release k fuel
      else s

/-- The response channel moves words while the Annulus is clocked and its cell is not FULL (R173, R239). A real-time read port whose buffer runs empty in
panic with reads outstanding raises event 0x040B (R245); the level falls word by word, so that the port has entered panic before
its buffer is empty. -/
def State.drainPort (s : State) (k : Nat) : State :=
  let s0 := (s.release k ((s.mport k).slots.length)).panicCheck k
  let x := s0.mport k
  let n := mpRegion k
  let room := if s0.cellOn (mpSite k) true then 16 - (s0.fab.siteOut.get (fun _ => []) (n * 16 + 12)).length else 0
  let moved := x.resp.take room
  let s1 := s0.setMport k { x with resp := x.resp.drop room }
  let s2 := (if moved = [] then s1 else { s1 with fab := s1.fab.give n 12 moved }).panicCheck k
  let o := mpObj k
  let ranDry := !moved.isEmpty && (x.resp.drop room).isEmpty && decide (s2.rd o 3 = 1) && decide (s2.rd o 7 = 1) && (s2.mport k).readsDue
  if ranDry then
    let t := s2.bump o 9 4 1
    t.raise 0x040B 3 2 o [(24, 4, t.rd o 9)]
  else s2

/-- Every port's response channel moves on. -/
def State.drainPorts (s : State) : State := s.each State.drainPort (s.mem.ports.keysWhere (fun _ _ => true))

end Sys2Proof.Machine
end

