-- ==== Sys2Proof/Machine/Clocks.lean ====
section
/-! DEFINITION. PLL loops, user islands, the always-on domain and device time (R190 to R204). -/

namespace Sys2Proof.Machine

/-- Number of a loop among both dies. -/
def loopNum (l : Loop) : Nat := 9 * l.die.val + l.n.val

/-- A loop's progress. -/
def State.loop (s : State) (l : Loop) : LoopSt := s.cell.loops.get (fun _ => {}) (loopNum l)
/-- Set a loop's progress. -/
def State.setLoop (s : State) (l : Loop) (x : LoopSt) : State :=
  { s with cell := { s.cell with loops := s.cell.loops.put (fun _ => {}) (loopNum l) x } }

/-- The user island that a loop drives (R191): loops 5 to 8. -/
def loopIsland (l : Loop) : Option Island := if 5 ≤ l.n.val then some ⟨l.die, Fin.ofNat 4 (l.n.val - 5)⟩ else none
/-- The loop of a user island. -/
def islandLoop (i : Island) : Loop := ⟨i.die, Fin.ofNat 9 (5 + i.i.val)⟩

/-- Set STATE of the island that a loop drives, if it drives one. -/
def State.setIslandOf (s : State) (l : Loop) (st : Nat) : State :=
  match loopIsland l with
  | some i => s.wr (islObj i.die.val i.i.val) 2 st
  | none => s

/-- REF_SEL of a loop as it starts: a fixed loop takes the first of its references that is present (R191), the last where none is. -/
def State.loopChoice (s : State) (l : Loop) : Nat :=
  let sysref := decide (s.rd 0xA000 2 = 1)
  match l.n.val with
  | 0 => Config.refCode 0
  | 1 => Config.refCode (1 + l.die.val)
  | 2 => if sysref then 0 else Config.refCode (1 + l.die.val)
  | 3 | 4 => if sysref then 0 else 1
  | _ => s.rd (loopObj l) 4

/-- A loop starts (R192, R193): STARTING, its island with it; a start clears FAILED. With the VCL rail of its die in fault it stays
stopped (R335). -/
def State.loopStart (s : State) (l : Loop) : State :=
  if s.rd (railObj (4 * l.die.val + 3)) 5 = 2 then s
  else
  let holder := match loopIsland l with
    | some i => s.rd (islObj i.die.val i.i.val) 1
    | none => 1
  ((s.setLoop l { s.loop l with startedAt := s.now, retried := false, idleSince := none }).wrs (loopObj l)
    [(2, 1), (3, holder), (4, s.loopChoice l)]).setIslandOf l 1

/-- Consumers of a fixed loop's block are active (R192): the link in a clocked state; an enabled lane; a stack out of
self-refresh; and for the Perimeter and Apex-fast loops Apex awake on the die, which serves both. -/
def State.loopActive (s : State) (l : Loop) : Bool :=
  let d := l.die.val
  match l.n.val with
  | 0 => decide (d = 0) && decide (1 ≤ s.rd 0x5000 1) && decide (s.rd 0x5000 1 ≤ 5)
  | 1 => (List.range 8).any (fun k => decide (s.rd (0x5810 + 8 * d + k) 3 = 1))
  | 2 => decide (s.rd (0x4010 + d) 1 ≠ 2)
  | 3 => s.dev.awake.contains d || decide (s.rd 0x3000 0xA = 0)
  | 4 => s.dev.awake.contains d
  | _ => match loopIsland l with
    | some i => decide (s.rd (islObj i.die.val i.i.val) 3 = 1)
    | none => false

/-- A self-test holds the loop, its consumers not connected (R537). -/
def State.loopTested (s : State) (l : Loop) : Bool := s.unitHeld (unitKey 6 (16 * l.die.val + l.n.val))

/-- PLL_START (R191 to R193): a consumer is active, or the loop's island enabled, and the loop is OFF or FAILED. The Host
loop of die 1 is never started. A consumer's start ends a self-test of the loop (R537), which stays out of service where the test could
not hand it back (R538). -/
def execPllStart (l : Loop) (s : State) : Result :=
  if s.dev.por ∨ (l.n.val = 0 ∧ l.die.val = 1) ∨ s.loopActive l = false then .next s
  else
    let t := if s.loopTested l then s.unitRequest (unitKey 6 (16 * l.die.val + l.n.val)) else s
    let st := t.rd (loopObj l) 2
    .next (if (st = 0 ∨ st = 4) ∧ t.loopTested l = false then t.loopStart l else t)

/-- PLL_LOCK (R191, R192): a STARTING loop with a reference locks within 20 µs, and its island runs, unless a self-test holds the loop
(R537). -/
def execPllLock (l : Loop) (s : State) : Result :=
  let x := s.loop l
  if s.rd (loopObj l) 2 = 1 ∧ s.now < x.startedAt + 20000 ∧ s.loopRef (16 * l.die.val + l.n.val) = true then
    let t := (s.wr (loopObj l) 2 2).wr (loopObj l) 7 (s.now - x.startedAt)
    .next (if s.loopTested l then t else t.setIslandOf l 2)
  else .next s

/-- PLL_LOCK_TIMEOUT (R193): 20 µs without lock: one retry, then FAILED with event 0x0B01. -/
def execPllLockTimeout (l : Loop) (s : State) : Result :=
  let x := s.loop l
  if s.loopTested l = false ∧ s.rd (loopObj l) 2 = 1 ∧ x.startedAt + 20000 ≤ s.now then
    if x.retried then
      .next (((s.wr (loopObj l) 2 4).setIslandOf l 0).raise 0x0B01 1 2 (locDie l.die.val)
        [(20, 1, l.n.val), (21, 1, s.rd (loopObj l) 4)])
    else .next (s.setLoop l { x with retried := true, startedAt := s.now })
  else .next s

/-- PLL_IDLE_STOP (R192): a fixed loop whose consumers have all been idle for IDLE_STOP stops; 0 never stops. -/
def execPllIdleStop (l : Loop) (s : State) : Result :=
  let x := s.loop l
  let stop := s.rd (loopObj l) 6
  match x.idleSince with
  | none => .next s
  | some t =>
    if s.loopTested l = false ∧ l.n.val < 5 ∧ s.rd (loopObj l) 2 = 2 ∧ s.loopActive l = false ∧ stop ≠ 0 ∧ t + 1000 * stop ≤ s.now then
      .next (((s.wr (loopObj l) 2 0).wr (loopObj l) 3 0xFF).setLoop l { x with idleSince := none })
    else .next s

/-- Event 0x0B02 of a loop whose holdover ends (R194, R204): outcome 0 relocked, 1 island reset; with the holdover's length. -/
def State.holdoverEnd (s : State) (l : Loop) (outcome : Nat) : State :=
  s.raise 0x0B02 1 1 (locDie l.die.val) [(20, 1, l.n.val), (21, 1, outcome), (24, 4, (s.now - (s.loop l).lostAt) % 2 ^ 32)]

/-- PLL_LOCK_LOST (R194): HOLDOVER; the island holds. Event 0x0B02, which carries how the holdover ended and its length, is raised as it
ends (notes/assumptions/15.md). -/
def execPllLockLost (l : Loop) (s : State) : Result :=
  if s.loopTested l = false ∧ s.rd (loopObj l) 2 = 2 then
    .next ((((s.setLoop l { s.loop l with lostAt := s.now }).wr (loopObj l) 2 3).setIslandOf l 3).bump (loopObj l) 8 4 1)
  else .next s

/-- An island reset waits for its fabric halves: its cause and its start. -/
def State.resetWait (s : State) (l : Loop) : Option (Nat × Nat) := s.cell.resetting.get (fun _ => none) (loopNum l)
/-- Set what an island reset waits for. -/
def State.setResetWait (s : State) (l : Loop) (v : Option (Nat × Nat)) : State :=
  { s with cell := { s.cell with resetting := s.cell.resetting.put (fun _ => none) (loopNum l) v } }

/-- PLL_RELOCK (R194): lock returns within 100 µs; the island resumes. An island that is being reset goes on with that. -/
def execPllRelock (l : Loop) (s : State) : Result :=
  if s.rd (loopObj l) 2 = 3 ∧ s.now < (s.loop l).lostAt + 100000 ∧ s.loopRef (16 * l.die.val + l.n.val) = true then
    let t := s.wr (loopObj l) 2 2
    .next ((if (s.resetWait l).isSome then t else t.setIslandOf l 2).holdoverEnd l 0)
  else .next s

/-- Cells of the island that a fixed loop clocks (R186, R190). -/
def fixedSites (l : Loop) : List Site :=
  match l.n.val with
  | 0 => if l.die.val = 0 then (List.finRange 32).map Site.host else []
  | 1 => (List.finRange 8).flatMap (fun k => (List.finRange 4).map (Site.lane l.die k))
  | 2 => (List.finRange 32).map (Site.memory l.die)
  | 3 => (List.finRange 40).filterMap (fun c => if c.val / 20 = l.die.val then some (Site.pin c) else none)
  | 4 => [Site.object l.die false, Site.object l.die true]
  | _ => []

/-- Sites of the cells that a loop clocks. -/
def State.loopSites (s : State) (l : Loop) : List Site :=
  match loopIsland l with
  | some i => s.islandSites i
  | none => fixedSites l

/-- A user island after its reset (R194, R196): stopped with its loop released while ENABLE is 0; else its loop restarts, or runs on after a
reset by RESET_CTRL. -/
def State.islandAfter (s : State) (i : Island) (cause : Nat) : State :=
  let o := islObj i.die.val i.i.val
  let l := islandLoop i
  if s.rd o 3 = 0 then
    (if s.loopTested l then s else s.wrs (loopObj l) [(2, 0), (3, 0xFF)]).wr o 2 0
  else if cause ≠ 0 then s.loopStart l
  else s.wr o 2 (match s.rd (loopObj l) 2 with | 1 => 1 | 2 => 2 | 3 => 3 | _ => 0)

/-- An island's cells are reset (R182), a user island's with event 0x0B0C (R196): cause 0 write, 1 domain reset, 2 disable, 3 lock loss. -/
def State.resetNow (s0 : State) (l : Loop) (cause : Nat) : State :=
  let s := s0.setResetWait l none
  let sites := s.loopSites l
  match loopIsland l with
  | some i =>
    let cnt := s.cellsTokens sites
    let t := ((s.resetCells sites).wr (islObj i.die.val i.i.val) 6 0).raise 0x0B0C 1 0 (locDie i.die.val)
      [(20, 1, i.i.val), (21, 1, cause), (24, 4, cnt)]
    t.islandAfter i cause
  | none => (s.resetCells sites).loopStart l

/-- A waiting island reset takes place once every fabric half of the island is at rest, or after 10 µs (R182). -/
def State.resetSettle (s : State) (l : Loop) : State :=
  match s.resetWait l with
  | none => s
  | some (cause, since) => if (s.loopSites l).all s.halfAtRest || decide (since + 10000 ≤ s.now) then s.resetNow l cause else s

/-- An island reset begins (R182, R196): the island is RESETTING. One that begins while another waits goes on with that one's time
(notes/assumptions/173.md). -/
def State.resetStart (s : State) (l : Loop) (cause : Nat) : State :=
  let since := match s.resetWait l with | some (_, t) => t | none => s.now
  ((s.setResetWait l (some (cause, since))).setIslandOf l 4).resetSettle l

/-- A user island is reset (R196). -/
def State.islandReset (s : State) (i : Island) (cause : Nat) : State := s.resetStart (islandLoop i) cause

/-- PLL_HOLDOVER_EXPIRY (R194, R196): lock has not returned within 100 µs: the island is reset and the loop restarts. -/
def execPllHoldoverExpiry (l : Loop) (s : State) : Result :=
  if s.rd (loopObj l) 2 = 3 ∧ (s.loop l).lostAt + 100000 ≤ s.now ∧ s.resetWait l = none then .next ((s.holdoverEnd l 1).resetStart l 3)
  else .next s

/-- A token is offered to a cell of a loop's block: on its routed word or bit input, or on a pin's request channel. -/
def State.tokenOffered (s : State) (site : Site) : Bool :=
  let n := siteRegion site
  (s.fab.offered (sinkSite n (siteSlot site))).isSome ||
    (match site with
     | .user _ _ => (match s.fab.siteBitSrc n (siteSlot site + 14) with | some src => s.fab.req src | none => false)
     | .pin _ => (s.fab.offered (sinkSite n 7)).isSome
     | .lane _ _ k => decide (k.val = 0) && (s.fab.offered (sinkSite n 4)).isSome
     | _ => false)

/-- ISLAND_WAKE (R192): a token offered to a cell of an island whose loop is stopped starts the loop. A user island whose
ENABLE is 0 is not woken: its sites are INERT (R189). -/
def execIslandWake (l : Loop) (s : State) : Result :=
  let st := s.rd (loopObj l) 2
  if st = 0 ∧ ¬ (l.n.val = 0 ∧ l.die.val = 1) ∧ s.dev.por = false ∧ s.loopTested l = false then
    match loopIsland l with
    | some i =>
      if s.rd (islObj i.die.val i.i.val) 3 = 1 ∧ (s.islandSites i).any s.tokenOffered = true then .next (s.loopStart l) else .next s
    | none => if (fixedSites l).any s.tokenOffered then .next (s.loopStart l) else .next s
  else .next s

/-- An island is enabled (R192): it claims its loop and starts. One that is being reset starts after that. -/
def State.islandOn (s : State) (i : Island) : State :=
  if s.rd (islObj i.die.val i.i.val) 3 = 1 then s
  else
    let t := s.wr (islObj i.die.val i.i.val) 3 1
    if (s.resetWait (islandLoop i)).isSome then t else t.loopStart (islandLoop i)

/-- An island is disabled (R196): reset and stopped, its loop OFF and released. A domain reset has cause 1. A holdover ends with the reset. -/
def State.islandOff (s : State) (i : Island) (cause : Nat) : State :=
  let l := islandLoop i
  let t := if s.rd (loopObj l) 2 = 3 ∧ s.resetWait l = none then s.holdoverEnd l 1 else s
  (t.wr (islObj i.die.val i.i.val) 3 0).islandReset i cause

/-- ISLAND_ENABLE (R196, R203): ENABLE 1 starts the island; ENABLE 0 resets and stops it. -/
def execIslandEnable (q : Req) (i : Island) (v : BitVec 8) (s : State) : Result :=
  s.writing q (islObj i.die.val i.i.val) 3 1 v.toNat (fun t => if v = 1 then t.islandOn i else t.islandOff i 2)

/-- ISLAND_RESET (R196): every cell of the island is reset. -/
def execIslandReset (q : Req) (i : Island) (v : BitVec 8) (s : State) : Result :=
  s.writing q (islObj i.die.val i.i.val) 5 1 v.toNat (fun t => t.islandReset i 0)

/-- AO_CLOCK_FAIL (R197): AO_SOURCE 2, event 0x0B0A; the RC oscillator runs on. -/
def execAoClockFail (s : State) : Result :=
  if s.rd 0xA000 1 = 2 then .next s
  else .next (((s.wr 0xA000 1 2).wr 0xA000 3 1).raise 0x0B0A 1 2 (locDie 0) [])

/-- AO_CRYSTAL_RETURN (R197): edges are seen again; the RC oscillator stops unless Apex is awake. -/
def execAoCrystalReturn (s : State) : Result :=
  if s.rd 0xA000 1 = 2 then .next ((s.wr 0xA000 1 0).wr 0xA000 3 (if s.dev.awake = [] then 0 else 1)) else .next s

/-- RC_TRIM (R198): the RC oscillator is trimmed against the crystal. No object holds the trim, and every frequency of the
model is nominal. -/
def execRcTrim (s : State) : Result := .next s

/-- TICK of a TIME_SOURCE, ns in Q16.16 (R200). -/
def tickOf (src : Nat) : Nat := if src = 0 then 655360 else if src = 1 then 4096000 else 2000000000

/-- The time base follows a source (R200). -/
def State.setTimeSource (s : State) (src : Nat) : State := (s.wr 0xA200 2 src).wr 0xA200 3 (tickOf src)

/-- The source in the absence of SYS_REFCLK (R200). -/
def State.innerSource (s : State) : Nat := if s.dev.awake = [] then 2 else 1

/-- Without SYS_REFCLK the time base follows what runs (R200). -/
def State.timeFollow (s : State) : State := if s.rd 0xA000 2 = 1 then s else s.setTimeSource s.innerSource

/-- A die's Apex wakes (R471, R198): the RC oscillator runs. -/
def State.apexAwake (s : State) (d : Nat) : State :=
  if s.dev.awake.contains d then s
  else (({ s with dev := { s.dev with awake := s.dev.awake ++ [d] } } : State).wr 0xA000 3 1).timeFollow

/-- A die's Apex returns to always-on operation (R471, R198): with both asleep the RC oscillator stops, unless the always-on domain
runs from it (R197). -/
def State.apexSleep (s : State) (d : Nat) : State :=
  let t : State := { s with dev := { s.dev with awake := s.dev.awake.filter (fun e => decide (e ≠ d)) } }
  (if t.dev.awake = [] ∧ t.rd 0xA000 1 ≠ 2 then t.wr 0xA000 3 0 else t).timeFollow

/-- REFCLK_LOST (R200): the time base switches without a phase step. -/
def execRefclkLost (s : State) : Result :=
  if s.rd 0xA000 2 = 1 then
    let src := s.innerSource
    .next (((s.wr 0xA000 2 2).setTimeSource src).raise 0x0B07 1 1 (locDie 0) [(20, 1, src)])
  else .next s

/-- REFCLK_RESTORED (R200): SYS_REFCLK counts as present. -/
def execRefclkRestored (s : State) : Result :=
  if s.rd 0xA000 2 = 1 then .next s
  else .next (((s.wr 0xA000 2 1).setTimeSource 0).raise 0x0B08 1 0 (locDie 0) [(20, 1, 0)])

/-- A window of length `d` that is over by now ends now (R201). -/
def endNow (start d now : Nat) : Nat := if start + d ≤ now then now - d else start

/-- A step of device time (R201): the boundaries inside the span that it skips become one boundary at the new time, where the Ledger's
window and every open window of an interrupt line that would have ended in the span end. -/
def State.stepWindows (s : State) : State :=
  let s1 : State := { s with led := { s.led with windowStart := endNow s.led.windowStart (s.rd 0x3000 1) s.now } }
  (List.range 10).foldl (fun t n =>
    let x := t.pin.lines.get (fun _ => {}) n
    if x.open_ then
      { t with pin := { t.pin with lines := t.pin.lines.put (fun _ => {}) n { x with from_ := endNow x.from_ (1000 * t.rd (0x6130 + n) 5) t.now } } }
    else t) s1

/-- A forward step of device time (R201): the Ledger's window that was open at the step closes at the new time if its boundary lies in the
span, with what has been counted so far. -/
def State.timeStep (s : State) (c : Nat) : State :=
  let t := (s.wr 0xA200 1 ((s.now + c) % 2 ^ 64)).stepWindows
  let u := if s.led.windowStart + s.rd 0x3000 1 ≤ t.now ∧ s.led.closing = none ∧ s.rd 0x1020 1 = 3 then t.meterSwap else t
  (u.bump 0xA200 0xC 4 1).raise 0x0B06 1 1 (locDie 0) [(24, 8, c)]

/-- A correction of device time by `c` ns (R201): a forward one of STEP_THRESHOLD or more is a step, any other is slewed, beside the slew
`pending` that is not yet used up (in 2^-32 ns). -/
def State.correctTime (s : State) (pending c : Int) : State :=
  if (s.rd 0xA200 6 : Int) ≤ c then ({ s with dev := { s.dev with slew := pending } } : State).timeStep c.toNat
  else { s with dev := { s.dev with slew := pending + c * 2 ^ 32 } }

/-- OFFSET_ADJUST (R201, R203). -/
def execOffsetAdjust (q : Req) (v : BitVec 64) (s : State) : Result :=
  s.writing q 0xA200 5 8 v.toNat (fun t => t.correctTime t.dev.slew (toSigned 64 v.toNat))

/-- The advance of one tick in units of 2^-32 ns, slew apart (R199, R201): TICK with RATE_ADJ. -/
def State.tickStep (s : State) : Nat :=
  (((s.rd 0xA200 3 * 65536 : Nat) : Int) * (1000000000 + toSigned 32 (s.rd 0xA200 4)) / 1000000000).toNat

/-- The part of the pending slew that one tick applies: at most 100 ppm of the tick (R201). -/
def State.slewStep (s : State) : Int :=
  let m : Int := ((s.rd 0xA200 3 * 65536 / 10000 : Nat) : Int)
  if s.dev.slew < -m then -m else if m < s.dev.slew then m else s.dev.slew

/-- Device time advances by one tick (R199). -/
def State.timeAdvance (s : State) : State :=
  let d := s.slewStep
  let sum := ((s.now * 2 ^ 32 + s.dev.timeFrac + s.tickStep : Nat) : Int) + d
  let v := sum.toNat
  { (s.wr 0xA200 1 (v / 2 ^ 32 % 2 ^ 64)) with dev := { s.dev with timeFrac := v % 2 ^ 32, slew := s.dev.slew - d } }

/-- Cycles of a user island's clock between two device times, at its nominal frequency. -/
def cyclesBetween (freq t0 t1 : Nat) : Nat := t1 * freq / 10 ^ 9 - t0 * freq / 10 ^ 9

/-- `k` cycles of a running island at one of its sites: into the island one word or event a cycle leaves the cell (R174,
R180, R195); out of it a waiting event is presented. -/
def State.siteCycles (s0 : State) (k : Nat) (site : Site) : State :=
  let j := siteNum site
  let s := s0.setCell j { s0.cellAt j with cycles := (s0.cellAt j).cycles + k }
  let x := s.cellAt j
  if s.cellOn site true then (if 2 ≤ s.siteType site then s.cellPresent site else s)
  else if s.siteType site = 0 then
    match (x.fifo.take k).getLast? with
    | none => s
    | some w => (s.setCell j { x with fifo := x.fifo.drop k, delivered := x.delivered + min k x.fifo.length,
                                      value := BitVec.ofNat 128 (w.data.toNat % s.siteBits site) }).launch site
                  ((x.fifo.take k).map (fun v => v.data.toNat % s.siteBits site))
  else if s.siteType site = 3 then
    (s.setCell j { x with delivered := (x.delivered + min k x.outstanding) % 64 }).launch site (List.replicate (min k x.outstanding) 1)
  else s

/-- An operation for each site of a list. -/
def State.eachSite (s : State) (f : State → Site → State) : List Site → State
  | [] => s
  | a :: l => (f s a).eachSite f l

/-- The cycles that replay still lets an island count for the record that waits at the head for one of its sites (R159). -/
def State.cycleLimit (s : State) (site : Site) : Option Nat :=
  match s.headRecord (siteRegion site) with
  | none => none
  | some w =>
    if s.rd (detObj (siteRegion site)) 3 = 2 ∧ recKind w = 2 ∧
        (recSource w = siteChan site 0 ∨ recSource w = bitChan site 0 ∨ recSource w = bitChan site 1) then
      some (recDecision w % 2 ^ 48 - (s.cellAt (siteNum site)).cycles % 2 ^ 48)
    else none

/-- Time passes for one user island. In replay it counts no cycle beyond the one of the record at the head, and is HELD meanwhile
(R159). -/
def State.islandCycles (s : State) (t0 : Nat) (i : Island) : State :=
  if s.islandLive i.die.val i.i.val then
    let k0 := cyclesBetween (s.rd (loopObj (islandLoop i)) 5) t0 s.now
    let k := ((s.islandSites i).filterMap s.cycleLimit).foldl min k0
    let t := s.wr (islObj i.die.val i.i.val) 2 (if k < k0 then 3 else 2)
    (t.tally (islObj i.die.val i.i.val) 6 k).eachSite (fun t a => t.siteCycles k a) (s.islandSites i)
  else s

/-- Time passes for each user island of a list. -/
def State.islandsCycles (s : State) (t0 : Nat) : List Island → State
  | [] => s
  | i :: l => (s.islandCycles t0 i).islandsCycles t0 l

/-- Every loop's island reset that waits goes on. -/
def State.resetsSettle (s : State) : State :=
  (s.cell.resetting.keysWhere (fun _ v => v.isSome)).foldl (fun t k => t.resetSettle ⟨Fin.ofNat 2 (k / 9), Fin.ofNat 9 k⟩) s

/-- Every user island. -/
def islands : List Island := (List.finRange 2).flatMap (fun d => (List.finRange 4).map (fun i => ⟨d, i⟩))

/-- Since when a running fixed loop's consumers have all been idle (R192). -/
def State.loopIdle (s : State) (l : Loop) : State :=
  let x := s.loop l
  let idle := decide (s.rd (loopObj l) 2 = 2) && !s.loopActive l
  if idle then (match x.idleSince with | none => s.setLoop l { x with idleSince := some s.now } | some _ => s)
  else match x.idleSince with
    | some _ => s.setLoop l { x with idleSince := none }
    | none => s

/-- The idle times of every loop of a list. -/
def State.loopsIdle (s : State) : List Loop → State
  | [] => s
  | l :: rest => (s.loopIdle l).loopsIdle rest

/-- The fixed loops of both dies. -/
def fixedLoops : List Loop := (List.finRange 2).flatMap (fun d => (List.range 5).map (fun n => ⟨d, Fin.ofNat 9 n⟩))

end Sys2Proof.Machine
end

