-- ==== Sys2Proof/Machine/Annulus.lean ====
section
/-! DEFINITION. Annulus controllers (R228 to R264): requests, admission and order, scheduling, refresh, parity alerts, error
correction, power-down, self-refresh and zeroing. A pseudo-channel is named by 32 × stack + its number. -/

namespace Sys2Proof.Machine

/-- Object index of a pseudo-channel's record. -/
def pcRec (c : Nat) : Nat := 0x4300 + c

/-- tREFI of a stack, ns (R247, R249). -/
def State.trefi (s : State) (d : Nat) : Nat := if s.rd (ctlObj d) 3 = 1 then 1950 else 3900

/-- The controller is in a state in which it refreshes its pseudo-channels. -/
def State.refreshes (s : State) (d : Nat) : Bool := decide (s.rd (ctlObj d) 1 = 1) || decide (s.rd (ctlObj d) 1 = 3)

/-- D at the present time, in 1/64 ns (R248): it grows with device time while the controller refreshes the stack. -/
def State.debtNow (s : State) (c : Nat) : Nat :=
  let x := s.pc c
  if s.refreshes (c / 32) then x.debt + 64 * (s.now - x.last) else x.debt

/-- n of a debt in 1/64 ns, Q16.16 (R263). -/
def State.intervals (s : State) (d debt : Nat) : Nat := debt * 1024 / s.trefi d

/-- Bring a pseudo-channel's debt forward. -/
def State.ageDebt (s : State) (c : Nat) : State :=
  let v := s.debtNow c
  let s1 := s.setPc c { s.pc c with debt := v, last := s.now }
  s1.wr (pcRec c) 3 (max (s.rd (pcRec c) 3) (min (2 ^ 31 - 1) (s.intervals (c / 32) v)))

/-- Debt limits in intervals: the debt is at least 1 interval. -/
def State.owes (s : State) (c : Nat) : Bool := decide (64 * s.trefi (c / 32) ≤ (s.pc c).debt)
/-- The debt is above 8 intervals. -/
def State.overdue (s : State) (c : Nat) : Bool := decide (8 * 64 * s.trefi (c / 32) < (s.pc c).debt)

/-- A FORCED state ends (R248): event 0x0409 reports its entry, with the cause and the debt at entry, and its duration (R249, R264,
notes/assumptions/16.md). -/
def State.forcedEnd (s : State) (c : Nat) : State :=
  let (t0, cause, debt) := (s.pc c).forced
  s.raise 0x0409 3 1 (pcRec c) [(20, 1, cause), (24, 4, debt), (28, 4, s.now - t0)]

/-- A pseudo-channel takes the refresh state that its debt calls for (R248, R249). FORCED is left only as a refresh completes. -/
def State.refreshState (s : State) (c cause : Nat) : State :=
  let st := s.rd (pcRec c) 1
  if 4 ≤ st ∨ st = 2 then s
  else if s.overdue c then
    ((s.setPc c { s.pc c with forced := (s.now, cause, min (2 ^ 31 - 1) (s.intervals (c / 32) (s.pc c).debt)) }).wr (pcRec c) 1 2).bump (pcRec c) 4 4 1
  else if s.owes c then (if st = 0 ∨ st = 3 then s.wr (pcRec c) 1 1 else s)
  else if st = 1 then s.wr (pcRec c) 1 0
  else s

/-- The refresh state after a completed refresh (R248): FORCED ends once n is 8 or less. -/
def State.refreshed (s : State) (c : Nat) : State :=
  if s.rd (pcRec c) 1 = 2 then
    if s.overdue c then s else (s.wr (pcRec c) 1 (if s.owes c then 1 else 0)).forcedEnd c
  else s.refreshState c 0

/-- The reason for which a request of fabric port `k` faults (R238), 0 none. -/
def State.memFault (s : State) (k : Nat) (r : MemReq) : Nat :=
  let o := winObj r.window
  if s.rd o 1 = 0xFF ∨ s.rd o 1 ≠ s.regOwner (mpRegion k) then 1
  else if !(s.rd o 4).testBit (mpRegion k) then 2
  else if s.rd o 3 < 16 * (r.offset + r.len + 1) then 3
  else if r.bad ∨ r.op = 3 then 4
  else if s.mem.zeroing.any (fun z => decide (z.1 = r.window) && !z.2.1) then 5
  else 0

/-- OP, LEN, WINDOW and OFFSET of a request word (R234). -/
def memReqOf (w : Word) (data : List Word) : MemReq :=
  let v := w.data.toNat
  { op := fieldAt v 41 2, len := fieldAt v 37 4, window := fieldAt v 31 6, offset := v % 2 ^ 31, data := data, bad := w.poison }

/-- A write taken before a reset of its port completes before that reset zeroes its window (R260, R261). -/
def State.orphanGoes (s : State) (r : MemReq) : Bool :=
  r.orphan && s.mem.zeroing.all (fun z => decide (z.1 ≠ r.window) || z.2.1)

/-- Requests for a window wait while it is zeroed for its owner's reset (R261), but for the writes that the reset lets complete. -/
def State.heldByZeroing (s : State) (r : MemReq) : Bool :=
  s.mem.zeroing.any (fun z => decide (z.1 = r.window)) && !s.orphanGoes r

/-- Words of a port that stand at its site word output. -/
def State.portOut (s : State) (k : Nat) : List Word := s.fab.siteOut.get (fun _ => []) (mpRegion k * 16 + 12)

/-- Responses of a port that have not wholly entered the region, `out` being the words at its site word output. -/
def MPortSt.owed (x : MPortSt) (out : List Word) : Nat :=
  ((out ++ x.resp).filter (fun w => w.last)).length + x.slots.length + (x.reqs.filter (fun r => decide (r.op ≠ 1))).length

/-- A port with a further request, numbered, its record of owed answers brought up to date. -/
def MPortSt.taking (x : MPortSt) (out : List Word) (r0 : MemReq) : MPortSt :=
  let r := { r0 with seq := x.nextSeq }
  let y := { x with reqs := x.reqs ++ [r], nextSeq := x.nextSeq + 1 }
  let h := if r.op = 1 then x.hist else x.hist ++ [r]
  { y with hist := h.drop (h.length - y.owed out) }

/-- A port of a die is not idle now (R258). -/
def State.portBusy (s : State) (d : Nat) : State := { s with mem := { s.mem with idleFrom := s.mem.idleFrom.set d s.now } }

/-- A port takes a request word of operation `op` with its data words, unless it holds 32 requests (R234, R235, R239). -/
def State.takeRequest (s : State) (die : Fin 2) (p : Fin 32) (op : Nat) (w : Word) (data : List Word) : State :=
  let k := 64 * die.val + p.val
  let x := s.mport k
  let r := memReqOf w data
  if r.op = op ∧ x.reqs.length < 32 then
    match s.siteWords (.memory die p) (w :: data) with
    | none => s
    | some t => ((t.setMport k ((t.mport k).taking (s.portOut k) r)).portBusy die.val).panicCheck k
  else s

/-- MEMORY_READ (R234, R236). -/
def execMemoryRead (die : Fin 2) (p : Fin 32) (w : Word) (s : State) : Result := .next (s.takeRequest die p 0 w [])

/-- A request word is followed by LEN + 1 data words (R235). -/
def dataWordsOk (w : Word) (data : List Word) : Bool := decide (data.length = fieldAt w.data.toNat 37 4 + 1)

/-- MEMORY_WRITE (R235): the request word is followed by LEN + 1 data words. -/
def execMemoryWrite (die : Fin 2) (p : Fin 32) (w : Word) (data : List Word) (s : State) : Result :=
  if dataWordsOk w data then .next (s.takeRequest die p 1 w data) else .refused (.illFormed "MEMORY_WRITE")

/-- MEMORY_WRITE_ACK (R235). -/
def execMemoryWriteAck (die : Fin 2) (p : Fin 32) (w : Word) (data : List Word) (s : State) : Result :=
  if dataWordsOk w data then .next (s.takeRequest die p 2 w data)
  else .refused (.illFormed "MEMORY_WRITE_ACK")

/-- MEMORY_OP_RESERVED (R238): a request with OP 11 carries no data words. -/
def execMemoryOpReserved (die : Fin 2) (p : Fin 32) (w : Word) (s : State) : Result := .next (s.takeRequest die p 3 w [])

/-- Physical address of a request's first word. -/
def State.reqAddr (s : State) (r : MemReq) : Nat := s.rd (winObj r.window) 2 + 16 * r.offset

/-- The column commands of `len` words from an address on, word `place` being first (R243): one for each 32-byte column. -/
def columns (write rt : Bool) (port group acct now : Nat) : Nat → Nat → Nat → List PcCmd
  | 0, _, _ => []
  | len + 1, addr, place =>
    let both := decide (addr % 32 = 0) && decide (0 < len)
    { write := write, port := port, group := group, addr := addr, place := place, words := if both then 2 else 1,
      at_ := now, aged := false, rt := rt, acct := acct } ::
      (if both then columns write rt port group acct now (len - 1) (addr + 32) (place + 2)
       else columns write rt port group acct now len (addr + 16) (place + 1))

/-- Commands that wait on a pseudo-channel and would join it find room (R243): 64 entries, of which ports that are not
real-time use at most 48. -/
def State.pcRoom (s : State) (cmds : List PcCmd) (c : Nat) : Bool :=
  let q := (s.pc c).queue
  let add := (cmds.filter (fun m => decide (s.pcAt m.addr = c))).length
  let rt := cmds.any (fun m => m.rt)
  decide (q.length + add ≤ 64) && (rt || decide ((q.filter (fun m => !m.rt)).length + add ≤ 48))

/-- A command joins its pseudo-channel's queue and wakes it (R257); one for an offline channel or a failed stack completes at
once (R253, R256). -/
def State.enqueue (s : State) (m : PcCmd) : State :=
  if s.wordOffline m.addr then s
  else
    let c := s.pcAt m.addr
    let x := s.pc c
    let s1 := s.setPc c { x with queue := x.queue ++ [m] }
    let s2 := if s.rd (pcRec c) 1 = 3 then s1.wr (pcRec c) 1 0 else s1
    s2.portBusy (c / 32)

/-- Commands join their queues in order. -/
def State.enqueueAll (s : State) : List PcCmd → State
  | [] => s
  | m :: l => (s.enqueue m).enqueueAll l

/-- Words stored from an address on (R237). -/
def State.storeWords (s : State) : Nat → List Word → State
  | _, [] => s
  | p, w :: l => (s.memWrite p w).storeWords (p + 16) l

/-- Words read from an address on, with LAST on the last (R236, R238). -/
def State.loadWords (s : State) : Nat → Nat → List Word
  | _, 0 => []
  | p, k + 1 => { s.memRead p with last := decide (k = 0) } :: s.loadWords (p + 16) k

/-- Poisoned zero words with LAST on the last (R238). -/
def poisonWords : Nat → List Word
  | 0 => []
  | k + 1 => { Word.zero with poison := true, last := decide (k = 0) } :: poisonWords k

/-- A write acknowledgement (R235). -/
def ackWord (poison : Bool) : Word := { Word.zero with last := true, poison := poison }

/-- The head request of a port, of number `seq`, is removed and a response slot appended. -/
def State.slotPush (s : State) (k seq due : Nat) (words : List Word) (read : Bool) : State :=
  let x := s.mport k
  let slot : List MSlot := if words = [] then [] else [{ group := seq, due := due, words := words, read := read, at_ := s.now }]
  s.setMport k { x with reqs := x.reqs.tail, slots := x.slots ++ slot }

/-- The POISON of a WRITE_ACK's acknowledgement is settled (R238, R253): the port's record of owed answers and every snapshot that recorded
the request take it (R260). -/
def State.ackSettle (s : State) (k seq : Nat) (poison : Bool) : State :=
  let f (r : MemReq) : MemReq := if r.seq = seq ∧ r.op ≠ 0 then { r with acked := some poison } else r
  let img (c : Nat × ImageSt) : Nat × ImageSt :=
    if 64 * (c.1 / 32) + c.1 % 32 = k then (c.1, { c.2 with reqs := c.2.reqs.map f }) else c
  let s1 := s.setMport k { s.mport k with hist := (s.mport k).hist.map f, reqs := (s.mport k).reqs.map f }
  { s1 with cfg := { s1.cfg with slots := ⟨s1.cfg.slots.cells.map (fun c => (c.1, { c.2 with images := c.2.images.map img }))⟩ } }

/-- A faulting request is answered (R238): counted, reported, READ and OP 11 with poisoned words, WRITE_ACK with its word. -/
def State.faultRequest (s : State) (k : Nat) (r : MemReq) (reason : Nat) : State :=
  let words := if r.op = 1 then [] else if r.op = 2 then [ackWord true] else poisonWords (r.len + 1)
  ((((s.slotPush k r.seq 0 words (r.op = 0))).ackSettle k r.seq true).bump (mpObj k) 0xA 4 1).raise 0x0404 3 1 (mpObj k)
    [(20, 1, reason), (21, 1, r.window), (24, 4, r.offset)]

/-- Key under which a stream counts one port's accesses to its window (R153). -/
def portKey (port : Nat) : Nat := 2 ^ 32 + port

/-- The order decision of an admission to a shared window (R149, R242): logged before it takes effect, or taken from the log. -/
def State.orderDecide (s : State) (w port : Nat) : Option State :=
  let k := 1088 + w
  let mode := s.rd (winObj w) 7
  if mode = 1 then
    let x := s.stream k
    match s.logPut k 5 w (seqOf x.seqs (portKey port) <<< 32 ||| port) with
    | none => none
    | some t =>
      let y := t.stream k
      some (t.setStream k { y with seqs := cellsInsert y.seqs (portKey port) (seqOf y.seqs (portKey port) + 1) })
  else if mode = 2 then
    match s.decision k 5 w with
    | none => none
    | some v =>
      let x := s.stream k
      if v % 64 = port ∧ v / 2 ^ 32 = seqOf x.rseqs (portKey port) then
        let t := s.decided k
        let y := t.stream k
        some (t.setStream k { y with rseqs := cellsInsert y.rseqs (portKey port) (seqOf y.rseqs (portKey port) + 1) })
      else none
  else some s

/-- A request whose order is fixed takes its place (R239, R241): a write is seen by every later access from now on, a read
sees what is stored now; their commands wait in the PC queues. -/
def State.admitReq (s : State) (k : Nat) (r : MemReq) (cmds : List PcCmd) : State :=
  let a := s.reqAddr r
  let live := cmds.filter (fun m => !s.wordOffline m.addr)
  if r.op = 0 then (s.slotPush k r.seq live.length (s.loadWords a (r.len + 1)) true).enqueueAll cmds
  else
    let poisoned := cmds.any (fun m => s.wordOffline m.addr)
    (((s.storeWords a r.data).slotPush k r.seq 0 (if r.op = 2 then [ackWord poisoned] else []) false).ackSettle k r.seq poisoned).enqueueAll cmds

/-- Words that a port's response buffer holds or has reserved (R239). -/
def MPortSt.reserved (x : MPortSt) : Nat := x.resp.length + (x.slots.map (fun r => r.words.length)).foldl (· + ·) 0

/-- Words of the response buffer that a request needs (R236, R239): a READ all of its words, a WRITE_ACK one, a WRITE none. -/
def MemReq.needs (r : MemReq) : Nat := if r.op = 1 then 0 else if r.op = 2 ∨ r.op = 4 then 1 else r.len + 1

/-- The column commands of a request of a port (R243). -/
def State.reqCmds (s : State) (k : Nat) (r : MemReq) : List PcCmd :=
  columns (decide (r.op ≠ 0)) (decide (s.rd (mpObj k) 3 ≠ 0)) k r.seq (accountOf (s.regOwner (mpRegion k))) s.now (r.len + 1) (s.reqAddr r) 0

/-- The controllers of a list of commands serve requests, and the queues have room for them (R239, R243, R256, R258). -/
def State.cmdsFit (s : State) (cmds : List PcCmd) : Bool :=
  (cmds.map (fun m => s.stackOf m.addr)).all (fun d => s.annulusOn d) && (cmds.map (fun m => s.pcAt m.addr)).all (fun c => s.pcRoom cmds c)

/-- REQUEST_ADMISSION (R238, R239, R241 to R243, R261): the head request of a port is answered with a fault, or admitted once
the buffer, the queues and its window's order allow it. An entry with OP 4 is an acknowledgement that a rollback owes (R260); a write that a
reset of the port left returns nothing. -/
def execRequestAdmission (die : Fin 2) (p : Fin 32) (s : State) : Result :=
  let k := 64 * die.val + p.val
  let x := s.mport k
  match x.reqs with
  | [] => .next (s.drainPort k)
  | r :: _ =>
    let room := decide (x.reserved + r.needs ≤ 256)
    if s.loopClocks die.val 2 = false then .next s
    else if r.op = 4 then .next ((if room then s.slotPush k r.seq 0 [ackWord (r.acked.getD r.bad)] false else s).drainPort k)
    else
    let reason := s.memFault k r
    if reason ≠ 0 then (if room then .next ((s.faultRequest k r reason).drainPort k) else .next (s.drainPort k))
    else if s.heldByZeroing r then .next (s.drainPort k)
    else
      let cmds := s.reqCmds k r
      if room && s.cmdsFit cmds then
        match s.orderDecide r.window (mpRegion k) with
        | none => .next (if s.rd (winObj r.window) 7 = 1 then s.logWait (1088 + r.window) 5 else s)
        | some t => .next ((t.admitReq k r cmds).drainPort k)
      else .next (s.drainPort k)

/-- Two commands touch one 32-byte column (R241). -/
def sameColumn (a b : PcCmd) : Bool := decide (a.addr / 32 = b.addr / 32)

/-- Commands that no earlier command of the same column holds back, oldest first (R241). -/
def eligible : List PcCmd → List PcCmd → List PcCmd
  | _, [] => []
  | before, m :: l => (if before.any (sameColumn m) then [] else [m]) ++ eligible (m :: before) l

/-- A command hits the open row of its bank (R244). -/
def State.rowHit (s : State) (x : PcSt) (m : PcCmd) : Bool :=
  let a := s.stackAddr m.addr
  cellsFind x.rows (bankOf a) == some (rowOf a)

/-- A pseudo-channel has commands of class 7 waiting (R244): a window of its stack is being zeroed, or a patrol item runs. -/
def State.backWork (s : State) (c : Nat) : Bool :=
  s.mem.zeroing.any (fun z => s.inStack z.1 (c / 32)) ||
    s.led.items.cells.any (fun i => decide (s.rd (0x3410 + i.1) 1 = 3) && decide (s.rd (0x3410 + i.1) 6 = 2)
      && (s.interleave || decide (s.stackOf (i.2.ref * 2 ^ 25) = c / 32)))

/-- What a pseudo-channel issues at an opportunity. -/
inductive PcPick where
  | none
  | cmd (m : PcCmd)
  | back
deriving DecidableEq, Repr

/-- What a pseudo-channel issues next (R244): of the first class that is not empty, the oldest. A refresh in
FORCED state comes before every command, one in POSTPONED state before all but those of ports in panic; an earlier command of the
same column, which a command of a port in panic may not pass (R241), is served in its class. A command of class 7 enters class 4 once it is older
than AGE_CAP. -/
def State.nextCmd (s : State) (c : Nat) : PcPick :=
  let x := s.pc c
  let st := s.rd (pcRec c) 1
  let cap := s.rd (ctlObj (c / 32)) 4
  let l := eligible [] x.queue
  let back := s.backWork c
  let of (o : Option PcCmd) : PcPick := match o with | some m => .cmd m | none => if back then .back else .none
  if st = 2 ∨ 4 ≤ st then .none
  else match l.find? (fun m => x.queue.any (fun y => sameColumn m y && decide (s.rd (mpObj y.port) 7 = 1))) with
    | some m => .cmd m
    | none =>
      if st = 1 then .none
      else match l.find? (fun m => decide (m.at_ + cap < s.now)) with
        | some m => if back ∧ x.backAt + cap < s.now ∧ x.backAt < m.at_ then .back else .cmd m
        | none => if back ∧ x.backAt + cap < s.now then .back else of ((l.find? (s.rowHit x)).orElse (fun _ => l.head?))

/-- The list without the first command equal to one. -/
def dropCmd (m : PcCmd) : List PcCmd → List PcCmd
  | [] => []
  | a :: l => if a = m then l else a :: dropCmd m l

/-- Replace the word at a place of a list. -/
def setWord (l : List Word) (i : Nat) (w : Word) : List Word := l.set i w

/-- A response's word is poisoned by a double-bit error: its data is open (R254). -/
def State.poisonSlot (s : State) (k group place : Nat) : State :=
  let x := s.mport k
  let f (r : MSlot) : MSlot :=
    if r.group = group then
      { r with words := r.words.set place { (r.words.getD place Word.zero) with data := BitVec.ofNat 128 (s.freeVal 128), poison := true } }
    else r
  (s.setMport k { x with slots := x.slots.map f }).freeNext

/-- The error of a word as a read finds it: what the array holds already, or what the command's outcome adds (R254). -/
def eccRank : Ecc → Nat
  | .clean => 0
  | .corrected => 1
  | .uncorrectable => 2

/-- The ECC outcomes of the words that a read command returns, in order (R254): a word keeps its error until it is written, unless a write to its
column waits already. -/
def State.readEcc (s : State) (m : PcCmd) : Nat → List Ecc → State
  | i, e =>
    s.each (fun t j =>
      let a := m.addr + 16 * j
      let key := t.memKey a
      let v := min 2 (max (t.mem.err key) (eccRank (e.getD j .clean)))
      let written := (t.pc (t.pcAt a)).queue.any (fun y => y.write && sameColumn m y)
      let t1 : State := if written then t else { t with mem := { t.mem with errs := t.mem.errs.put (fun _ => 0) (key / 16) v } }
      if v = 1 then t1.countCorrected (t1.stackOf a) 1
      else if v = 2 then (t1.poisonSlot m.port m.group (m.place + j)).countUncorrectable (m.port % 64) a
      else t1) ((List.range m.words).drop i)

/-- One command of a response has been served. -/
def State.slotServed (s : State) (k group : Nat) : State :=
  let x := s.mport k
  s.setMport k { x with slots := x.slots.map (fun r => if r.group = group then { r with due := r.due - 1 } else r) }

/-- The commands whose alert window has passed without an alert are confirmed, and their reads delivered (R252). -/
def State.confirm (s : State) (c : Nat) : State :=
  let x := s.pc c
  let t := s.setPc c { x with unsure := 0 }
  (x.retry.drop (x.retry.length - x.unsure)).foldl (fun t m => if m.write then t else t.slotServed m.port m.group) t

/-- Device time has moved on: the alert windows of the commands issued before are over (notes/assumptions/181.md), but on a channel in a parity
replay. -/
def State.confirmAll (s : State) : State :=
  s.each (fun t c => if t.parityBusy c then t else t.confirm c) (s.mem.pcs.keysWhere (fun _ x => decide (x.unsure ≠ 0)))

/-- A command of a pseudo-channel is issued: it enters the retry buffer, unconfirmed, and its row is opened (R252, R262). -/
def State.issueCmd (s : State) (c : Nat) (m : PcCmd) : State :=
  let x := s.pc c
  let a := s.stackAddr m.addr
  let q := dropCmd m x.queue
  let retry := x.retry ++ [m]
  ((s.setPc c { x with queue := q, retry := retry.drop (retry.length - 32), unsure := x.unsure + 1,
                       idleFrom := if q = [] then s.now else x.idleFrom }).openRow c m.acct (bankOf a) (rowOf a)).pcCount c m.acct
    (if m.write then 0x14 else 0x13) 1

/-- PC_COMMAND_ISSUE (R241, R244, R248, R252 to R254): at an issue opportunity a pseudo-channel serves one command. The retry buffer holds the
32 commands that may not be confirmed yet. -/
def execPcCommandIssue (die : Fin 2) (pc : Fin 32) (ecc : List Ecc) (s : State) : Result :=
  let c := 32 * die.val + pc.val
  let s0 := (s.ageDebt c).refreshState c 0
  if s.parityBusy c ∨ s.refreshes die.val = false ∨ s.loopClocks die.val 2 = false ∨ 32 ≤ (s.pc c).unsure then .next s
  else match s0.nextCmd c with
    | .none => .next s0
    | .back => .next (s0.setPc c { s0.pc c with backAt := s0.now })
    | .cmd m =>
      let s1 := s0.issueCmd c m
      .next (if m.write then s1 else s1.readEcc m 0 ecc)

/-- AGE_EXCEEDED (R246): a command whose age reaches 8 × AGE_CAP is reported once. -/
def execAgeExceeded (die : Fin 2) (pc : Fin 32) (s : State) : Result :=
  let c := 32 * die.val + pc.val
  let x := s.pc c
  match x.queue.find? (fun m => !m.aged && decide (m.at_ + 8 * s.rd (ctlObj die.val) 4 ≤ s.now)) with
  | none => .next s
  | some m =>
    .next ((s.setPc c { x with queue := x.queue.map (fun y => if y = m then { y with aged := true } else y) }).raise 0x0407 3 1
      (mpObj m.port) [(20, 1, pc.val), (24, 4, s.now - m.at_)])

/-- PER_BANK_REFRESH_DUE (R248): in NORMAL, each tREFI ÷ 64 of debt, the next bank is refreshed once no command waits for
it. The pseudo-channel wakes for it (R257). -/
def execPerBankRefreshDue (die : Fin 2) (pc : Fin 32) (s : State) : Result :=
  let c := 32 * die.val + pc.val
  let s0 := (s.ageDebt c).refreshState c 0
  let x := s0.pc c
  let st := s0.rd (pcRec c) 1
  if s0.refreshes die.val = true ∧ s0.loopClocks die.val 2 = true ∧ s0.parityBusy c = false ∧ (st = 0 ∨ st = 3) ∧ s0.trefi die.val ≤ x.debt ∧ x.perBank = false
      ∧ x.queue.all (fun m => decide (bankOf (s0.stackAddr m.addr) ≠ x.bank)) = true then
    .next (((s0.setPc c { x with perBank := true }).closeRows c 9 (fun b => decide (b = x.bank))).wr (pcRec c) 1 0)
  else .next s0

/-- REFRESH_COMPLETE (R248): a per-bank refresh reduces the debt by tREFI ÷ 64; an all-bank refresh of POSTPONED or FORCED
by tREFI, and no command of a port in panic waits for the former. -/
def execRefreshComplete (die : Fin 2) (pc : Fin 32) (s : State) : Result :=
  let c := 32 * die.val + pc.val
  let s0 := s.ageDebt c
  let x := s0.pc c
  let st := s0.rd (pcRec c) 1
  if !s0.refreshes die.val || !s0.loopClocks die.val 2 || s0.parityBusy c then .next s
  else if x.perBank then
    .next (((s0.setPc c { x with perBank := false, bank := (x.bank + 1) % 64, debt := x.debt - s0.trefi die.val }).pcCount c 9 0x17 1).refreshed c)
  else if st = 2 ∨ (st = 1 ∧ x.queue.all (fun m => decide (s0.rd (mpObj m.port) 7 = 0)) = true) then
    .next ((((s0.setPc c { x with debt := x.debt - 64 * s0.trefi die.val }).closeRows c 9 (fun _ => true)).pcCount c 9 0x16 1).refreshed c)
  else .next s0

/-- REFRESH_DEBT_LIMIT (R248): the debt is brought forward, and a pseudo-channel that passes 1 or 8 intervals enters
POSTPONED or FORCED. -/
def execRefreshDebtLimit (die : Fin 2) (pc : Fin 32) (s : State) : Result :=
  let c := 32 * die.val + pc.val
  if s.refreshes die.val then .next ((s.ageDebt c).refreshState c 0) else .next s

/-- The pseudo-channels of a stack. -/
def pcsOf (d : Nat) : List Nat := (List.range 32).map (fun c => 32 * d + c)

/-- STACK_TEMP_SAMPLE (R249): the temperature is read; TEMP_HOT is set at 85 °C or above and cleared below 82 °C. Debts keep
their nanoseconds, and a pseudo-channel then above 8 intervals is FORCED at once. -/
def execStackTempSample (die : Fin 2) (celsius : Int) (s : State) : Result :=
  let d := die.val
  let hot := s.rd (ctlObj d) 3
  let new := if 85 ≤ celsius then 1 else if celsius < 82 then 0 else hot
  let s1 := (s.each State.ageDebt (pcsOf d)).wr (ctlObj d) 2 (ofSigned 16 celsius)
  if new = hot then .next s1
  else
    let s2 := (s1.wr (ctlObj d) 3 new).raise 0x040A 3 1 (ctlObj d) [(20, 1, new), (22, 2, ofSigned 16 celsius)]
    .next (if s2.refreshes d then s2.each (fun t c => t.refreshState c 1) (pcsOf d) else s2)

/-- The response of a command whose channel has gone offline (R253): a read's words carry POISON and the command is served, a WRITE_ACK's
acknowledgement carries POISON. -/
def MSlot.lose (r : MSlot) (m : PcCmd) : MSlot :=
  if r.group ≠ m.group then r
  else if m.write then { r with words := r.words.map (fun w => { w with poison := true }) }
  else { r with due := r.due - 1,
                words := (List.range m.words).foldl (fun ws i => ws.set (m.place + i)
                  { (ws.getD (m.place + i) Word.zero) with poison := true }) r.words }

/-- A command that waited or was not confirmed is lost with its channel. -/
def State.loseCmd (s : State) (m : PcCmd) : State :=
  let x := s.mport m.port
  let t := s.setMport m.port { x with slots := x.slots.map (fun r => r.lose m) }
  if m.write ∧ x.slots.any (fun r => decide (r.group = m.group)) = true then t.ackSettle m.port m.group true else t

/-- A channel goes offline (R252 step 6, R253): its pending reads, those not confirmed among them, complete with POISON, its pending writes are
dropped and counted. -/
def State.channelOffline (s : State) (d ch : Nat) : State :=
  let pcs := [32 * d + 2 * ch, 32 * d + 2 * ch + 1]
  let cmds := pcs.flatMap (fun c => (s.pc c).retry.drop ((s.pc c).retry.length - (s.pc c).unsure) ++ (s.pc c).queue)
  let reads := cmds.filter (fun m => !m.write)
  let writes := cmds.filter (fun m => m.write)
  let s1 := cmds.foldl State.loseCmd s
  let s2 := s1.each (fun t c => (t.setPc c { t.pc c with queue := [], retry := [], rows := [], unsure := 0 }).wr (pcRec c) 1 5) pcs
  let s3 := (s2.wr (ctlObj d) 0xD (setBit (s2.rd (ctlObj d) 0xD) ch)).wr (ctlObj d) 1 3
  let s4 := s3.raise 0x0406 3 2 (ctlObj d) [(20, 1, ch), (24, 4, reads.length), (28, 4, writes.length)]
  s4.drainPorts

/-- PARITY_ALERT (R252): the channel stops, precharges and replays; an alert during a replay ends that attempt, and the
third failed replay takes the channel offline. -/
def execParityAlert (die : Fin 2) (channel : Fin 16) (s : State) : Result :=
  let d := die.val
  let key := 16 * d + channel.val
  let k := s.mem.replaying.get (fun _ => 0) key
  let put (t : State) (v : Nat) : State := { t with mem := { t.mem with replaying := t.mem.replaying.put (fun _ => 0) key v } }
  if (s.rd (ctlObj d) 0xD).testBit channel.val || !s.refreshes d then .next s
  else if k < 3 then
    .next ((put s (k + 1)).each (fun t c => t.closeRows c 9 (fun _ => true)) [2 * key, 2 * key + 1])
  else .next ((put s 0).channelOffline d channel.val)

/-- The commands of a pseudo-channel's retry buffer are issued again from the oldest unconfirmed on, for the accounts of their ports (R252, R262),
and are confirmed: the replay has met no alert. -/
def State.replay (s : State) (c : Nat) : State :=
  let x := s.pc c
  ((x.retry.drop (x.retry.length - x.unsure)).foldl (fun t m => t.pcColumn m.acct m.write m.addr) s).confirm c

/-- PARITY_REPLAY (R252 step 4): a replay completes with no alert and the channel resumes. -/
def execParityReplay (die : Fin 2) (channel : Fin 16) (s : State) : Result :=
  let d := die.val
  let key := 16 * d + channel.val
  let k := s.mem.replaying.get (fun _ => 0) key
  if k = 0 then .next s
  else
    let s1 : State := { s with mem := { s.mem with replaying := s.mem.replaying.put (fun _ => 0) key 0 } }
    .next ((((s1.each State.replay [2 * key, 2 * key + 1]).bump (ctlObj d) 0xC 4 1).raise
      0x0405 3 1 (ctlObj d) [(20, 1, channel.val), (21, 1, k)]).drainPorts)

/-- STACK_TRAINING (R256): the stack is trained and every word of it written with zero, or it has failed. -/
def execStackTraining (die : Fin 2) (failing : Option (Fin 16)) (s : State) : Result :=
  let d := die.val
  if s.dev.por ∨ s.rd (ctlObj d) 1 ≠ 0 then .next s
  else match failing with
    | none =>
      let m := s.mem
      let s1 : State := { s with mem := { m.zero (fun p => decide (p / 2 ^ 34 = d)) with idleFrom := m.idleFrom.set d s.now } }
      let train (t : State) (c : Nat) : State :=
        ((t.setPc c { last := t.now, idleFrom := t.now, backAt := t.now }).pcCount c 9 0x12 (2 ^ 19)).pcCount c 9 0x15 (2 ^ 19)
      .next ((s1.each (fun t c => (train t c).pcCount c 9 0x14 (2 ^ 24)) (pcsOf d)).wr (ctlObj d) 1 1)
    | some ch =>
      .next (((({ s with mem := { s.mem with failedStacks := s.mem.failedStacks ++ [d] } } : State).wr (ctlObj d) 1 4).raise
        0x040D 3 3 (ctlObj d) [(20, 1, ch.val)]))

/-- POWER_DOWN_ENTRY (R257): no command has waited for IDLE_PD. -/
def execPowerDownEntry (die : Fin 2) (pc : Fin 32) (s : State) : Result :=
  let c := 32 * die.val + pc.val
  let x := s.pc c
  if s.refreshes die.val = true ∧ s.rd (pcRec c) 1 = 0 ∧ x.queue = [] ∧ x.perBank = false
      ∧ x.idleFrom + s.rd (ctlObj die.val) 5 ≤ s.now then .next (s.wr (pcRec c) 1 3)
  else .next s

/-- No real-time port is declared on a die. -/
def State.noRt (s : State) (d : Nat) : Bool := (List.range 32).all (fun p => decide (s.rd (mportObj d p) 3 = 0))

/-- A physical address range touches a stack (R230). -/
def State.touches (s : State) (d p len : Nat) : Bool := decide (s.stackBelow d p < s.stackBelow d (p + len))

/-- A queue that names spill in a stack holds an item, or may need spill for its next one: its accesses may wait for the stack (R215, R258). -/
def State.spillWants (s : State) (d : Nat) : Bool :=
  s.loc.queues.cells.any (fun c =>
    let e := c.1 / 512
    let q := c.1 % 512
    decide (s.qo e q 2 ≠ 0) && decide (0 < s.qo e q 6) && decide (s.qo e q 0x19 < 64) && s.inStack (s.qo e q 0x19) d
      && (decide (0 < c.2.level) || decide (s.qo e q 5 < c.2.onDie + 16)))

/-- No request waits at any port for a stack, and no command in its queues is left or unconfirmed. -/
def State.stackQuiet (s : State) (d : Nat) : Bool :=
  (pcsOf d).all (fun c => (s.pc c).queue.isEmpty && decide ((s.pc c).unsure = 0)) &&
    s.mem.ports.cells.all (fun p => p.2.reqs.all (fun r => decide (r.op = 4) || decide (s.memFault p.1 r ≠ 0) ||
      !s.touches d (s.reqAddr r) (16 * (r.len + 1)))) &&
    s.host.barWait.all (fun b => !s.touches d b.addr (max 1 (match b.write with | some l => l.length | none => b.len)))

/-- No port of a die holds a request or owes a response. -/
def State.portsIdle (s : State) (d : Nat) : Bool :=
  s.mem.ports.cells.all (fun p => decide (p.1 / 64 ≠ d) || (p.2.reqs.isEmpty && p.2.slots.isEmpty))

/-- Self-refresh is called for (R258): the device is in standby, or SR_ENABLE holds and every port of the die has been idle for
SR_IDLE, and its stack with them. -/
def State.wantsSelfRefresh (s : State) (d : Nat) : Bool :=
  s.stackQuiet d && (decide (s.rd 0x3000 0xA ≠ 0) ||
    (decide (s.rd (ctlObj d) 6 = 1) && s.noRt d && s.portsIdle d && decide (s.mem.idleFrom.getD d 0 + 1000 * s.rd (ctlObj d) 7 ≤ s.now)))

/-- SELF_REFRESH_ENTRY (R258): one all-bank refresh to every pseudo-channel, every debt 0. -/
def execSelfRefreshEntry (die : Fin 2) (s : State) : Result :=
  let d := die.val
  if s.refreshes d && s.wantsSelfRefresh d then
    let one (t : State) (c : Nat) : State :=
      let t1 := (t.setPc c { t.pc c with debt := 0, last := t.now, perBank := false }).closeRows c 9 (fun _ => true)
      if t.rd (pcRec c) 1 = 5 then t1 else (t1.pcCount c 9 0x16 1).wr (pcRec c) 1 4
    .next ((s.each one (pcsOf d)).wr (ctlObj d) 1 2)
  else .next s

/-- A stack leaves self-refresh, and the Annulus PLL of its die starts again where it has stopped (R258). -/
def State.leaveSelfRefresh (s : State) (d : Nat) : State :=
  let one (t : State) (c : Nat) : State :=
    let t1 := t.setPc c { t.pc c with last := t.now, idleFrom := t.now }
    if t.rd (pcRec c) 1 = 4 then t1.wr (pcRec c) 1 0 else t1
  let s1 := (s.each one (pcsOf d)).wr (ctlObj d) 1 (if s.rd (ctlObj d) 0xD = 0 then 1 else 3)
  let s2 : State := { s1 with mem := { s1.mem with idleFrom := s1.mem.idleFrom.set d s.now } }
  let l : Loop := ⟨Fin.ofNat 2 d, 2⟩
  if s2.rd (loopObj l) 2 = 0 ∨ s2.rd (loopObj l) 2 = 4 then s2.loopStart l else s2

/-- A channel of the stack is under self-test, with the stack in self-refresh (R537). -/
def State.stackTested (s : State) (d : Nat) : Bool := (List.range 16).any (fun c => !(s.testsOn (unitKey 5 (16 * d + c))).isEmpty)

/-- A stack is needed (R258, R537): self-tests of its channels end, and it leaves self-refresh. -/
def State.stackLeave (s : State) (d : Nat) : State :=
  (if s.stackTested d then s.each (fun t c => t.unitRequest (unitKey 5 (16 * d + c))) (List.range 16) else s).leaveSelfRefresh d

/-- An access of a Host Port path to a range makes its stacks leave self-refresh (R240, R258). -/
def State.wakeFor (s : State) (p len : Nat) : State :=
  s.each (fun t d => if t.touches d p len then (if t.rd (ctlObj d) 1 = 2 then t.stackLeave d else t.portBusy d) else t) [0, 1]

/-- SELF_REFRESH_EXIT (R258): a request to the stack, or a device awake with no cause for self-refresh. -/
def execSelfRefreshExit (die : Fin 2) (s : State) : Result :=
  let d := die.val
  if s.rd (ctlObj d) 1 = 2 ∧ (s.stackQuiet d = false ∨ s.spillWants d = true
      ∨ (s.rd 0x3000 0xA = 0 ∧ s.rd (ctlObj d) 6 = 0 ∧ s.stackTested d = false)) then .next (s.stackLeave d)
  else .next s

/-- A lower-numbered window is zeroed first in a stack that both use (R261). -/
def State.zeroBefore (s : State) (w : Nat) : Bool :=
  s.mem.zeroing.any (fun z => decide (z.1 < w) && [0, 1].any (fun d => s.inStack z.1 d && s.inStack w d))

/-- A write taken before a reset of its port still goes to a window (R260, R261). -/
def State.orphanFor (s : State) (w : Nat) : Bool :=
  s.mem.ports.cells.any (fun p => p.2.reqs.any (fun r => r.orphan && decide (r.window = w) && decide (s.memFault p.1 r = 0)))

/-- WINDOW_ZEROING (R261): zeroing of a window completes. One for the owner's reset comes after the writes that the reset lets complete. -/
def execWindowZeroing (w : Fin 64) (s : State) : Result :=
  match s.mem.zeroing.find? (fun z => decide (z.1 = w.val)) with
  | none => .next s
  | some (_, own, t0) =>
    if s.zeroBefore w.val || (own && s.orphanFor w.val) then .next s
    else
      let o := winObj w.val
      let s1 : State := ({ s with mem := { s.memZero (s.rd o 2) (s.rd o 3) with
        zeroing := s.mem.zeroing.filter (fun z => decide (z.1 ≠ w.val)) } } : State).pcSweep (accountOf (s.rd o 1)) true (s.rd o 2) (s.rd o 3)
      .next ((s1.wr o 0xA (if s.rd o 1 = 0xFF then 0 else 1)).raise 0x040C 3 0 o [(24, 8, s.now - t0)])

/-- Work of class 7 begins in every stack (R244): its commands wait from now on. -/
def State.backStart (s : State) : State :=
  s.each (fun t c => if t.backWork c then t else t.setPc c { t.pc c with backAt := t.now }) (List.range 64)

/-- Zeroing of a window begins (R261, R451, R467). -/
def State.zeroStart (s : State) (w : Nat) (own : Bool) : State :=
  if s.rd (winObj w) 1 = 0xFF ∨ s.mem.zeroing.any (fun z => decide (z.1 = w) && decide (z.2.1 = own)) = true then s
  else
    let s0 := s.backStart
    let s1 : State := { s0 with mem := { s0.mem with
      zeroing := (s0.mem.zeroing.filter (fun z => decide (z.1 ≠ w))) ++ [(w, own, s.now)] } }
    s1.wr (winObj w) 0xA 2

/-- A region's memory port is reset (R260): the writes taken stay to be completed, in order; everything else held for the port is discarded. -/
def State.resetMport (s : State) (n : Nat) : State :=
  let k := 64 * (n / 32) + n % 32
  let x := s.mport k
  let kept := (x.reqs.filter (fun r => decide (r.op = 1) || decide (r.op = 2))).map (fun r => { r with op := 1, orphan := true })
  let s1 := s.setMport k { nextSeq := x.nextSeq, reqs := kept }
  (s1.resetCell (.memory (if n < 32 then 0 else 1) (Fin.ofNat 32 n))).panicCheck k

/-- A port's taken writes complete at once: what names their window or their owner is about to change (R260, R389). -/
def State.finishWrites (s : State) (n : Nat) : State :=
  let k := 64 * (n / 32) + n % 32
  let x := s.mport k
  let s1 := x.reqs.foldl (fun t r => if (r.op = 1 ∨ r.op = 2) ∧ t.memFault k r = 0 then
      (t.storeWords (t.reqAddr r) r.data).pcWords (accountOf (t.regOwner n)) k true ((List.range r.data.length).map (fun i => t.reqAddr r + 16 * i))
    else t) s
  (s1.setMport k { nextSeq := x.nextSeq, hist := x.hist }).panicCheck k

end Sys2Proof.Machine
end

