-- ==== Sys2Proof/Machine/Arc.lean ====
section
/-! DEFINITION. Arc relay stations and Bisector channels (R95 to R104). -/

namespace Sys2Proof.Machine

/-- Key of a region's relay station on a side and segment. -/
def arcKey (n side seg : Nat) : Nat := n * 128 + side * 32 + seg

/-- A border channel is closed at a region's fence (R73). -/
def State.chanClosed (s : State) (n ch : Nat) : Bool := (s.fab.fence n).closed.contains ch

/-- RELAY_STATION_TRANSFER (R95, R96, R104): the driving region's station takes a token from Span, unless its channel is closed; or
the receiving region's station, which stands for a Bisector channel's buffer and fills whether its region is fenced or not, takes the token
that the driving station offers, which then has left its region and counts there as an Arc hop (R109). -/
def execRelayStationTransfer (r : Region) (side : Fin 4) (seg : Fin 32) (receiving : Bool) (s : State) : Result :=
  let n := rn r
  match arcFar n side.val with
  | none => .next s
  | some (m, side') =>
    let k := arcKey n side.val seg.val
    if receiving then
      let k' := arcKey m side' seg.val
      match s.fab.arcTx.get (fun _ => none) k' with
      | none => .next s
      | some w =>
        if (s.fab.driveOf m side').testBit seg.val && (s.fab.arcRx.get (fun _ => none) k).isNone && s.active m then
          match s.paceTake m with
          | none => .next s
          | some t =>
            .next { t with fab := ({ t.fab with arcTx := t.fab.arcTx.put (fun _ => none) k' none,
                                                arcRx := t.fab.arcRx.put (fun _ => none) k (some w) } : FabSt).count m 5 1 }
        else .next s
    else if (s.fab.driveOf n side.val).testBit seg.val && (s.fab.arcTx.get (fun _ => none) k).isNone && s.active n
        && !s.chanClosed n (chanId 1 n side.val 0 seg.val) then
      match s.fab.take (sinkArc n side.val seg.val) with
      | none => .next s
      | some (w, f) => .next { s with fab := { f with arcTx := f.arcTx.put (fun _ => none) k (some w) } }
    else .next s

/-- Sending end of a Bisector channel: region number, side and position (R100). -/
def bisSender (east : Bool) (ch : Nat) : Nat × Nat × Nat :=
  if east then (8 * (ch / 16) + 7, 1, ch % 16) else (32 + 8 * (ch / 16), 3, 16 + ch % 16)

/-- Receiving end of a Bisector channel. -/
def bisReceiver (east : Bool) (ch : Nat) : Nat × Nat × Nat :=
  if east then (32 + 8 * (ch / 16), 3, ch % 16) else (8 * (ch / 16) + 7, 1, 16 + ch % 16)

/-- Number of a Bisector channel among both directions. -/
def bisNum (east : Bool) (ch : Nat) : Nat := if east then ch else 64 + ch

/-- BISECTOR_SEND (R101, R104): with credit above 0 and its region not fenced, the sender accepts and forwards a token. -/
def execBisectorSend (east : Bool) (ch : Fin 64) (s : State) : Result :=
  let (n, side, seg) := bisSender east ch.val
  let k := bisNum east ch.val
  let x := s.fab.bisCh k
  if 0 < x.credit ∧ s.active n ∧ ¬ s.chanClosed n (chanId 2 n side 0 ch.val) then
    match s.fab.take (sinkArc n side seg) with
    | none => .next s
    | some (w, f) =>
      match ({ s with fab := f } : State).paceTake n with
      | none => .next s
      | some t =>
        let y := t.fab.bisCh k
        .next { t with fab := (t.fab.setBis k { y with credit := y.credit - 1, flight := y.flight ++ [w] }).count n 6 1 }
  else .next s

/-- BISECTOR_RECEIVE (R101 to R103): the transfer is checked and buffered. A corrected error is counted; a double-bit error
delivers the word as received with POISON set, counted and reported. -/
def execBisectorReceive (east : Bool) (ch : Fin 64) (ecc : Ecc) (asReceived : Word) (s : State) : Result :=
  let (n, side, _) := bisReceiver east ch.val
  let k := bisNum east ch.val
  let x := s.fab.bisCh k
  match x.flight with
  | [] => .next s
  | w :: rest =>
    let v := if ecc = .uncorrectable then { asReceived with poison := true } else w
    let s1 := { s with fab := s.fab.setBis k { x with flight := rest, buf := x.buf ++ [v] } }
    match ecc with
    | .clean => .next s1
    | .corrected => .next (s1.bump 0xC200 3 4 1)
    | .uncorrectable =>
      let id := chanId 2 n side 1 ch.val
      let s2 := (s1.bump 0xC200 4 4 1).wr 0xC200 5 id
      .next (s2.raise 0x0D07 1 2 (locRegion n) [(20, 4, id), (24, 4, s2.rd 0xC200 4)])

/-- BISECTOR_CREDIT_RETURN (R101): a credit for a token taken arrives at the sender. -/
def execBisectorCreditReturn (east : Bool) (ch : Fin 64) (s : State) : Result :=
  let k := bisNum east ch.val
  let x := s.fab.bisCh k
  if 0 < x.creditFlight then
    .next { s with fab := s.fab.setBis k { x with creditFlight := x.creditFlight - 1, credit := x.credit + 1 } }
  else .next s

/-- An Arc segment or Bisector channel is reset under FORCE (R75, R104): both stations, or the transfer, the buffer and the
credits. -/
def FabSt.forceChan (f : FabSt) (ch : Nat) : FabSt :=
  let n := chanRegion ch
  let side := fieldAt ch 12 2
  let i := ch % 64
  if ch >>> 28 = 1 then
    match arcFar n side with
    | none => f
    | some (m, side') =>
      let f := (f.dropTaken (.arcIn n side i)).dropTaken (.arcIn m side' i)
      { f with arcTx := (f.arcTx.put (fun _ => none) (arcKey n side i) none).put (fun _ => none) (arcKey m side' i) none,
               arcRx := (f.arcRx.put (fun _ => none) (arcKey n side i) none).put (fun _ => none) (arcKey m side' i) none }
  else if ch >>> 28 = 2 then
    let east := (n < 32) == !ch.testBit 11
    let (m, side', seg) := bisReceiver east i
    (f.dropTaken (.arcIn m side' seg)).setBis (bisNum east i) {}
  else f

end Sys2Proof.Machine
end

