-- ==== Sys2Proof/Machine/Fabric.lean ====
section
/-! DEFINITION. Logic Units (R41 to R61): the four modes, the carry chain and the initial states. -/

namespace Sys2Proof.Machine

/-- A dual-rail pair is valid: exactly one rail is high (R45). -/
def railValid (t f : Bool) : Bool := t != f

/-- The value of LU `k`'s carry-in under its CARRY field, `below` being the carry-out of the LU below it (R58, R59). CARRY
01 on LU 0 acts as CARRY 10. -/
def carryIn (carry k : Nat) (below : Option Bool) : Option Bool :=
  if carry = 2 then some false
  else if carry = 3 then some true
  else if carry = 1 then (if k = 0 then some false else below)
  else none

/-- Majority of three bits. -/
def maj (a b c : Bool) : Bool := (a && b) || (a && c) || (b && c)

/-- Carry-out of the LU below LU `k` of the cluster whose first LU is `base`: neutral while an input is (R58). R58 forms a carry-out of
the three dual-rail inputs of an LU with CARRY on: below an LU with CARRY 00, and below one that is not in DR mode, it stays neutral
(DESIGN CHOICE, notes/assumptions/161.md). -/
def FabSt.carryBelow (f : FabSt) (base : Nat) : Nat → Option Bool
  | 0 => none
  | k + 1 =>
    match (f.lu (base + k)).cfg with
    | none => none
    | some c =>
      if c.mode = 0 then
        let a0 := f.input (base + k) c 0
        let a1 := f.input (base + k) c 1
        let b0 := f.input (base + k) c 2
        let b1 := f.input (base + k) c 3
        match carryIn c.carry k (f.carryBelow base k) with
        | some ci => if railValid a0 a1 && railValid b0 b1 then some (maj a0 b0 ci) else none
        | none => none
      else none

/-- Carry-in of an LU; none when neutral or off. -/
def FabSt.carry (f : FabSt) (u : Nat) (c : LuCfg) : Option Bool :=
  carryIn c.carry (u % 256) (f.carryBelow (u / 256 * 256) (u % 256))

/-- Input level that F and G see: in DR mode with CARRY on, the rails of the carry-in stand for IN4 and IN5 (R58). -/
def FabSt.level (f : FabSt) (u : Nat) (c : LuCfg) (i : Nat) : Bool :=
  if c.mode = 0 ∧ c.carry ≠ 0 ∧ 4 ≤ i then
    (match f.carry u c with
     | some b => if i = 4 then b else !b
     | none => false)
  else f.input u c i

/-- Table index: IN0 is bit 0 (R41). -/
def FabSt.index (f : FabSt) (u : Nat) (c : LuCfg) : Nat :=
  (f.level u c 0).toNat ||| (f.level u c 1).toNat <<< 1 ||| (f.level u c 2).toNat <<< 2 ||| (f.level u c 3).toNat <<< 3
    ||| (f.level u c 4).toNat <<< 4 ||| (f.level u c 5).toNat <<< 5

/-- Every used pair, and the carry-in when completion detection includes it, is valid (R47, R59). -/
def FabSt.drValid (f : FabSt) (u : Nat) (c : LuCfg) : Bool :=
  (List.range 3).all (fun j => !c.pairUsed j || railValid (f.input u c (2 * j)) (f.input u c (2 * j + 1)))
    && (decide (c.carry = 0) || (f.carry u c).isSome)

/-- Every used pair is neutral, and a carry-in that comes from below (R47, R59). -/
def FabSt.drRest (f : FabSt) (u : Nat) (c : LuCfg) : Bool :=
  (List.range 3).all (fun j => !c.pairUsed j || (!(f.input u c (2 * j)) && !(f.input u c (2 * j + 1))))
    && (decide (c.carry ≠ 1) || decide (u % 256 = 0) || (f.carry u c).isNone)

/-- The LU's state right after its region's GSR is released (R55, R56, R61). -/
def initLu (c : LuCfg) : LuSt :=
  let one := decide (c.init = 2)
  if c.mode = 0 then { cfg := some c, full := decide (c.init ≠ 0), oF := one, oG := decide (c.init = 1) }
  else if c.mode = 1 then { cfg := some c, full := decide (c.init ≠ 0), oF := one, oG := one }
  else if c.mode = 2 then { cfg := some c, oF := one, oG := !one }
  else { cfg := some c }

/-- Set an LU's state and let the acknowledges settle. -/
def State.putLu (s : State) (u : Nat) (x : LuSt) : State := { s with fab := (s.fab.setLu u x).settled }

/-- The configured LU at a unit number, in one mode. -/
def State.luIn (s : State) (u mode : Nat) : Option (LuSt × LuCfg) :=
  let x := s.fab.lu u
  match x.cfg with
  | some c => if c.mode = mode then some (x, c) else none
  | none => none

/-- A token of an LU counts for its region: class 1 for DR mode, 2 for BD mode (R340). -/
def State.countLu (s : State) (u cls : Nat) : State := { s with fab := s.fab.count (u / 16384) cls 1 }

/-- DR_CAPTURE (R46 to R49, R58): valid inputs, latch EMPTY, acknowledge low. F = G takes FULL0 and event 0x0D05, once. -/
def execDrCapture (u : LuLoc) (s : State) : Result :=
  let k := un u
  match s.luIn k 0 with
  | none => .next s
  | some (x, c) =>
    if s.canStart (k / 16384) && !x.full && !s.fab.ack (.lu k) && s.fab.drValid k c then
      let i := s.fab.index k c
      let one := c.f.getLsbD i && !c.g.getLsbD i
      let code := c.f.getLsbD i == c.g.getLsbD i
      let t := (s.putLu k { x with full := true, oF := one, oG := !one, codeRaised := x.codeRaised || code }).countLu k 1
      .next (if code && !x.codeRaised then t.raise 0x0D05 1 2 (locUnit k) [(20, 1, i)] else t)
    else .next s

/-- DR_EMPTY (R46, R49): acknowledge high and every used input at rest. -/
def execDrEmpty (u : LuLoc) (s : State) : Result :=
  let k := un u
  match s.luIn k 0 with
  | none => .next s
  | some (x, c) =>
    if s.active (k / 16384) && x.full && s.fab.ack (.lu k) && s.fab.drRest k c then
      .next (s.putLu k { x with full := false, oF := false, oG := false })
    else .next s

/-- JOINED_REQUEST_RISE (R50, R51 step 2): every paired request is high; the matched delay starts. -/
def execJoinedRequestRise (u : LuLoc) (s : State) : Result :=
  let k := un u
  match s.luIn k 1 with
  | none => .next s
  | some (x, c) =>
    if s.active (k / 16384) && !x.joined && !(s.fab.requests k c).isEmpty && (s.fab.requests k c).all (fun b => b) then
      .next { s with fab := s.fab.setLu k { x with joined := true, delay := true } }
    else .next s

/-- BD_CAPTURE (R51 steps 3 to 5): the matched delay has run, latch EMPTY and acknowledge low; F and G are captured. -/
def execBdCapture (u : LuLoc) (s : State) : Result :=
  let k := un u
  match s.luIn k 1 with
  | none => .next s
  | some (x, c) =>
    if s.canStart (k / 16384) && x.joined && x.delay && !x.full && !s.fab.ack (.lu k) then
      let i := s.fab.index k c
      .next ((s.putLu k { x with full := true, delay := false, oF := c.f.getLsbD i, oG := c.g.getLsbD i }).countLu k 2)
    else .next s

/-- BD_EMPTY (R51 steps 6 to 9): the joined request is low and the acknowledge high; O_F and O_G keep their values. -/
def execBdEmpty (u : LuLoc) (s : State) : Result :=
  let k := un u
  match s.luIn k 1 with
  | none => .next s
  | some (x, c) =>
    if s.active (k / 16384) && x.full && !x.joined && s.fab.ack (.lu k) && (s.fab.requests k c).all (fun b => !b) then
      .next (s.putLu k { x with full := false })
    else .next s

/-- CE_OUTPUT_CHANGE (R55): rises on F = 1 and G = 0, falls on G = 1 and F = 0, else holds. -/
def execCeOutputChange (u : LuLoc) (s : State) : Result :=
  let k := un u
  match s.luIn k 2 with
  | none => .next s
  | some (x, c) =>
    let i := s.fab.index k c
    let v := if c.f.getLsbD i && !c.g.getLsbD i then true else if c.g.getLsbD i && !c.f.getLsbD i then false else x.oF
    if s.active (k / 16384) && (v != x.oF) then .next (s.putLu k { x with oF := v, oG := !v }) else .next s

/-- Request A (0) or B (1) of an MX LU: the level on IN0 or IN1 (R56). -/
def FabSt.mxReq (f : FabSt) (u : Nat) (c : LuCfg) (i : Nat) : Bool :=
  match f.bitSrc bitFuel (u / 256) (c.code i) with
  | some (src, b) => f.wire b src
  | none => false

/-- Raise one grant of an MX LU: true grants B. -/
def State.grant (s : State) (u : Nat) (b : Bool) : State :=
  s.putLu u { s.fab.lu u with oF := !b, oG := b, turn := none }

/-- MX_GRANT (R56, R57, R149, R155, R159): one grant rises. A request that was pending when the other grant fell goes
first; between two fresh requests the choice is free. With ARB 01 the record is accepted before the grant takes effect;
with ARB 10 the logged request is granted once it is high. -/
def execMxGrant (u : LuLoc) (s : State) : Result :=
  let k := un u
  let n := k / 16384
  match s.luIn k 3 with
  | none => .next s
  | some (x, c) =>
    let a := s.fab.mxReq k c 0
    let b := s.fab.mxReq k c 1
    if s.canStart n && !x.oF && !x.oG then
      if c.arb = 2 then
        match s.decision n 1 (locUnit k) with
        | some v =>
          let g := v.testBit 0
          if (if g then b else a) then .next ((s.decided n).grant k g) else .next s
        | none => .next s
      else if a || b then
        let contested := a && b
        let g := if contested then (match x.turn with | some t => t | none => s.freeVal 1 == 1) else b
        let s1 := if contested && x.turn.isNone then s.freeNext else s
        if c.arb = 1 then
          match s1.logPut n 1 (locUnit k) (contested.toNat <<< 1 ||| g.toNat) with
          | some t => .next (t.grant k g)
          | none => .next (s.logWait n 1)
        else .next (s1.grant k g)
      else .next s
    else .next s

/-- MX_GRANT_RELEASE (R56): a grant falls after its request; a request then pending is granted next. -/
def execMxGrantRelease (u : LuLoc) (s : State) : Result :=
  let k := un u
  match s.luIn k 3 with
  | none => .next s
  | some (x, c) =>
    let a := s.fab.mxReq k c 0
    let b := s.fab.mxReq k c 1
    if s.active (k / 16384) && ((x.oF && !a) || (x.oG && !b)) then
      .next (s.putLu k { x with oF := false, oG := false, turn := if x.oF then (if b then some true else none)
                                                                   else (if a then some false else none) })
    else .next s

/-- Every LU of a region takes its INIT state (R61, R69 step 5). -/
def FabSt.initLus (f : FabSt) (n : Nat) : FabSt :=
  f.each (fun g u => match (g.lu u).cfg with | some c => g.setLu u (initLu c) | none => g)
    (f.lus.keysWhere (fun u _ => decide (u / 16384 = n)))

end Sys2Proof.Machine
end

