-- ==== Sys2Proof/Machine/Ray.lean ====
section
/-! DEFINITION. Ray lanes and Ethernet ports (R265 to R293). Lanes and ports are numbered 8 × die + lane. -/

namespace Sys2Proof.Machine

/-- Number of a lane. -/
def laneNum (l : Lane) : Nat := 8 * l.die.val + l.l.val

/-- A lane's runtime state. -/
def State.lane (s : State) (k : Nat) : LaneSt := s.ray.lanes.get (fun _ => {}) k
/-- Set a lane's runtime state. -/
def State.setLane (s : State) (k : Nat) (x : LaneSt) : State :=
  { s with ray := { s.ray with lanes := s.ray.lanes.put (fun _ => {}) k x } }
/-- A port's runtime state. -/
def State.rport (s : State) (p : Nat) : RPortSt := s.ray.ports.get (fun _ => {}) p
/-- Set a port's runtime state, with STAMPS_HELD. -/
def State.setRport (s : State) (p : Nat) (x : RPortSt) : State :=
  ({ s with ray := { s.ray with ports := s.ray.ports.put (fun _ => {}) p x } } : State).wr (rportObj p) 0x11 x.stamps.length

/-- The lanes of a port. -/
def State.portLanes (s : State) (p : Nat) : List Nat := (List.range (s.portWidth p)).map (fun i => p + i)
/-- The ports that a MODE makes. -/
def State.rayPorts (s : State) : List Nat := (List.range 16).filter (fun p => decide (s.rd (rportObj p) 1 ≠ 0))

/-- A port changes its state; leaving UP raises event 0x0604 (R293). -/
def State.portLeave (s : State) (p st cause : Nat) : State :=
  let t := s.wr (rportObj p) 2 st
  if s.rd (rportObj p) 2 = 2 then t.raise 0x0604 3 1 (rportObj p) [(20, 1, cause)] else t

/-- A port comes UP: SEQ counts from here (R275), event 0x0603. -/
def State.portEnter (s : State) (p : Nat) : State :=
  ((s.setRport p { s.rport p with rxSeq := 0 }).wr (rportObj p) 2 2).raise 0x0603 3 0 (rportObj p) [(20, 1, s.rd (rportObj p) 1)]

/-- STATE of a die's recovered clock follows its source lane (R287). -/
def State.recUpdate (s : State) (d : Nat) : State :=
  let o := 0x58C0 + d
  let src := s.rd o 2
  if s.rd o 1 = 0xFF ∨ src = 0xFF then s.wr o 5 0
  else if s.rd (laneObj (8 * d + src)) 2 = 3 then s.wr o 5 1
  else if s.rd o 4 = 1 ∧ s.rd o 5 = 1 then s
  else s.wr o 5 2

/-- The source lane of the recovered clock has left UP (R287). -/
def State.recLost (s : State) (k : Nat) : State :=
  let d := k / 8
  let o := 0x58C0 + d
  if s.rd o 1 ≠ 0xFF ∧ s.rd o 2 = k % 8 then
    (s.recUpdate d).raise 0x0609 3 1 o [(20, 1, s.rd o 2), (21, 1, s.rd o 4)]
  else s

/-- What a receiver's FFE and DFE have adapted to stands from now on (R286): open values. -/
def State.eqHold (s : State) (k : Nat) : State :=
  if s.laneRuns k ∧ s.rd (eqObj k) 6 = 1 then
    ((s.wr (eqObj k) 7 (s.freeVal 192)).freeNext.wr (eqObj k) 8 (s.freeNext.freeVal 16)).freeNext
  else s

/-- ADAPT of a receiver takes a value: with 0 the FFE and DFE hold their present values (R286). -/
def State.eqAdapt (s : State) (k v : Nat) : State := (if v = 0 then s.eqHold k else s).wr (eqObj k) 6 v

/-- A lane goes to a state other than UP (R288). Leaving UP counts in LOSS_COUNT, raises event 0x0602 and takes the lane's
port DOWN with `pcause`. -/
def State.laneLeave (s : State) (k st signal cause pcause : Nat) : State :=
  let was := s.rd (laneObj k) 2
  let s1 := ((if st = 2 then s else s.eqHold k).wr (laneObj k) 2 st).wr (laneObj k) 0xE signal
  let s2 := if was = 3 then ((s1.bump (laneObj k) 0xD 4 1).raise 0x0602 3 1 (laneObj k) [(20, 1, cause)]).recLost k else s1
  match s2.portOf k with
  | some p => s2.portLeave p 0 pcause
  | none => s2

/-- A lane starts to acquire. -/
def State.laneAcquire (s : State) (k : Nat) : State :=
  (s.setLane k { s.lane k with acqFrom := s.now }).wr (laneObj k) 2 2

/-- A lane may leave IDLE: the device runs, out of standby, with the die's reference present and no tamper (R266, R288, R290). -/
def State.laneMay (s : State) (k : Nat) : Bool :=
  decide (s.rd 0x2000 1 = 4) && decide (s.rd 0x3000 0xA = 0) && s.rayRef (k / 8) && !s.ray.tampered

/-- An enabled lane that is OFF or IDLE goes where it may: ACQUIRING or IDLE; before configuration it is OFF. -/
def State.laneGo (s : State) (k : Nat) : State :=
  if s.rd (laneObj k) 3 = 1 ∧ s.rd (laneObj k) 2 < 2 then
    (if s.laneMay k then s.laneAcquire k
     else s.wr (laneObj k) 2 (if s.rd 0x3000 0xA = 2 ∨ (s.rd 0x2000 1 ≠ 2 ∧ s.rd 0x2000 1 ≠ 3 ∧ s.rd 0x2000 1 ≠ 4) then 0 else 1))
  else s

/-- A lane after the commit of a full load and before startup step 4 (R288): IDLE where its record enables it, else OFF. -/
def State.laneHeld (s : State) (k : Nat) : State :=
  if s.rd (laneObj k) 2 = 4 then s else s.wr (laneObj k) 2 (if s.rd (laneObj k) 3 = 1 then 1 else 0)

/-- ENABLE of a lane takes a value (R288): 0 powers the lane down. -/
def State.laneEnable (s : State) (k v : Nat) : State :=
  let s1 := s.wr (laneObj k) 3 v
  if v = 0 then (if s.rd (laneObj k) 2 = 4 then s1 else s1.laneLeave k 0 0 2 1) else s1.laneGo k

/-- Region number of a receive FIFO's site and its slot: FIFO `j` of the port whose first lane is `p` (R270, R272). -/
def fifoPlace (p j : Nat) : Nat × Nat := (32 * (p / 8) + 24 + (p % 8 + j / 4), j % 4)
/-- Site of a FIFO. -/
def fifoSite (p j : Nat) : Site := .lane (Fin.ofNat 2 (p / 8)) (Fin.ofNat 8 (p % 8 + j / 4)) (Fin.ofNat 4 (j % 4))

/-- Received words enter the receive FIFOs in order while the next FIFO's FULL is low (R272, R278): the words left and the
index of the next. -/
def State.fillFifos (s : State) (p n : Nat) : Nat → List Word → List Word × Nat × State
  | i, [] => ([], i, s)
  | i, w :: l =>
    let (r, slot) := fifoPlace p (i % (4 * n))
    if (s.fab.siteOut.get (fun _ => []) (r * 16 + slot)).length < 16 ∧ s.cellOn (fifoSite p (i % (4 * n))) true = true then
      ({ s with fab := s.fab.give r slot [w] } : State).fillFifos p n (i + 1) l
    else (w :: l, i, s)

/-- A port's receive buffer, or a raw lane's elastic buffer, drains. -/
def State.rxDrain (s : State) (k : Nat) : State :=
  match s.portOf k with
  | none =>
    match s.fillFifos k 1 (s.lane k).rxIndex (s.lane k).elastic with
    | (l, i, t) => t.setLane k { t.lane k with elastic := l, rxIndex := i }
  | some p =>
    match s.fillFifos p (s.portWidth p) (s.rport p).rxIndex (s.rport p).rx with
    | (l, i, t) => t.setRport p { t.rport p with rx := l, rxIndex := i }

/-- STAMP_REQ of a transmit trailer (R277). -/
def stampReq (w : Word) : Bool := w.data.toNat.testBit 35

/-- Why a frame ends with an error termination (R277): 1 a length rule, 2 ABORT, 3 POISON; the first that holds. -/
def frameCause (maxFrame : Nat) (data : List Word) (tr : Word) : Option Nat :=
  let len := tr.data.toNat % 65536
  if data.length ≠ (len + 15) / 16 ∨ len = 0 ∨ maxFrame < len then some 1
  else if tr.data.toNat.testBit 34 then some 2
  else if (tr :: data).any (fun w => w.poison) then some 3
  else none

/-- The data words, the trailer and what follows, once the trailer of the frame in front has arrived. -/
def splitFrame : List Word → Option (List Word × Word × List Word)
  | [] => none
  | w :: l =>
    if w.last then some ([], w, l)
    else match splitFrame l with
      | some (d, t, r) => some (w :: d, t, r)
      | none => none

/-- A frame with an error termination is counted (R277, R293). -/
def State.txErrored (s : State) (p cause : Nat) : State :=
  (s.bump (rportObj p) 0xD 4 1).windowed 0x0607 3 1 (rportObj p) 1 cause

/-- A frame of a number of bytes has gone out on the line: what follows the SFD (R268). -/
def State.lineFrame (s : State) (p : Nat) (data : List Word) (bytes : Nat) (errored : Bool) : State :=
  ({ s with ray := { s.ray with line := { lane := p, words := data, bytes := bytes, errored := errored } :: s.ray.line } } : State).tally
    (rportObj p) 0xA 1

/-- The stamp of a sent frame is held when its trailer asks for one (R284). -/
def State.holdStamp (s : State) (p stamp : Nat) (tr : Word) : State :=
  if stampReq tr && decide (s.rd (rportObj p) 6 = 1) then
    s.setRport p { s.rport p with stamps := (s.rport p).stamps ++ [stamp] }
  else s

/-- A whole frame is sent. -/
def State.sendFrame (s : State) (p stamp : Nat) (data : List Word) (tr : Word) : State :=
  let cause := frameCause (s.rd (rportObj p) 3) data tr
  let s1 := (s.lineFrame p data (tr.data.toNat % 65536) cause.isSome).holdStamp p stamp tr
  match cause with
  | some c => s1.txErrored p c
  | none => s1

/-- The port sends frames: it is UP, or in a fault that FAULT_AUTO leaves alone with its lanes UP (R269). -/
def State.canSend (s : State) (p : Nat) : Bool :=
  decide (s.rd (rportObj p) 2 = 2) ||
    (decide (3 ≤ s.rd (rportObj p) 2) && decide (s.rd (rportObj p) 5 = 0) && (s.portLanes p).all (fun k => decide (s.rd (laneObj k) 2 = 3)))

/-- What a port puts on its line between or in place of frames (R269, R279, R288). -/
inductive LineFill where
  | silent
  | idles
  | remoteFault
deriving DecidableEq, Repr

/-- A port's line while no frame is on it: electrically idle or without a common alignment while its lanes are not all UP; the remote fault
sequence while it is in local fault, that is not aligned, with FAULT_AUTO set; else idles. -/
def State.lineFill (s : State) (p : Nat) : LineFill :=
  if s.rd (rportObj p) 2 = 0 then .silent
  else if (s.rd (rportObj p) 2 = 1 ∨ s.rd (rportObj p) 2 = 3) ∧ s.rd (rportObj p) 5 = 1 then .remoteFault
  else .idles

/-- Words move from the transmit FIFOs to the transmit buffer in order (R272, R278). -/
def State.txPull (s : State) (p n : Nat) : Nat → State
  | 0 => s
  | fuel + 1 =>
    let x := s.rport p
    let site := fifoSite p (x.txIndex % (4 * n))
    let c := s.cellAt (siteNum site)
    match c.fifo with
    | [] => s
    | w :: rest =>
      if x.tx.length < 1024 * n ∧ s.cellOn site false = true then
        ((s.setCell (siteNum site) { c with fifo := rest }).setRport p
          { x with tx := x.tx ++ [w], txIndex := x.txIndex + 1 }).txPull p n fuel
      else s

/-- The frame on the line takes the words that have come, so that the buffer has room for those to come, and ends when its trailer has arrived; words
of a frame that underran are dropped up to it (R279). -/
def State.txSettle (s : State) (p : Nat) : State :=
  let x := s.rport p
  match x.sending with
  | none => s
  | some (stamp, dropping) =>
    match splitFrame x.tx with
    | some (data, tr, rest) =>
      let t := s.setRport p { x with tx := rest, sending := none, onLine := [] }
      if dropping then t.holdStamp p stamp tr else t.sendFrame p stamp (x.onLine ++ data) tr
    | none => s.setRport p { x with tx := [], onLine := if dropping then [] else x.onLine ++ x.tx }

/-- A port that sends takes words and brings the frame on the line up to date. -/
def State.txAdvance (s : State) (p : Nat) : State :=
  if s.canSend p then (s.txPull p (s.portWidth p) (64 * s.portWidth p)).txSettle p else s

/-- A stamp (R282): half-nanoseconds at the time-stamp point, with a board offset in ps. -/
def State.stamp (s : State) (subNs : Bool) (offset : Nat) : Nat :=
  ofSigned 64 ((((2 * s.now + subNs.toNat) * 500 : Nat) + toSigned 32 offset) / 500)

/-- LANE_UP (R288): the receiver locks while the lane acquires from the locked Ray PLL. The lane's port starts to align when
its last lane comes up. -/
def execLaneUp (l : Lane) (s : State) : Result :=
  let k := laneNum l
  if s.rd (laneObj k) 2 = 2 ∧ s.rd (loopObj ⟨l.die, 1⟩) 2 = 2 then
    let x := s.lane k
    let s1 := ((s.setLane k { x with carry := 0, held := 0, skip := 0 }).wr (laneObj k) 2 3).wr (laneObj k) 0xE 2
    let s2 := (s1.raise 0x0601 3 0 (laneObj k) [(24, 4, (s.now - x.acqFrom) / 1000)]).recUpdate l.die.val
    match s2.portOf k with
    | some p => .next (if (s2.portLanes p).all (fun j => decide (s2.rd (laneObj j) 2 = 3)) then s2.wr (rportObj p) 2 1 else s2)
    | none => .next s2
  else .next s

/-- LANE_DOWN (R293): signal or lock is lost; the lane acquires again. -/
def execLaneDown (l : Lane) (lockLost : Bool) (s : State) : Result :=
  let k := laneNum l
  if s.rd (laneObj k) 2 = 3 then .next ((s.laneLeave k 2 lockLost.toNat lockLost.toNat 1).laneAcquire k) else .next s

/-- PORT_UP (R288): every lane of the port is UP and its PCS aligns. -/
def execPortUp (l : Lane) (s : State) : Result :=
  let p := laneNum l
  let st := s.rd (rportObj p) 2
  if s.rd (rportObj p) 1 ≠ 0 ∧ (s.portLanes p).all (fun k => decide (s.rd (laneObj k) 2 = 3)) = true ∧ (st = 1 ∨ st = 3) then
    .next (s.portEnter p)
  else .next s

/-- PORT_DOWN (R293): the PCS loses alignment; the port is in local fault (R269). Whether event 0x0604 gives the one cause, 0, or the other, 2, is
open (notes/assumptions/192.md). The loss of a lane takes the port DOWN with the lane (R288). -/
def execPortDown (l : Lane) (s : State) : Result :=
  let p := laneNum l
  let st := s.rd (rportObj p) 2
  if s.rd (rportObj p) 1 ≠ 0 ∧ (st = 1 ∨ st = 2 ∨ st = 4) then .next (s.freeNext.portLeave p 3 (2 * s.freeVal 1)) else .next s

/-- REMOTE_FAULT (R269): the port receives the remote fault sequence. -/
def execRemoteFault (l : Lane) (s : State) : Result :=
  let p := laneNum l
  if s.rd (rportObj p) 1 ≠ 0 ∧ s.rd (rportObj p) 2 = 2 then .next (s.portLeave p 4 3) else .next s

/-- REMOTE_FAULT_CLEARED (R269): the sequence ends; the port is UP and sends held frames again. -/
def execRemoteFaultCleared (l : Lane) (s : State) : Result :=
  let p := laneNum l
  if s.rd (rportObj p) 1 ≠ 0 ∧ s.rd (rportObj p) 2 = 4 then .next (s.portEnter p) else .next s

/-- Lanes of a die. -/
def dieLanes (d : Nat) : List Nat := (List.range 8).map (fun l => 8 * d + l)

/-- An enabled lane goes to IDLE (R266, R290). -/
def State.laneIdle (s : State) (cause k : Nat) : State :=
  if s.rd (laneObj k) 3 = 1 then s.laneLeave k 1 0 cause 1 else s

/-- A lane is OFF before configuration (R288). -/
def State.laneOff (s : State) (k : Nat) : State :=
  if s.rd (laneObj k) 3 = 1 ∧ s.rd (laneObj k) 2 ≠ 4 then s.laneLeave k 0 0 2 1 else s

/-- REFCLK_LOST_RAY (R266): every enabled lane of the die goes to IDLE, event 0x060B. -/
def execRefclkLostRay (die : Fin 2) (s : State) : Result :=
  if s.rayRef die.val then
    let s1 := (s.wr 0x5800 3 (clrBit (s.rd 0x5800 3) die.val)).each (fun t k => t.laneIdle 4 k) (dieLanes die.val)
    .next (s1.raise 0x060B 3 2 0x5800 [(20, 1, die.val)])
  else .next s

/-- RAY_REFCLK_PRESENT (R266): enabled lanes may leave IDLE and acquire. -/
def execRayRefclkPresent (die : Fin 2) (s : State) : Result :=
  if s.rayRef die.val then .next s
  else .next ((s.wr 0x5800 3 (setBit (s.rd 0x5800 3) die.val)).each State.laneGo (dieLanes die.val))

/-- Octets cut into words of sixteen. -/
def cut16 : Nat → List Byte → List (List Byte)
  | 0, _ => []
  | _, [] => []
  | n + 1, l => l.take 16 :: cut16 n (l.drop 16)

/-- Data words of a received frame (R274, R276): a word that holds a byte of an uncorrectable codeword is poisoned. -/
def frameWords (bad : List Nat) : Nat → List (List Byte) → List Word
  | _, [] => []
  | i, l :: r => ⟨BitVec.ofNat 128 (ofOctets l), false, bad.contains i, false, false⟩ :: frameWords bad (i + 1) r

/-- The receive trailer word (R275, R276). -/
def rxTrailer (stamp seq len : Nat) (fec code pre coarse trunc : Bool) : Word :=
  ⟨BitVec.ofNat 128 (stamp <<< 64 ||| trunc.toNat <<< 36 ||| coarse.toNat <<< 35 ||| pre.toNat <<< 34 ||| code.toNat <<< 33
      ||| fec.toNat <<< 32 ||| seq <<< 16 ||| len), true, fec || code || trunc, false, false⟩

/-- The FEC's counts of a frame (R292, R293). -/
def State.fecCount (s : State) (p : Nat) (f : RxFrame) : State :=
  let s1 := ((s.tally (rportObj p) 0xE f.cwCorrected).tally (rportObj p) 0xF f.cwUncorrectable).tally (rportObj p) 0x10 f.symbols
  if f.cwUncorrectable = 0 then s1 else s1.windowed 0x0605 3 1 (rportObj p) f.cwUncorrectable 0

/-- Words that a frame of at most MAX_FRAME bytes and its trailer take. -/
def frameRoom (maxFrame : Nat) : Nat := (maxFrame + 15) / 16 + 1

/-- RX_FRAME (R274 to R278, R282): the frame is admitted whole when the buffer has room for MAX_FRAME bytes and a trailer, or
dropped whole; SEQ advances either way. A frame has at least one byte. -/
def execRxFrame (l : Lane) (f : RxFrame) (s : State) : Result :=
  let p := laneNum l
  if f.bytes = [] then .refused (.illFormed "RX_FRAME")
  else if s.rd (rportObj p) 1 = 0 ∨ s.rd (rportObj p) 2 ≠ 2 then .next s
  else
    let s0 := (s.fecCount p f).rxDrain p
    let x := s0.rport p
    let mf := s0.rd (rportObj p) 3
    let s1 := s0.setRport p { x with rxSeq := (x.rxSeq + 1) % 65536 }
    if x.rx.length + frameRoom mf ≤ 1024 * s0.portWidth p then
      let bytes := f.bytes.take mf
      let trunc := decide (mf < f.bytes.length)
      let on := decide (s0.rd (rportObj p) 6 = 1)
      let stamp := if on then s0.stamp f.subNs (s0.rd (rportObj p) 7) else 0
      let coarse := on && decide (s0.rd 0xA200 2 ≠ 0)
      let words := frameWords f.uncorrWords 0 (cut16 bytes.length bytes)
      let tr := rxTrailer stamp x.rxSeq bytes.length (!f.uncorrWords.isEmpty) f.codeErr f.preambleErr coarse trunc
      let s2 := (s1.setRport p { s1.rport p with rx := x.rx ++ words ++ [tr] }).tally (rportObj p) 9 1
      .next ((if trunc then s2.bump (rportObj p) 0xC 4 1 else s2).rxDrain p)
    else .next ((s1.bump (rportObj p) 0xB 4 1).windowed 0x0606 3 1 (rportObj p) 1 0)

/-- A frame starts on the line. Without its trailer it is on the line until the trailer arrives (R279). -/
def State.txStart (s : State) (p : Nat) (subNs : Bool) : State :=
  let x := s.rport p
  let st := s.stamp subNs (s.rd (rportObj p) 8)
  let start := s.rd (rportObj p) 4
  match splitFrame x.tx with
  | some (data, tr, rest) =>
    if start = 0 ∧ frameCause (s.rd (rportObj p) 3) data tr = some 1 then
      (s.setRport p { x with tx := rest, heldOnce := false }).txErrored p 1
    else if stampReq tr && decide (s.rd (rportObj p) 6 = 1) && decide (64 ≤ x.stamps.length) then
      (if x.heldOnce then s else (s.setRport p { x with heldOnce := true }).bump (rportObj p) 0x12 4 1)
    else (s.setRport p { x with tx := rest, heldOnce := false }).sendFrame p st data tr
  | none =>
    if 0 < start ∧ start ≤ x.tx.length ∧ x.stamps.length < 64 then s.setRport p { x with sending := some (st, false), tx := [], onLine := x.tx } else s

/-- TX_FRAME_START (R277, R279, R284). A port that holds 64 stamps starts no frame whose trailer it has not seen
(notes/assumptions/20.md). -/
def execTxFrameStart (l : Lane) (subNs : Bool) (s : State) : Result :=
  let p := laneNum l
  if s.rd (rportObj p) 1 ≠ 0 ∧ s.canSend p = true then
    let t := s.txAdvance p
    .next (if (t.rport p).sending.isNone then t.txStart p subNs else t)
  else .next s

/-- TX_UNDERRUN_ERROR (R279): the started frame's next word is absent: an error termination with cause 0, and the remaining
words up to the trailer are dropped. -/
def execTxUnderrunError (l : Lane) (s : State) : Result :=
  let p := laneNum l
  let t := s.txAdvance p
  match (t.rport p).sending with
  | some (st, false) =>
    let x := t.rport p
    .next (((t.lineFrame p x.onLine (16 * x.onLine.length) true).setRport p { x with onLine := [], sending := some (st, true) }).txErrored p 0)
  | _ => .next t

/-- The bits of a raw word that an inverted line inverts (R292): every bit of NRZ; of each Gray-coded PAM4 symbol the earlier bit
(PRESUMED, notes/assumptions/191.md). -/
def State.polarityMask (s : State) (k bit : Nat) : BitVec 128 :=
  if (s.rd (laneObj k) 7).testBit bit then (if s.rd (laneObj k) 5 = 1 then 0x55555555555555555555555555555555#128 else BitVec.allOnes 128) else 0#128

/-- Bits received on a raw lane join those of the next word, bits to skip fall away, and a whole word comes out (R280, R281). -/
def LaneSt.takeBits (x : LaneSt) (bits : BitVec 128) : Option Word × LaneSt :=
  let all := x.carry ||| bits.toNat <<< x.held
  let n := x.held + 128
  let d := min x.skip n
  let v := all >>> d
  let m := n - d
  if 128 ≤ m then
    (some ⟨BitVec.ofNat 128 v, true, false, false, false⟩, { x with carry := v >>> 128, held := m - 128, skip := x.skip - d })
  else (none, { x with carry := v, held := m, skip := x.skip - d })

/-- RAW_RX_WORD (R280, R281): 128 further bits arrive on a raw lane, inverted where RX_INV says; a word that finds the elastic buffer full is dropped. -/
def execRawRxWord (l : Lane) (bits : BitVec 128) (s : State) : Result :=
  let k := laneNum l
  if s.rd (laneObj k) 8 = 0xFF ∧ s.rd (laneObj k) 2 = 3 then
    let t := s.rxDrain k
    match (t.lane k).takeBits (bits ^^^ s.polarityMask k 0) with
    | (none, x) => .next (t.setLane k x)
    | (some w, x) =>
      if x.elastic.length < 256 then .next ((t.setLane k { x with elastic := x.elastic ++ [w] }).rxDrain k)
      else .next (((t.setLane k x).bump (laneObj k) 0xB 4 1).windowed 0x0608 3 2 (laneObj k) 1 0)
  else .next s

/-- A raw word goes out on the line, inverted where TX_INV says. -/
def State.lineRaw (s : State) (k : Nat) (w : Word) : State :=
  { s with ray := { s.ray with
      line := { lane := k, words := [{ w with data := w.data ^^^ s.polarityMask k 1 }], bytes := 16, errored := false } :: s.ray.line } }

/-- A raw lane transmits, its gearbox clocked. -/
def State.rawSends (s : State) (k : Nat) : Bool :=
  decide (s.rd (laneObj k) 8 = 0xFF) && s.cellOn (fifoSite k 0) false && (decide (s.rd (laneObj k) 2 = 2) || decide (s.rd (laneObj k) 2 = 3))

/-- RAW_FILL (R281): the transmit FIFO of the next word is empty; RAW_FILL goes out in its place, and the fabric's next word
takes the slot after it. -/
def execRawFill (l : Lane) (s : State) : Result :=
  let k := laneNum l
  if s.rawSends k && (s.cellAt (siteNum (fifoSite k ((s.lane k).txIndex % 4)))).fifo.isEmpty then
    .next ((s.lineRaw k ⟨BitVec.ofNat 128 (s.rd (laneObj k) 0xA), true, false, false, false⟩).bump (laneObj k) 0xC 4 1)
  else .next s

/-- Words of a raw lane's transmit FIFOs go out in order. -/
def State.rawSend (s : State) (k : Nat) : Nat → State
  | 0 => s
  | n + 1 =>
    let x := s.lane k
    let site := fifoSite k (x.txIndex % 4)
    let c := s.cellAt (siteNum site)
    match c.fifo with
    | [] => s
    | w :: rest =>
      (((s.setCell (siteNum site) { c with fifo := rest }).setLane k { x with txIndex := x.txIndex + 1 }).lineRaw k w).rawSend k n

/-- A lane's receive word boundary moves later by `v` bits from the next word on (R281). -/
def State.laneSlip (s : State) (k v : Nat) : State := s.setLane k { s.lane k with skip := (s.lane k).skip + v }

/-- RX_SLIP (R281). -/
def execRxSlip (q : Req) (l : Lane) (v : BitVec 8) (s : State) : Result :=
  s.writing q (laneObj (laneNum l)) 9 1 v.toNat (fun t => t.laneSlip (laneNum l) v.toNat)

/-- TRANSMIT_STAMP_REQUEST (R284, R149): a request token on the stamp reader is answered with the oldest unread stamp, once
there is one; the reply is a SITE_VALUE decision. In replay it is the logged value, and the port's stamps are not asked
(notes/assumptions/170.md). -/
def execTransmitStampRequest (l : Lane) (w : Word) (s : State) : Result :=
  let p := laneNum l
  let n := (fifoPlace p 0).1
  let replay := decide (s.rd (detObj n) 3 = 2)
  let held := (s.rport p).stamps
  if s.rd (rportObj p) 1 ≠ 0 ∧ s.fab.siteOut.get (fun _ => []) (n * 16 + 4) = [] ∧ (replay = true ∨ held ≠ []) ∧
      s.cellOn (fifoSite p 0) true = true then
    match s.siteTake n 4 w with
    | none => .next s
    | some t =>
      match t.siteDecide n 3 (chanId 3 n 0 0 4) (held.headD 0) with
      | none => .next (s.siteWait n 3)
      | some (v, t1) =>
        let t2 := if replay then t1 else t1.setRport p { t1.rport p with stamps := held.tail }
        .next { t2 with fab := t2.fab.give n 4 [replyWord (v % 2 ^ 64)] }
  else .next s

/-- The word that a fixed island's block has to write into a WORD FIFO next (R175): a response of a memory port (R239), or the next received word of a
port or raw lane, whose FIFOs are written strictly in turn (R272). The words of a host channel are those of its descriptors (R315). -/
def State.presents (s : State) : Site → Option Word
  | .memory d p => (s.mport (64 * d.val + p.val)).resp.head?
  | .lane d l k =>
    let j := 8 * d.val + l.val
    let p := (s.portOf j).getD j
    let (i, ws) := if (s.portOf j).isSome then ((s.rport p).rxIndex, (s.rport p).rx) else ((s.lane j).rxIndex, (s.lane j).elastic)
    if fifoSite p (i % (4 * s.portWidth p)) = .lane d l k then ws.head? else none
  | _ => none

/-- A fixed island's block writes on, as far as FULL lets it. -/
def State.blockWrites (s : State) : Site → State
  | .memory d p => s.drainPort (64 * d.val + p.val)
  | .lane d l _ => s.rxDrain ((s.portOf (8 * d.val + l.val)).getD (8 * d.val + l.val))
  | _ => s

/-- WORD_FIFO_ISLAND_WRITE (R175, R195): the island writes a word. A user island's bits [19:0] are the levels of the pads of its signals at
this edge; its word is dropped while FULL. A fixed island writes the words that its block presents, and honours FULL. -/
def execWordFifoIslandWrite (site : Site) (w : Word) (s : State) : Result :=
  let n := siteRegion site
  match site with
  | .user _ _ =>
    if s.siteType site = 0 ∧ s.cellOn site true = true ∧ s.islandValid site w = true then
      if (s.fab.siteOut.get (fun _ => []) (n * 16 + siteSlot site)).length < 16 then
        .next { s with fab := s.fab.give n (siteSlot site) [s.islandWord site w] }
      else .next (s.overrun site (siteChan site 1))
    else .next s
  | _ => .next (if s.cellOn site true = true ∧ s.presents site = some w then s.blockWrites site else s)

/-- TX_TAP_WRITE (R285): a transmitter tap takes a value within the limits of R285. -/
def execTxTapWrite (q : Req) (l : Lane) (tap : Fin 4) (v : BitVec 16) (s : State) : Result :=
  s.writing q (eqObj (laneNum l)) (1 + tap.val) 2 v.toNat (fun t => t.wr (eqObj (laneNum l)) (1 + tap.val) v.toNat)

/-- Time passes for one lane: raw words go out at the lane's rate, buffers drain, frames on the line end. -/
def State.laneTick (s : State) (t0 k : Nat) : State :=
  if s.rd (laneObj k) 8 = 0xFF then
    if s.rawSends k then
      let r := s.laneRate k * 1000
      (s.rawSend k (s.now * r / (128 * 10 ^ 9) - t0 * r / (128 * 10 ^ 9))).rxDrain k
    else s.rxDrain k
  else if s.portOf k = some k then (s.txAdvance k).rxDrain k
  else s

/-- The domain reset of an owner's lanes (R290): FIFOs, buffers and stamps are discarded, a frame being sent ends with an error
termination, and counters are kept. -/
def State.rayReset (s : State) (k : Nat) : State :=
  let d : Fin 2 := Fin.ofNat 2 (k / 8)
  let s1 := s.resetCells ((List.finRange 4).map (fun j => Site.lane d (Fin.ofNat 8 (k % 8)) j))
  let s2 := s1.setLane k { s1.lane k with elastic := [], rxIndex := 0, txIndex := 0 }
  if s2.portOf k = some k then
    let x := s2.rport k
    let s3 := match x.sending with
      | some (_, false) => s2.lineFrame k x.onLine (16 * x.onLine.length) true
      | _ => s2
    s3.setRport k { x with rx := [], tx := [], rxIndex := 0, txIndex := 0, sending := none, onLine := [], stamps := [], heldOnce := false }
  else s2

/-- TAMPER_N is low (R290): every transmitter goes to electrical idle until device reset. -/
def State.rayTamper (s : State) : State :=
  ({ s with ray := { s.ray with tampered := true } } : State).each (fun t k => t.laneIdle 3 k) (List.range 16)

end Sys2Proof.Machine
end

