-- ==== Sys2Proof/Machine/Determ.lean ====
section
/-! DEFINITION. Log and replay streams and the delay-margin monitors (R145 to R170). -/

namespace Sys2Proof.Machine

/-- LOG_STALLED (R157): a stream stalled for 1 ms raises event 0x0D11 once. -/
def execLogStalled (st : Stream) (s : State) : Result :=
  let k := streamKey st
  let x := s.stream k
  match x.stalledAt with
  | none => .next s
  | some (kind, t) =>
    if t + 1000000 ≤ s.now ∧ x.stallRaised = false then
      .next ((s.setStream k { x with stallRaised := true }).raise 0x0D11 (streamIndex k).1 1 (streamIndex k).2
        [(20, 1, kind), (22, 2, s.logQueue k)])
    else .next s

/-- An MX LU in replay with a request high and no grant needs a decision (R158). -/
def State.mxNeeds (s : State) (u : Nat) : Bool :=
  let x := s.fab.lu u
  match x.cfg with
  | some c => !x.oF && !x.oG && s.canStart (u / 16384) && (s.fab.mxReq u c 0 || s.fab.mxReq u c 1)
  | none => false

/-- A bit token stands at a site bit input and has not been taken (R45, R89). -/
def FabSt.bitOffered (f : FabSt) (n slot : Nat) : Bool :=
  match f.siteBitSrc n slot with
  | some src => f.req src && !f.gAck.get (fun _ => false) (2 ^ 20 + n * 32 + slot)
  | none => false

/-- The SITE_CYCLE choice points of a user site, as KIND, channel and whether one needs its decision now (R149, R150): tokens that enter the
island, requests of a VALUE reader, and the returning toggle of a PULSE cell out of the island. -/
def State.userCrossings (s : State) (n j : Nat) : List (Nat × Nat × Bool) :=
  let site : Site := .user (if n < 32 then 0 else 1) (Fin.ofNat 64 (2 * (n % 32) + j))
  let x := s.cellAt (siteNum site)
  let out := (s.siteCfg site).testBit 10
  let word := (s.fab.offered (sinkSite n (14 + j))).isSome
  if (s.siteCfg site).testBit 15 = false then []
  else
    let live (b : Bool) : Bool := b && s.cellOn site out
    match s.siteType site, out with
    | 0, false => [(2, siteChan site 0, live word)]
    | 0, true => []
    | 1, _ => [(2, siteChan site 0, live word)]
    | 2, true => [(2, bitChan site 1, live (x.srcToggle != x.retToggle && x.presented && !s.fab.bitOut n (28 + j) && !s.fab.ack (.site n (28 + j))))]
    | _, true => []
    | _, false => [(2, bitChan site 0, live (s.fab.bitOffered n (28 + j)))]

/-- The SITE_VALUE choice points of a region (R149, R150): reads of device time, of Ray transmit stamps and of pin levels. -/
def State.valueCrossings (s : State) (n : Nat) : List (Nat × Nat × Bool) :=
  let word (slot : Nat) : Bool := (s.fab.offered (sinkSite n slot)).isSome
  [(3, chanId 3 n 0 0 13, word 13 || s.dev.timeWaiters.contains n)]
    ++ (if n % 32 < 20 then [(3, chanId 3 n 0 0 7, word 7)] else [])
    ++ (if (List.range 16).any (fun p => decide (s.rd (rportObj p) 1 ≠ 0) && decide ((fifoPlace p 0).1 = n)) then
        [(3, chanId 3 n 0 0 4, word 4)] else [])

/-- The VISIBLE crossings of a region (R150). -/
def State.crossings (s : State) (n : Nat) : List (Nat × Nat × Bool) :=
  s.userCrossings n 0 ++ s.userCrossings n 1 ++ s.valueCrossings n

/-- SOURCE of a crossing of a replaying region that needs a decision. -/
def State.siteNeeds (s : State) (n : Nat) : Option Nat :=
  if s.rd (detObj n) 3 = 2 then ((s.crossings n).find? (fun p => p.2.2)).map (fun p => p.2.1) else none

/-- A record's KIND and SOURCE name a choice point of the stream (R161). -/
def State.namesPoint (s : State) (k w : Nat) : Bool :=
  if k < 64 then
    (decide (recKind w = 1) && (s.mxPoints k 2).any (fun u => decide (locUnit u = recSource w)))
      || (decide (s.rd (detObj k) 3 = 2) && (s.crossings k).any (fun p => decide (p.1 = recKind w) && decide (p.2.1 = recSource w)))
  else if k < 1088 then decide (recKind w = 4) && decide (recSource w = (k - 64) % 512)
  else decide (recKind w = 5) && decide (recSource w = k - 1088)

/-- SOURCE of a choice point of the stream that needs a decision now (R161). A queue is taken to need one whenever it holds a word, which the
spec leaves open (DESIGN CHOICE, notes/assumptions/171.md). -/
def State.needing (s : State) (k : Nat) : Option Nat :=
  if k < 64 then
    match (s.mxPoints k 2).find? s.mxNeeds with
    | some u => some (locUnit u)
    | none => s.siteNeeds k
  else if k < 1088 then (if 0 < (s.q ((k - 64) / 512) ((k - 64) % 512)).level then some ((k - 64) % 512) else none)
  else
    let w := k - 1088
    if s.mem.ports.cells.any (fun p => match p.2.reqs with | r :: _ => decide (r.window = w) | [] => false) then some w else none

/-- The choice point of an exhausted replay passes no token, with event 0x0D12 (R161). -/
def State.exhaustedCheck (s : State) (k : Nat) : State :=
  let x := s.stream k
  let q := s.replayQueue k
  if q < 512 ∧ s.producerDetached (s.streamDie k) q = true ∧ x.exhausted = false then
    match s.needing k with
    | some src =>
      (s.setStream k { x with exhausted := true }).raise 0x0D12 (streamIndex k).1 2 (streamIndex k).2
        [(20, 4, src), (24, 4, if k < 64 then s.rd (detObj k) 5 else (x.rseqs.map (fun p => p.2)).foldl (· + ·) 0)]
    | none => s
  else s

/-- Reads of a queue completed before the head LOCUS_TIMEOUT record reached the head exceed its count (R159). -/
def State.readsPassed (s : State) (k w : Nat) : Bool :=
  decide (64 ≤ k) && decide (k < 1088) && decide (recDecision w % 2 ^ 32 < (s.stream k).reads)

/-- A head record is handed to the choice point that it names (R158, R159), or stops the stream (R161). -/
def State.replayHand (s : State) (k w : Nat) : State :=
  let x := s.stream k
  if !x.epochRead then s.replayEpoch k w
  else if !s.namesPoint k w || decide (recSeq w ≠ seqOf x.rseqs (recSource w) % 2 ^ 24) || s.readsPassed k w then s.replayMismatch k w
  else s.setStream k { x with ready := some (readyKey (recKind w) (recSource w), recDecision w), headSince := some s.now,
                              headRaised := false }

/-- A choice point waits for an empty replay queue whose producer is attached (R161): since when, for event 0x0D14. -/
def State.emptyWait (s : State) (k : Nat) : State :=
  let x := s.stream k
  let q := s.replayQueue k
  if q < 512 ∧ s.producerDetached (s.streamDie k) q = false ∧ (s.needing k).isSome = true ∧ x.headSince = none then
    s.setStream k { x with headSince := some s.now, headRaised := false }
  else s

/-- REPLAY_DECISION (R158, R159, R161): the record at the head of the replay queue is handed to its choice point, which
takes the logged decision at its next step; an empty queue whose producer is detached exhausts the replay. -/
def execReplayDecision (st : Stream) (s : State) : Result :=
  let k := streamKey st
  let x := s.stream k
  if s.replaying k && !x.stopped && !x.repFailed && x.ready.isNone then
    match s.replayPeek k with
    | some w => .next (if x.epochRead || (!s.readsHeld (s.streamDie k) (s.replayQueue k) && s.headServes k) then s.replayHand k w else s)
    | none => .next ((s.exhaustedCheck k).emptyWait k)
  else .next s

/-- REPLAY_STALL_TIMEOUT of a stream, ns: the region's own; the default for queues and windows, which have no such object. -/
def State.replayTimeout (s : State) (k : Nat) : Nat := 1000000 * (if k < 64 then s.rd (detObj k) 6 else 1000)

/-- SOURCE that a stalled replay waits for: that of the record at the head, or, where none has come, of a choice point that needs one. -/
def State.stalledSource (s : State) (k : Nat) : Option Nat :=
  match (s.stream k).ready with
  | some (key, _) => some (key % 2 ^ 32)
  | none => if (s.replayPeek k).isSome then none else s.needing k

/-- REPLAY_STALLED (R161): the head record has waited for its choice point, or a choice point for a record, longer than
REPLAY_STALL_TIMEOUT; event 0x0D14 once for the record. -/
def execReplayStalled (st : Stream) (s : State) : Result :=
  let k := streamKey st
  let x := s.stream k
  match x.headSince, s.stalledSource k with
  | some t, some src =>
    if t + s.replayTimeout k < s.now ∧ x.headRaised = false then
      .next ((s.setStream k { x with headRaised := true }).raise 0x0D14 (streamIndex k).1 1 (streamIndex k).2
        [(20, 4, src), (25, 3, seqOf x.rseqs src % 2 ^ 24)])
    else .next s
  | _, _ => .next s

/-- Minimum delay of one matched-delay step on a rail, ps (R52): 0 VF_L, 1 VF_M, 2 VF_H. -/
def stepMin (rail : Nat) : Nat := if rail = 0 then 300 else if rail = 1 then 160 else 100

/-- Sum of the maxima of a Chord, Span and Chord path (R93) and of an evaluation (R53) on a rail, ps. -/
def pathMax (rail : Nat) : Nat := if rail = 0 then 2280 else if rail = 1 then 1180 else 760

/-- A DELAY_MON self-test holds the region's monitors (R163, R532): test 9 of that unit RUNNING. -/
def State.delayMonHeld (s : State) (n : Nat) : Bool := s.unitHeld (unitKey 9 n)

/-- The monitors of a region run (R163): configured, its rail neither GATED nor HOPPING, no self-test on them. -/
def State.monitored (s : State) (n : Nat) : Bool :=
  decide (2 ≤ s.regState n) && decide (s.rd (enObj n) 2 < 3) && !s.delayMonHeld n

/-- The reason for which a check fails, 0 when it passes (R163). -/
def marginReason (rail stepPs pathPs : Nat) (bundleOk : Bool) : Nat :=
  if stepPs < stepMin rail then 1 else if pathMax rail < pathPs then 2 else if !bundleOk then 3 else 0

/-- WORST_RATIO after a check (R169): the lowest (10 × step) ÷ path, Q16.16, truncated; 0 before the first check. -/
def worstRatio (old stepPs pathPs : Nat) : Nat :=
  if pathPs = 0 then old
  else
    let r := min (10 * stepPs * 65536 / pathPs) (2 ^ 31 - 1)
    if old = 0 then r else min old r

/-- A check point of a region's monitors (R163): 10 µs of device time after the last. -/
def State.checkDue (s : State) (n : Nat) : Bool :=
  match s.fab.marginAt.get (fun _ => none) n with
  | some t => decide (t + 10000 ≤ s.now)
  | none => true

/-- MARGIN_CHECK (R163 to R166): a check point of the region's monitors. The first failing check after a passing one is reported, in
MARGIN_STATE 1 as in any other (R164), and taints the region (R417). -/
def execMarginCheck (r : Region) (stepPs pathPs : Nat) (bundleOk : Bool) (s : State) : Result :=
  let n := rn r
  if !s.monitored n || !s.checkDue n then .next s
  else
    let rail := s.rd (enObj n) 2
    let o := detObj n
    let s0 : State := { s with fab := { s.fab with marginAt := s.fab.marginAt.put (fun _ => none) n (some s.now) } }
    let s1 := s0.wr o 0xB (worstRatio (s.rd o 0xB) stepPs pathPs)
    let st := s.rd o 8
    let passes := s.fab.marginPasses.get (fun _ => 0) n
    let put (t : State) (k : Nat) : State := { t with fab := { t.fab with marginPasses := t.fab.marginPasses.put (fun _ => 0) n k } }
    match marginReason rail stepPs pathPs bundleOk with
    | 0 =>
      let s2 := s1.wr o 0xA s.now
      if st = 1 then .next (if 16 ≤ passes + 1 then (put s2 0).wr o 8 2 else put s2 (passes + 1)) else .next s2
    | reason =>
      let s2 := put s1 0
      if st = 1 ∧ passes = 0 then .next s2
      else
        let s3 := ((s2.wr o 8 1).wr (intObj n) 3 1).raise 0x0D10 1 2 (locRegion n) [(20, 1, reason), (21, 1, rail), (24, 8, s.rd o 0xA)]
        .next (if s.rd o 7 = 1 then s3.fenceSet [n] 6 true else s3)

/-- The effect of an accepted MARGIN_CLEAR (R166): in MARGIN_STATE 2 the reason is cleared and the state returns to 0. -/
def State.marginCleared (s : State) (n : Nat) : State :=
  if s.rd (detObj n) 8 = 2 then (s.wr (detObj n) 8 0).clearReason n 6 else s

/-- MARGIN_CLEAR (R166). -/
def execMarginClear (q : Req) (r : Region) (v : BitVec 8) (s : State) : Result :=
  s.writing q (detObj (rn r)) 9 1 v.toNat (fun t => t.marginCleared (rn r))

/-- A stream's replay queue is named: the queue it named is unbound, the new one bound as kind 5 with number 0 (R208). -/
def State.bindReplay (s : State) (k obj sub v : Nat) : State :=
  let d := s.streamDie k
  let old := s.replayQueue k
  let s1 := if old < 512 ∧ kindOf (s.qo d old 4) = 5 then s.wr (queueObj d old) 4 0 else s
  let s2 := if v < 512 then s1.wr (queueObj d v) 4 0x5000 else s1
  s2.wr obj sub v

/-- LOG_QUEUE_WRITE (R169). PRODUCER of the queues is the manifest's and stays (R208). -/
def execLogQueueWrite (q : Req) (r : Region) (v : BitVec 16) (s : State) : Result :=
  s.writing q (detObj (rn r)) 1 2 v.toNat (fun t => t.wr (detObj (rn r)) 1 v.toNat)

/-- Object and subindex of a stream's REPLAY_QUEUE (R169, R226, R263). -/
def replayObj (k : Nat) : Nat × Nat :=
  if k < 64 then (detObj k, 2) else if k < 1088 then (0xB100 + (k - 64), 0x13) else (winObj (k - 1088), 9)

/-- REPLAY_QUEUE_WRITE (R169, R208, R226, R242). -/
def execReplayQueueWrite (q : Req) (st : Stream) (v : BitVec 16) (s : State) : Result :=
  let k := streamKey st
  s.writing q (replayObj k).1 (replayObj k).2 2 v.toNat (fun t => t.bindReplay k (replayObj k).1 (replayObj k).2 v.toNat)

/-- SITE_MODE_WRITE (R169). -/
def execSiteModeWrite (q : Req) (r : Region) (v : BitVec 8) (s : State) : Result :=
  s.writing q (detObj (rn r)) 3 1 v.toNat (fun t => t.wr (detObj (rn r)) 3 v.toNat)

end Sys2Proof.Machine
end

