-- ==== Sys2Proof/Machine/Locus.lean ====
section
/-! DEFINITION. Locus ports and queues (R205 to R227): tags, items, reads, spill, the idle timeout and flushes. -/

namespace Sys2Proof.Machine

/-- A value of a Locus port record (R226). -/
def State.po (s : State) (d p sub : Nat) : Nat := s.rd (lportObj d p) sub

/-- Word slot of a port: 8 + k (R205). -/
def portSlot (p : Nat) : Nat := 8 + p % 4

/-- The status channel of a port is at rest, or unused: the port may take another word (R211). -/
def State.statusRest (s : State) (d p : Nat) : Bool :=
  let n := portRegion d p
  !decide (s.po d p 4 = 1) || (!s.fab.bitOut n (16 + p % 4) && !s.fab.ack (.site n (16 + p % 4)))

/-- The status token of an item (R211): 0 ACCEPTED, 1 ABORTED, 2 REJECTED. -/
def State.portStatus (s : State) (d p v : Nat) : State :=
  if s.po d p 4 = 1 then { s with fab := s.fab.giveBit (portRegion d p) (16 + p % 4) v } else s

/-- An item is rejected (R210): counted by the queue, if a valid one is named, and reported once. -/
def State.rejectItem (s : State) (d p : Nat) (q : Option Nat) (reason : Nat) : State :=
  let s1 := match q with | some k => s.bump (queueObj d k) 0x18 4 1 | none => s
  s1.raise 0x0C01 3 1 (lportObj d p) [(20, 1, reason), (22, 2, q.getD 0xFFFF)]

/-- A new item for a queue waits (R217, R218, R222): its items are at ITEM_LIMIT, backpressure holds, or it is flushing. -/
def State.itemWaits (s : State) (d q : Nat) : Bool :=
  !s.itemRoom d q || (decide (s.qo d q 0xB = 1) && (s.q d q).high) || decide (s.qo d q 2 = 3)

/-- The reason for which an item for queue `q` from port `p` is rejected at its tag, tested in the order 3, 2, 4; 0 none. -/
def State.tagReason (s : State) (d p q : Nat) (poison : Bool) : Nat :=
  if poison then 3 else if s.qo d q 3 ≠ 0x1000 + p then 2 else if s.qState d q = 0 ∨ s.qState d q = 2 then 4 else 0

/-- LOCUS_TAG_WORD (R209, R210, R217, R218): a TAGGED port between items takes a tag. A rejected item's words are dropped up
to LAST. -/
def execLocusTagWord (die : Fin 2) (p : Fin 128) (w : Word) (s : State) : Result :=
  let d := die.val
  let x := s.lport d p.val
  let q := w.data.toNat % 512
  let reason := s.tagReason d p.val q w.poison
  if s.po d p.val 1 = 1 ∧ x.tag = none ∧ x.drop = none ∧ s.statusRest d p.val = true ∧ (reason ≠ 0 ∨ s.itemWaits d q = false) then
    match s.siteTake (portRegion d p.val) (portSlot p.val) w with
    | none => .next s
    | some t =>
      if reason ≠ 0 then
        .next ((t.setLport d p.val { tag := none, drop := some 2 }).rejectItem d p.val (if reason = 3 then none else some q) reason)
      else .next (t.setLport d p.val { tag := some (q, fieldAt w.data.toNat 16 3, w.data.getLsbD 20), drop := none })
  else .next s

/-- The port drops a word; with LAST the dropped item ends and its status is presented (R210, R211, R222, R224). -/
def State.dropWord (s : State) (d p status : Nat) (w : Word) : State :=
  if w.last then
    let t := s.setLport d p {}
    if status = 0 then t else t.portStatus d p status
  else s

/-- A queue takes the next word of a port's item; with LAST the item is complete (R207, R211, R212, R217, R219). -/
def State.itemWord (s : State) (d p q prio : Nat) (close : Bool) (w : Word) : State :=
  let x := s.q d q
  let ws := match x.part with | some (l, _) => l | none => []
  let since := if x.level = 0 then s.now else x.since
  if ws.length = 16 then
    let t := ((s.setQ d q { x with part := none }).rejectItem d p (some q) 1).watermark d q
    (t.setLport d p { tag := none, drop := some 2 }).dropWord d p 2 w
  else if w.last then
    let t := (s.setQ d q { x with part := none }).pushItem d q (ws ++ [w]) prio close
    let t1 := (t.setQ d q { t.q d q with since := since }).watermark d q
    ((t1.setLport d p {}).portStatus d p 0).locCount d q 1
  else
    let t := s.setQ d q { x with part := some (ws ++ [w], prio, close), since := since }
    ((t.setLport d p { tag := some (q, prio, close), drop := none }).watermark d q).locCount d q 1

/-- The word that completes the item in progress of a queue may be taken: the item may be stored, unless it is one word too long. -/
def State.lastServes (s : State) (d q : Nat) : Bool :=
  let k := match (s.q d q).part with | some (l, _) => l.length | none => 0
  decide (k = 16) || s.pushServes d q (k + 1)

/-- LOCUS_ITEM_WORD (R207, R209 to R212, R217): a word of the item that the tag, or DIRECT mode, names. -/
def execLocusItemWord (die : Fin 2) (p : Fin 128) (w : Word) (s : State) : Result :=
  let d := die.val
  let x := s.lport d p.val
  let mode := s.po d p.val 1
  if mode = 0 ∨ s.statusRest d p.val = false then .next s
  else
    match x.drop with
    | some status =>
      (match s.siteTake (portRegion d p.val) (portSlot p.val) w with
       | none => .next s
       | some t => .next (t.dropWord d p.val status w))
    | none =>
      let named : Option (Nat × Nat × Bool) :=
        if x.tag.isNone && decide (mode = 2) then some (s.po d p.val 2 % 512, s.po d p.val 3, true) else x.tag
      match named with
      | none => .next s
      | some (q, prio, close) =>
        let begun := x.tag.isSome
        let reason := if mode = 2 ∧ begun = false then s.tagReason d p.val q false else 0
        if reason ≠ 0 then
          match s.siteTake (portRegion d p.val) (portSlot p.val) w with
          | none => .next s
          | some t =>
            .next (((t.setLport d p.val { tag := none, drop := some 2 }).rejectItem d p.val (some q) reason).dropWord d p.val 2 w)
        else if s.qState d q = 1 ∧ (s.wordRoom d q 1 = true ∨ ((s.q d q).part.map (fun y => y.1.length)) = some 16)
            ∧ (mode ≠ 2 ∨ begun = true ∨ s.itemWaits d q = false) ∧ (w.last = false ∨ s.lastServes d q = true) then
          match s.siteTake (portRegion d p.val) (portSlot p.val) w with
          | none => .next s
          | some t => .next (t.itemWord d p.val q prio close w)
        else .next s

/-- A consumer takes the next item of a queue whole (R213). -/
def State.readItem (s : State) (d q : Nat) : Option (List Word × State) :=
  if s.qState d q = 1 ∧ s.readsHeld d q = false then
    match (s.q d q).nextItem with
    | none => none
    | some i =>
      if s.spillServes d q i.spill then
        let (ws, t) := s.takeItem d q i
        some (ws, ((t.readDone d q).countRead d q).watermark d q)
      else none
  else none

/-- LOCUS_READ (R213, R214): the read channel presents one item whole, once the item before it has been taken. -/
def execLocusRead (die : Fin 2) (p : Fin 128) (s : State) : Result :=
  let d := die.val
  let n := portRegion d p.val
  let q := s.po d p.val 5
  if s.po d p.val 1 ≠ 0 ∧ q < 512 ∧ s.siteOpen n = true ∧ s.fab.siteClosed n (portSlot p.val) 1 = false ∧ s.fab.siteOut.get (fun _ => []) (n * 16 + portSlot p.val) = [] then
    match s.readItem d q with
    | none => .next s
    | some (ws, t) => .next { t with fab := t.fab.give n (portSlot p.val) ws }
  else .next s

/-- The list with another item in the place of the first one equal to an item. -/
def swapItem (i k : QItem) : List QItem → List QItem
  | [] => []
  | j :: l => if j = i then k :: l else j :: swapItem i k l

/-- SPILL_RETURN (R216): the oldest spilled item returns on-die once QUOTA has room for it. -/
def execSpillReturn (die : Fin 2) (q : Fin 512) (s : State) : Result :=
  let d := die.val
  let x := s.q d q.val
  match x.items.find? (fun i => !i.spill.isEmpty) with
  | none => .next s
  | some i =>
    if x.onDie + i.spill.length ≤ s.qo d q.val 5 ∧ s.spillServes d q.val i.spill = true then
      let ws := s.itemLoad d q.val i
      let t := s.setQ d q.val { x with items := swapItem i { i with words := ws, spill := [] } x.items }
      .next ((t.spillCount d q.val i.spill false).spillPoison d q.val i.words ws)
    else .next s

/-- The oldest complete item moves whole to ALT_QUEUE at its own priority, if it fits there (R208, R220). -/
def State.handOver (s : State) (d q : Nat) : Option State :=
  match (s.q d q).items with
  | [] => none
  | i :: _ =>
    let a := s.qo d q 0x10
    if a < 512 ∧ s.spillServes d q i.spill = true then
      let (ws, t) := s.takeItem d q i
      match t.putItem d a ws i.prio with
      | none => none
      | some t1 =>
        let t2 := t1.readDone d q
        some ((t2.setQ d q { t2.q d q with waiting := false }).watermark d q)
    else none

/-- A queue fires with an action of R220: the interval of event 0x0C05 started at `since`. A NOTIFY needs a consumer port. -/
def State.fireAction (s : State) (d q action : Nat) : State :=
  let x := s.q d q
  if action = 0 then
    let p := numOf (s.qo d q 4)
    let t := s.setQ d q { x with fired := true }
    if kindOf (s.qo d q 4) ≠ 1 ∨ s.po d p 1 = 0 then t else { t with fab := t.fab.giveBit (portRegion d p) (20 + p % 4) 1 }
  else if action = 1 then
    (s.setQ d q { x with fired := true }).raise 0x0C05 3 0 (queueObj d q) [(20, 1, 1), (24, 8, x.since)]
  else
    match s.handOver d q with
    | some t => t
    | none => s.setQ d q { x with waiting := true }

/-- IDLE_TIMEOUT (R219 to R221, R159): the queue fires. With TO_MODE 1 the record is accepted first; with TO_MODE 2 the
queue fires at the logged read count alone. -/
def execIdleTimeout (die : Fin 2) (q : Fin 512) (s : State) : Result :=
  let d := die.val
  let k := 64 + 512 * d + q.val
  let mode := s.qo d q.val 0x11
  let action := s.qo d q.val 0xF
  if mode = 2 then
    match s.decision k 4 q.val with
    | none => .next s
    | some v =>
      let x := s.q d q.val
      if v % 2 ^ 32 = (s.stream k).reads ∧ 0 < x.level ∧ x.waiting = false ∧ s.qState d q.val = 1 ∧
          (fieldAt v 32 3 = 0 → s.notifyRest d q.val = true) then
        .next ((s.decided k).fireAction d q.val (fieldAt v 32 3))
      else .next s
  else if s.timeoutDue d q.val then
    if mode = 1 then
      match s.logPut k 4 q.val (action <<< 32 ||| (s.stream k).reads) with
      | none => .next (s.logWait k 4)
      | some t => .next (t.fireAction d q.val action)
    else .next (s.fireAction d q.val action)
  else .next s

/-- HANDOFF (R220): a waiting handoff moves its item once it is complete and ALT_QUEUE has room. -/
def execHandoff (die : Fin 2) (q : Fin 512) (s : State) : Result :=
  if (s.q die.val q.val).waiting = true ∧ s.qState die.val q.val = 1 then .next ((s.handOver die.val q.val).getD s) else .next s

/-- FLUSH (R222): a write of 1 sets STATE FLUSHING. -/
def execFlush (q : Req) (die : Fin 2) (n : Fin 512) (v : BitVec 8) (s : State) : Result :=
  s.writing q (queueObj die.val n.val) 0x14 1 v.toNat (fun t => t.flushStart die.val n.val 0)

/-- FLUSHED (R222): once the item being presented has been taken whole, the flush completes. While the port's region is held, nothing of it
is taken. -/
def execFlushed (die : Fin 2) (q : Fin 512) (s : State) : Result :=
  let d := die.val
  let v := s.qo d q.val 4
  let n := portRegion d (numOf v)
  let busy := decide (kindOf v = 1) && !(s.fab.siteOut.get (fun _ => []) (n * 16 + portSlot (numOf v))).isEmpty
  if s.qo d q.val 2 = 3 ∧ busy = false then .next (s.flushEnd d q.val) else .next s

end Sys2Proof.Machine
end

