-- ==== Sys2Proof/Machine/Host.lean ====
section
/-! DEFINITION. The Host Port (R294 to R332): the link, mailboxes, the BAR2 aperture, tags, DMA engines, event rings, TDIs and
the resets of host-facing state. Function resets that reset a domain stand in Reset.lean; a mailbox request is carried out in
ObjectWrite.lean. -/

namespace Sys2Proof.Machine

/-- A PF's object access window. -/
def State.box (s : State) (f : Nat) : MbSt := s.host.boxes.get (fun _ => {}) f
/-- Set a PF's object access window. -/
def State.setBox (s : State) (f : Nat) (x : MbSt) : State :=
  { s with host := { s.host with boxes := s.host.boxes.put (fun _ => {}) f x } }
/-- Set TDI_STATE of a function. -/
def State.setTdi (s : State) (code v : Nat) : State := s.wr (tdiAt code).1 (tdiAt code).2 v

/-- A PF's reset runs: its requests are turned away (R322 step 1). -/
def State.resetting (s : State) (f : Nat) : Bool := decide (s.rd (pfObj f) 6 = 1) || decide (s.rd (pfObj f) 6 = 2)
/-- A memory request of a function reaches its BARs: the link is up and no reset of its PF runs. -/
def State.hostUp (s : State) (f : Nat) : Bool := !s.dev.por && decide (2 ≤ s.rd 0x5000 1) && !s.resetting f

/-- A TDI goes to ERROR with event 0x050A (R329). -/
def State.tdiError (s : State) (cause code : Nat) : State :=
  if s.tdi code = 1 ∨ s.tdi code = 2 then (s.setTdi code 3).raise 0x050A 5 2 code [(20, 1, cause)] else s

/-- Function codes of every TDI (R294). -/
def tdis : List Nat := (List.range 8).flatMap (fun n => (List.range 33).map (fun v => 256 * (n + 1) + v))

/-- PERST_N was released 100 ms ago or more, so the port is ready (R296); earlier its readiness is open. -/
def State.hostReady (s : State) : Bool :=
  match s.host.released with
  | none => false
  | some t => decide (t + 100000000 ≤ s.now) || decide (2 ≤ s.rd 0x5000 1) || decide (s.freeVal 1 = 1)

/-- The answer of a configuration request. -/
def State.cfgAnswer (s : State) (v : Nat) : State := { s with host := { s.host with cfgResp := v } }

/-- Data that a configuration read returns. -/
def State.cfgGive (s : State) (v : Nat) : State := { s with host := { s.host with cfgData := v } }

/-- What the host has set in a function's configuration space. -/
def State.fn (s : State) (code : Nat) : FnSt := s.host.fns.get (fun _ => {}) code
/-- Set a function's configuration. -/
def State.setFn (s : State) (code : Nat) (x : FnSt) : State :=
  { s with host := { s.host with fns := s.host.fns.put (fun _ => {}) code x } }

/-- A bit of a function's error status is set (R294): 14 completion timeout, 20 Unsupported Request,
as PCI Express numbers them. -/
def State.fnError (s : State) (code b : Nat) : State :=
  let x := s.fn code
  s.setFn code { x with errors := if x.errors.testBit b then x.errors else x.errors + 2 ^ b }

/-- A memory read that no function serves: Unsupported Request; a write is dropped (R304, R322, R329). -/
def State.turnedAway (s : State) (code : Nat) (write : Bool) : State :=
  let t := s.fnError code 20
  if write then t else { t with host := { t.host with barReads := none :: t.host.barReads } }

/-- Device ID of a function (R297). -/
def deviceId (f : Func) : Nat := if f.v.val ≠ 0 then 0x4098 else if f.f.val = 0 then 0x4096 else 0x4097
/-- Class code of a function (R297): a VF's is that of its PF. -/
def classCode (f : Func) : Nat := if f.f.val = 0 then 0x088000 else 0x120000
/-- MSI-X vectors of a function (R294). -/
def vectorsOf (f : Func) : Nat := if f.v.val = 0 then 2048 else 64

/-- What a configuration read returns (R294, R297, R303, R331); none where the spec names no value. -/
def State.cfgRead (s : State) (f : Func) : CfgReg → Option Nat
  | .vendorId => some 0x1F4A
  | .deviceId => some (deviceId f)
  | .classCode => some (classCode f)
  | .maxPayload => some (128 * 2 ^ (s.fn (funcCode f)).maxPayload)
  | .maxReadRequest => some (128 * 2 ^ (s.fn (funcCode f)).maxReadRequest)
  | .msixSize => some (vectorsOf f)
  | .errors => some (s.fn (funcCode f)).errors
  | .bar2 => some (if f.v.val = 0 then 2 ^ (21 + s.host.barSize.get (fun _ => 0) f.f.val) else 0)
  | .numVfs => some (if f.v.val = 0 then s.rd (pfObj f.f.val) 2 else 0)
  | .cplTimeout => some (s.rd 0x5000 7)
  | .other => none

/-- VFs of a PF that are enabled (R331). -/
def State.setVfs (s : State) (f n : Nat) : State :=
  (s.wr (pfObj f) 2 n).each (fun t v => t.wr (vfObj f (v + 1)) 1 (decide (v < n)).toNat) (List.range 32)

/-- Windows of a PF's BAR2, in order: those with HOST set that its domain owns (R303). -/
def State.barWindows (s : State) (f : Nat) : List Nat :=
  (List.range 64).filter (fun w => decide (s.rd (winObj w) 5 = 1) && decide (s.rd (winObj w) 1 = funcDomain (256 * f)))

/-- The windows that fit whole, each with its offset (R303). -/
def State.barMap (s : State) (size : Nat) : Nat → List Nat → List (Nat × Nat)
  | _, [] => []
  | off, w :: l => if off + s.rd (winObj w) 3 ≤ size then (w, off) :: s.barMap size (off + s.rd (winObj w) 3) l else []

/-- The mapping of a PF's BAR2. -/
def State.aperture (s : State) (f : Nat) : List (Nat × Nat) :=
  s.barMap (2 ^ (21 + s.host.barSize.get (fun _ => 0) f)) 0 (s.barWindows f)

/-- BAR2_MAPPED of every PF follows the mapping (R303, R331). -/
def State.mapAll (s : State) : State :=
  s.each (fun t f => t.wr (pfObj f) 4 (((t.aperture f).map (fun p => t.rd (winObj p.1) 3)).foldl (· + ·) 0)) (List.range 9)

/-- CONFIGURATION_REQUEST (R294, R296, R297, R299, R303, R322, R331): answered with Request Retry Status until the port is ready, and while a
reset of the function's PF runs. -/
def execConfigurationRequest (f : Func) (a : CfgAccess) (s : State) : Result :=
  if s.dev.por then .next s
  else if s.resetting f.f.val then .next (s.cfgAnswer 1)
  else if s.hostReady = false then .next (s.freeNext.cfgAnswer 1)
  else
    let t := s.freeNext.cfgAnswer 0
    match a with
    | .read r =>
      .next (match s.cfgRead f r with
        | some v => t.cfgGive v
        | none => t.freeNext.cfgGive (t.freeVal 32))
    | .write => .next t
    | .maxPayload n => .next (t.setFn (funcCode f) { t.fn (funcCode f) with maxPayload := n.val })
    | .maxReadRequest n => .next (t.setFn (funcCode f) { t.fn (funcCode f) with maxReadRequest := n.val })
    | .msixEntry k v =>
      if k.val < vectorsOf f then .next { t with out := t.out.msixWrite (funcCode f) k.val v.toNat } else .next t
    | .clearErrors v =>
      .next (t.setFn (funcCode f) { t.fn (funcCode f) with errors := ((t.fn (funcCode f)).errors ||| v.toNat) - v.toNat })
    | .bar2 n =>
      if f.v.val = 0 then
        .next ({ t with host := { t.host with barSize := t.host.barSize.put (fun _ => 0) f.f.val n.val } } : State).mapAll
      else .next t
    | .numVfs n => if f.v.val = 0 ∧ f.f.val ≠ 0 then .next (t.setVfs f.f.val n.val) else .next t
    | .cplTimeout us => if f = ⟨0, 0⟩ then .next (t.wr 0x5000 7 us.toNat) else .next t

/-- Bytes written over the front of a buffer (R301). -/
def overlay (l buf : List Byte) : List Byte := l ++ buf.drop l.length

/-- A mailbox request starts (R302): a write with GO 1 while BUSY is 0. -/
def State.mailboxGo (s : State) (f vector : Nat) (r : Bool × Nat × Nat × List Byte) : State :=
  let x := s.box f
  if s.hostUp f && !x.busy then
    s.setBox f { x with busy := true, done := false, overlap := false, vector := vector, buf := overlay r.2.2.2 x.buf, req := some r }
  else if s.hostUp f then s.setBox f { x with overlap := true }
  else s

/-- MAILBOX_READ (R302). -/
def execMailboxRead (f : Fin 9) (idx : BitVec 16) (sub : BitVec 8) (vector : BitVec 16) (s : State) : Result :=
  .next (s.mailboxGo f.val vector.toNat (false, idx.toNat, sub.toNat, []))

/-- MAILBOX_WRITE (R302): at most 4,096 request bytes (R301). -/
def execMailboxWrite (f : Fin 9) (idx : BitVec 16) (sub : BitVec 8) (data : List Byte) (vector : BitVec 16) (s : State) : Result :=
  if data.length ≤ 4096 then .next (s.mailboxGo f.val vector.toNat (true, idx.toNat, sub.toNat, data))
  else .refused (.illFormed "MAILBOX_WRITE")

/-- MAILBOX_OVERLAP (R302): a write with GO 1 while BUSY is ignored and sets OVERLAP. -/
def execMailboxOverlap (f : Fin 9) (s : State) : Result :=
  if s.hostUp f.val && (s.box f.val).busy then .next (s.setBox f.val { s.box f.val with overlap := true }) else .next s

/-- Octets laid over words from a byte offset (R304): a word that keeps some of its bytes is read and written. -/
def State.patchBytes (s : State) : Nat → List Byte → State
  | _, [] => s
  | p, b :: l =>
    let base := p / 16 * 16
    let w := s.memRead base
    let v := w.data.toNat
    let sh := 8 * (p % 16)
    let v' := v - fieldAt v sh 8 * 2 ^ sh + b.toNat * 2 ^ sh
    (s.memWrite base { w with data := BitVec.ofNat 128 v' }).patchBytes (p + 1) l

/-- Words that an aperture write covers whole lose their POISON. -/
def State.cleanWords (s : State) (p len : Nat) : State :=
  ((List.range (len / 16 + 1)).map (fun i => (p + 15) / 16 * 16 + 16 * i)).foldl
    (fun t a => if a + 16 ≤ p + len then t.memWrite a { t.memRead a with poison := false } else t) s

/-- The words that a read of `len` bytes touches. -/
def State.readBytesWords (s : State) (p len : Nat) : List Word :=
  s.loadWords (p / 16 * 16) ((p % 16 + len + 15) / 16)

/-- Words of 16 bytes that the Host Port moves for an account (R340). -/
def State.hostCount (s : State) (acct k : Nat) : State :=
  { s with host := { s.host with meter := s.host.meter.put (fun _ => 0) acct (s.host.meter.get (fun _ => 0) acct + k) } }

/-- Physical addresses of the words that `len` bytes touch. -/
def wordSpots (p len : Nat) : List Nat := (List.range ((p % 16 + len + 15) / 16)).map (fun i => p / 16 * 16 + 16 * i)

/-- Columns of an aperture access, for the window's owner (R262): a write reads the words that keep some of their bytes (R304). -/
def State.apertureColumns (s : State) (acct p len : Nat) (write : Bool) : State :=
  if write then
    (s.pcWords acct 32 false ((wordSpots p len).filter (fun a => decide (a < p) || decide (p + len < a + 16)))).pcWords acct 32 true (wordSpots p len)
  else s.pcWords acct 32 false (wordSpots p len)

/-- Octets that an access through BAR2 touches. -/
def BarReq.size (b : BarReq) : Nat := match b.write with | some l => l.length | none => b.len

/-- An access through BAR2 is served (R254, R262, R304, R340). -/
def State.barServe (s : State) (b : BarReq) : State :=
  let t := ((s.wakeFor b.addr b.size).apertureColumns b.acct b.addr b.size b.write.isSome).hostCount b.acct (wordSpots b.addr b.size).length
  match b.write with
  | some l => (t.patchBytes b.addr l).cleanWords b.addr l.length
  | none => { t with host := { t.host with barReads := some (t.readBytesWords b.addr b.len) :: t.host.barReads } }

/-- The accesses of a list are served in order until one has to wait; a stack in self-refresh that it touches leaves it (R239, R258, R261). -/
def State.barGo (s : State) : List BarReq → State
  | [] => { s with host := { s.host with barWait := [] } }
  | b :: l =>
    if (wordSpots b.addr b.size).all s.memServes then (s.barServe b).barGo l
    else
      let t := if s.inZeroing b.addr then s else s.wakeFor b.addr b.size
      { t with host := { t.host with barWait := b :: l } }

/-- APERTURE_ACCESS (R303, R304, R322, R329): a BAR2 access reaches the window that its offset maps to through port 32. A function
whose reset runs answers with Unsupported Request. A TDI in RUN answers a request outside its stream with Unsupported Request and goes to ERROR. An access whose window is being zeroed, or whose
memory does not serve it yet, waits, those after it behind it; the port holds 32 (R239). -/
def execApertureAccess (f : Fin 9) (offset : Nat) (write : Option (List Byte)) (len : Nat) (inStream : Bool) (s : State) : Result :=
  let code := 256 * f.val
  let n := match write with | some l => l.length | none => len
  if s.dev.por ∨ s.rd 0x5000 1 < 2 then .next s
  else if s.resetting f.val then .next (s.turnedAway code write.isSome)
  else if s.tdi code = 2 ∧ inStream = false then .next ((s.tdiError 1 code).turnedAway code write.isSome)
  else
    match (s.aperture f.val).find? (fun p => decide (p.2 ≤ offset) && decide (offset + n ≤ p.2 + s.rd (winObj p.1) 3)) with
    | none => .next ((s.raise 0x0504 5 1 code [(24, 8, offset)]).turnedAway code write.isSome)
    | some (w, off) =>
      let p := s.rd (winObj w) 2 + (offset - off)
      if 32 ≤ s.host.barWait.length then .next s
      else .next (s.barGo (s.host.barWait ++ [{ f := f.val, acct := accountOf (s.rd (winObj w) 1), addr := p, write := write, len := len }]))

/-- Function numbers' reserved tags in all. -/
def State.tagReserves (s : State) : Nat := ((List.range 9).map (fun f => s.rd (pfObj f) 3)).foldl (· + ·) 0

/-- Outstanding tags of a PF, its VFs' engines included. -/
def State.tagsOf (s : State) (f : Nat) : Nat :=
  (s.host.tags.keysWhere (fun _ t => match t with
    | some t => decide (s.rd (engObj t.engine) 2 / 256 = f)
    | none => false)).length

/-- Tags that PFs hold above their reserves: those taken from the pool (R305). -/
def State.tagsPooled (s : State) : Nat :=
  ((List.range 9).map (fun f => s.tagsOf f - s.rd (pfObj f) 3)).foldl (· + ·) 0

/-- TAGS_IN_USE follows the tags. -/
def State.setTags (s : State) (m : SMap (Option TagSt)) : State :=
  ({ s with host := { s.host with tags := m } } : State).wr 0x5000 6 m.cells.length

/-- Tags that an engine holds. -/
def State.tagsHeld (s : State) (e : Nat) : Nat :=
  (s.host.tags.keysWhere (fun _ t => match t with | some t => decide (t.engine = e) | none => false)).length

/-- An engine that waits for a tag takes the lowest free one, if R305 allows it: its PF is within its reserve, or the pool has
room; an engine holds at most 512. -/
def State.tagTake (s : State) (e : Nat) : State :=
  let f := s.rd (engObj e) 2 / 256
  if s.tagsHeld e < 512 ∧ (s.tagsOf f < s.rd (pfObj f) 3 ∨ s.tagsPooled < 4096 - s.tagReserves) then
    match (List.range 4096).find? (fun k => (s.host.tags.get (fun _ => none) k).isNone) with
    | some k =>
      let t := s.setTags (s.host.tags.put (fun _ => none) k (some { engine := e, issued := s.now, abandoned := false }))
      let u := t.setEng e { t.eng e with asked := true }
      { u with host := { u.host with tagWait := u.host.tagWait.erase e } }
    | none => s
  else s

/-- Waiting engines take tags, in the order of their requests (R305). -/
def State.tagGrant (s : State) : State := s.each State.tagTake s.host.tagWait

/-- An engine no longer waits for a tag. -/
def State.tagDrop (s : State) (e : Nat) : State := { s with host := { s.host with tagWait := s.host.tagWait.erase e } }

/-- An engine with a pending descriptor that it has not asked for asks for it: its request waits for a tag (R305,
notes/assumptions/21.md). -/
def State.engFetch (s : State) (e : Nat) : State :=
  let x := s.eng e
  if x.state = 1 ∧ x.head ≠ x.tail ∧ x.asked = false ∧ s.host.tagWait.contains e = false then
    ({ s with host := { s.host with tagWait := s.host.tagWait ++ [e] } } : State).tagGrant
  else s

/-- The requests of an engine are answered: its tags are free. -/
def State.engTagsDone (s : State) (e : Nat) : State :=
  s.setTags ⟨s.host.tags.cells.filter (fun c => match c.2 with | some t => decide (t.engine ≠ e) || t.abandoned | none => false)⟩

/-- The requests of an engine are abandoned (R306). -/
def State.engTagsAbandon (s : State) (e : Nat) : State :=
  s.setTags ⟨s.host.tags.cells.map (fun c =>
    (c.1, c.2.map (fun t => if t.engine = e then { t with abandoned := true } else t)))⟩

/-- COMPLETION_ARRIVAL (R306): the tag is freed; the completion of an abandoned request is discarded. -/
def execCompletionArrival (tag : Fin 4096) (s : State) : Result :=
  if s.hostUp 0 ∨ 2 ≤ s.rd 0x5000 1 then
    match s.host.tags.get (fun _ => none) tag.val with
    | some _ => .next (s.setTags (s.host.tags.put (fun _ => none) tag.val none)).tagGrant
    | none => .next s
  else .next s

/-- STATUS of a descriptor (R311). -/
def dmaStatus (err : Nat) (last : Option Word) (poison : Bool) (bytes : Nat) : Nat :=
  let b (f : Word → Bool) : Nat := match last with | some w => (f w).toNat | none => 0
  1 <<< 31 ||| err <<< 27 ||| b (fun w => w.last) <<< 26 ||| poison.toNat <<< 25 ||| b (fun w => w.u1) <<< 24
    ||| b (fun w => w.u0) <<< 23 ||| bytes % 2 ^ 23

/-- Octets of a list of words. -/
def wordOctets : List Word → List Byte
  | [] => []
  | w :: l => octets 16 w.data.toNat ++ wordOctets l

/-- Octets written to host memory: none of them carries an earlier EP mark. -/
def State.hostWrite (s : State) (a : Nat) (l : List Byte) : State :=
  { s with out := { s.out with hostMem := hostPut s.out.hostMem a l,
                               hostEp := s.out.hostEp.filter (fun b => decide (b + 16 ≤ a) || decide (a + l.length ≤ b)) } }

/-- Words written to host memory through a window target (R310): one with POISON goes in a TLP with EP set. -/
def State.hostWords (s : State) (a : Nat) (ws : List Word) : State :=
  let l := (ws.zip (List.range ws.length)).filter (fun p => p.1.poison)
  let t := s.hostWrite a (wordOctets ws)
  { t with out := { t.out with hostEp := l.map (fun p => a + 16 * p.2) ++ t.out.hostEp } }

/-- STATUS of an engine's descriptor that ends with an error (R311): what has moved of it counts. -/
def EngSt.status (x : EngSt) (err : Nat) : Nat := dmaStatus err x.lastOut x.poison (16 * x.moved)

/-- STATUS of the descriptor at HEAD is written back (R311). -/
def State.writeStatus (s : State) (e v : Nat) : State :=
  let x := s.eng e
  s.hostWrite (x.base + 32 * x.head + 28) (octets 4 v)

/-- Slots of an engine's ring. -/
def EngSt.size (x : EngSt) : Nat := 2 ^ x.log2

/-- A descriptor ends with an error (R312): the engine halts on it, with event 0x0503. -/
def State.engHalt (s : State) (e err : Nat) : State :=
  let x := s.eng e
  (((s.tagDrop e).setEng e { x with state := 2, err := err, moved := 0, poison := false, lastOut := none, asked := false }).bump (engObj e) 0xA 4 1).raise
    0x0503 3 2 (engObj e) [(20, 1, err), (24, 4, x.head)]

/-- Whether a descriptor that only host memory holds has WB set is open (notes/assumptions/22.md); when it has, STATUS is
written back. -/
def State.statusIfWb (s : State) (e v : Nat) : State :=
  if s.freeVal 1 = 1 then s.freeNext.writeStatus e v else s.freeNext

/-- COMPLETION_TIMEOUT (R306, R312): the request is retired, its tag freed, and its engine halts with ERR 4. -/
def execCompletionTimeout (tag : Fin 4096) (s : State) : Result :=
  match s.host.tags.get (fun _ => none) tag.val with
  | none => .next s
  | some t =>
    if t.issued + 1000 * s.rd 0x5000 7 ≤ s.now then
      let s1 := s.setTags (s.host.tags.put (fun _ => none) tag.val none)
      if t.abandoned then .next s1.tagGrant
      else
        let x := s1.eng t.engine
        let s2 := (s1.raise 0x0507 3 2 (engObj t.engine) [(22, 2, tag.val), (24, 4, x.head)]).fnError (s1.engUser t.engine) 14
        .next ((s2.statusIfWb t.engine (dmaStatus 4 x.lastOut true (16 * x.moved))).engHalt t.engine 4).tagGrant
    else .next s

/-- A page of an engine is seen by a function (R299). -/
def State.seesEng (s : State) (f : Func) (e : Nat) : Bool := s.hostUp f.f.val && decide (s.engUser e = funcCode f)

/-- DMA_TAIL (R308). -/
def execDmaTail (f : Func) (e : Fin 64) (v : BitVec 32) (s : State) : Result :=
  if s.seesEng f e.val then
    let x := s.eng e.val
    .next ((s.setEng e.val { x with tail := v.toNat % x.size }).engFetch e.val)
  else .next s

/-- DMA_RUN (R308): RING_BASE and RING_CFG are taken while STATE is IDLE; RUN from 0 to 1 zeroes HEAD and TAIL. -/
def execDmaRun (f : Func) (e : Fin 64) (base : BitVec 64) (log2 : Nat) (s : State) : Result :=
  if s.seesEng f e.val then
    let x := s.eng e.val
    let y := if x.state = 0 then { x with base := base.toNat / 4096 * 4096, log2 := log2 % 32 } else x
    if y.run then .next (s.setEng e.val y)
    else .next (s.setEng e.val { y with run := true, head := 0, tail := 0, state := if y.state = 0 then 1 else y.state,
                                        err := 0, moved := 0, poison := false, lastOut := none })
  else .next s

/-- DMA_STOP (R308): the descriptor in progress completes, then the engine is IDLE. -/
def execDmaStop (f : Func) (e : Fin 64) (s : State) : Result :=
  if s.seesEng f e.val then
    let x := s.eng e.val
    if x.state = 1 ∧ x.head ≠ x.tail then .next (s.setEng e.val { x with run := false })
    else .next (s.setEng e.val { x with run := false, state := if x.state = 3 then 3 else 0, err := 0 })
  else .next s

/-- DMA_RESTART (R312): a halted engine goes on after the failed descriptor. -/
def execDmaRestart (f : Func) (e : Fin 64) (s : State) : Result :=
  if s.seesEng f e.val ∧ (s.eng e.val).state = 2 then
    let x := s.eng e.val
    .next ((s.setEng e.val { x with state := 1, err := 0, head := (x.head + 1) % x.size }).engFetch e.val)
  else .next s

end Sys2Proof.Machine

namespace Sys2Proof

/-- DIR of a descriptor. -/
def Descriptor.d2h (d : Descriptor) : Bool := d.control.getLsbD 0
/-- TARGET of a descriptor. -/
def Descriptor.target (d : Descriptor) : Nat := Machine.fieldAt d.control.toNat 1 2

/-- A descriptor breaks R309: reserved bits, LENGTH or a reserved target. -/
def Descriptor.malformed (d : Descriptor) : Bool :=
  let c := d.control.toNat
  let v := d.dev.toNat
  decide (c / 8192 ≠ 0) || c.testBit 7 || decide (d.target = 3) || decide (d.length.toNat = 0) || decide (4194304 < d.length.toNat)
    || (decide (d.target = 0) && (decide (v / 2 ^ 46 ≠ 0) || decide (Machine.fieldAt v 35 5 ≠ 0)))
    || (decide (d.target = 2) && decide (v / 2 ^ 10 ≠ 0))

/-- The host supplies LENGTH bytes for a host-to-device descriptor that it is asked for. -/
def Descriptor.dataOk (d : Descriptor) (data : List Byte) : Bool := d.d2h || d.malformed || decide (data.length = d.length.toNat)

/-- Window of a window target. -/
def Descriptor.window (d : Descriptor) : Nat := Machine.fieldAt d.dev.toNat 40 6
/-- OFFSET of a window target. -/
def Descriptor.offset (d : Descriptor) : Nat := d.dev.toNat % 2 ^ 35
/-- Die of a queue target. -/
def Descriptor.die (d : Descriptor) : Nat := Machine.fieldAt d.dev.toNat 9 1
/-- Queue of a queue target. -/
def Descriptor.queue (d : Descriptor) : Nat := d.dev.toNat % 512

end Sys2Proof

namespace Sys2Proof.Machine

/-- The error of a descriptor's target (R310); 0 where it may run. -/
def State.dmaTarget (s : State) (e : Nat) (d : Descriptor) : Nat :=
  let len := d.length.toNat
  if d.target = 0 then
    let o := winObj d.window
    let user := s.rd (engObj e) 3
    let ok := decide (d.offset % 16 = 0) && decide (len % 16 = 0) && decide (d.offset + len ≤ s.rd o 3)
      && decide (s.rd o 1 = s.engDomain e)
      && (decide (user = 0xFFFF) || (s.rd (vfObj (user / 256) (user % 256)) 3).testBit d.window)
    if ok then 0 else 2
  else if d.target = 1 then
    let h := s.rd (engObj e) (if d.d2h then 5 else 4)
    if h = 0xFF then 5 else if s.regOwner h ≠ s.engDomain e ∨ (d.d2h ∧ len % 16 ≠ 0) then 2 else 0
  else
    let named := if d.d2h then decide (s.qo d.die d.queue 4 = 2 * 4096 + e) else decide (s.qo d.die d.queue 3 = 4 * 4096 + e)
    let fits := if d.d2h then decide (256 ≤ len) && decide (len % 16 = 0) else decide (len ≤ 256)
    if named && fits && decide (s.qState d.die d.queue ≠ 0) then 0 else 2

/-- Host data packed into words (R310): zero fill, POISON on a word whose data arrived poisoned, LAST on the final word when
`eoi` is set. -/
def packWords (bad : List Nat) (eoi u0 u1 : Bool) : Nat → List (List Byte) → List Word
  | _, [] => []
  | i, l :: r => ⟨BitVec.ofNat 128 (ofOctets l), eoi && r.isEmpty, bad.contains i, u0, u1⟩ :: packWords bad eoi u0 u1 (i + 1) r

/-- A descriptor is complete (R311, R309): HEAD moves on, STATUS and event 0x0501 as CONTROL asks. -/
def State.dmaDone (s : State) (e : Nat) (d : Descriptor) (last : Option Word) (poison : Bool) (bytes : Nat) : State :=
  let s1 := if d.control.getLsbD 5 then s.writeStatus e (dmaStatus 0 last poison bytes) else s
  let x := s1.eng e
  let s2 := s1.setEng e { x with head := (x.head + 1) % x.size, moved := 0, poison := false, lastOut := none, asked := false,
                                 state := if x.run then 1 else 0 }
  let s3 := (s2.tally (engObj e) 8 1).tally (engObj e) 9 bytes
  let s4 := if d.control.getLsbD 4 ∧ s.rd (engObj e) 7 ≠ 0xFFFF then
      s3.raiseDone (s.rd (engObj e) 7) (engObj e) [(20, 4, x.head), (24, 4, bytes), (28, 4, d.user.toNat)]
    else s3
  ((s4.engTagsDone e).engFetch e).tagGrant

/-- A descriptor ends with an error (R311, R312). -/
def State.dmaFail (s : State) (e : Nat) (d : Descriptor) (err : Nat) : State :=
  let s1 := if d.control.getLsbD 5 then s.writeStatus e ((s.eng e).status err) else s
  ((s1.engHalt e err).engTagsDone e).tagGrant

/-- Words that an engine moves count for its domain (R340). -/
def State.engCount (s : State) (e k : Nat) : State := s.hostCount (accountOf (s.engDomain e)) k

/-- Words move into the fabric over a host channel while its cell has room (R315). -/
def State.chanPut (s : State) (e h : Nat) (ws : List Word) : State × Bool :=
  let x := s.eng e
  let room := if s.cellOn (.host (Fin.ofNat 32 h)) true then 16 - (s.fab.siteOut.get (fun _ => []) (h * 16 + 5)).length else 0
  let now_ := (ws.drop x.moved).take room
  let s1 := ({ s with fab := s.fab.give h 5 now_ } : State).tally (0x5300 + h) 3 now_.length
  ((s1.setEng e { x with moved := x.moved + now_.length, poison := x.poison || now_.any (fun w => w.poison) }).engCount e now_.length, decide (ws.length ≤ x.moved + now_.length))

/-- Words of a cell up to `k`, none after one with LAST. -/
def upToLast : Nat → List Word → List Word
  | 0, _ => []
  | _, [] => []
  | k + 1, w :: l => if w.last then [w] else w :: upToLast k l

/-- Words leave the fabric over a host channel into host memory (R310); the answer says whether the descriptor is full. -/
def State.chanGet (s : State) (e h addr len : Nat) : State × Option Word × Bool :=
  let x := s.eng e
  let site := Site.host (Fin.ofNat 32 h)
  let c := s.cellAt (siteNum site)
  let ws := if s.cellOn site false then upToLast (len / 16 - x.moved) c.fifo else []
  let s1 := (s.setCell (siteNum site) { c with fifo := c.fifo.drop ws.length }).hostWrite (addr + 16 * x.moved) (wordOctets ws)
  let s2 := (s1.tally (0x5320 + h) 3 ws.length).setEng e
    { x with moved := x.moved + ws.length, poison := x.poison || ws.any (fun w => w.poison), lastOut := ws.getLast?.orElse (fun _ => x.lastOut) }
  let last := ws.getLast?
  (s2.engCount e ws.length, last, decide (len / 16 ≤ x.moved + ws.length) || (match last with | some w => w.last | none => false))

/-- DMA_DESCRIPTOR_COMPLETE (R309 to R312, R315): the descriptor at HEAD moves its words and completes. While a cell, a queue or
a zeroing window makes it wait, the words that moved have moved and the descriptor goes on. An engine whose request for the descriptor
waits for a tag completes nothing (R305). `data` is the host's data of a
host-to-device descriptor and `poisoned` numbers its words that arrived poisoned. -/
def execDmaDescriptorComplete (e : Fin 64) (d : Descriptor) (data : List Byte) (poisoned : List Nat) (hostError : Bool) (s : State) :
    Result :=
  let x := s.eng e.val
  let len := d.length.toNat
  let h := s.rd (engObj e.val) (if d.d2h then 5 else 4)
  let c := d.control
  let words := packWords poisoned (d.target = 2 ∨ c.getLsbD 3 = true) (d.target = 1 ∧ c.getLsbD 8 = true)
    (d.target = 1 ∧ c.getLsbD 9 = true) 0 (cut16 (data.length + 15) data)
  if d.dataOk data = false then .refused (.illFormed "DMA_DESCRIPTOR_COMPLETE")
  else if s.dev.por ∨ x.state ≠ 1 ∨ x.head = x.tail ∨ x.asked = false ∨ s.rd 0x5000 1 < 2 then .next s
  else if d.malformed then .next (s.dmaFail e.val d 1)
  else if s.dmaTarget e.val d ≠ 0 then .next (s.dmaFail e.val d (s.dmaTarget e.val d))
  else if hostError then .next (s.dmaFail e.val d 3)
  else if d.target = 0 then
    let p := s.rd (winObj d.window) 2 + d.offset
    let own := accountOf (s.rd (winObj d.window) 1)
    if s.inZeroing p then .next s
    else if (wordSpots p len).all s.memServes = false then .next (s.wakeFor p len)
    else if d.d2h then
      let ws := s.loadWords p (len / 16)
      let t := ((s.wakeFor p len).pcWords own 33 false (wordSpots p len)).engCount e.val (len / 16)
      .next ((t.hostWords d.hostAddr.toNat ws).dmaDone e.val d ws.getLast? (ws.any (fun w => w.poison)) len)
    else
      let t := (((s.wakeFor p len).storeWords p words).pcWords own 33 true (wordSpots p len)).engCount e.val words.length
      .next (t.dmaDone e.val d none (words.any (fun w => w.poison)) len)
  else if d.target = 1 then
    if d.d2h then
      match s.chanGet e.val h d.hostAddr.toNat len with
      | (t, last, true) => .next (t.dmaDone e.val d last (t.eng e.val).poison (16 * (t.eng e.val).moved))
      | (t, _, false) => .next t
    else
      match s.chanPut e.val h words with
      | (t, true) => .next (t.dmaDone e.val d none (words.any (fun w => w.poison)) len)
      | (t, false) => .next t
  else if d.d2h then
    match s.readItem d.die d.queue with
    | none => .next s
    | some (ws, t) =>
      .next (((t.engCount e.val ws.length).hostWrite d.hostAddr.toNat (wordOctets ws)).dmaDone e.val d ws.getLast? (ws.any (fun w => w.poison)) (16 * ws.length))
  else
    match s.putItem d.die d.queue words (fieldAt c.toNat 10 3) with
    | none => .next s
    | some t => .next ((t.engCount e.val words.length).dmaDone e.val d none (words.any (fun w => w.poison)) len)

/-- A page of a ring is seen by a function (R299, R319). -/
def State.seesRing (s : State) (f : Func) (r : Nat) : Bool :=
  s.hostUp f.f.val && decide (s.ringFunc r = funcCode f)

/-- RING_ENABLE (R319, R320): the page's registers take values; RING_BASE and LOG2 only while EN is 0; setting EN zeroes HEAD,
TAIL and LOST. -/
def execRingEnable (f : Func) (r : Fin 256) (base : BitVec 64) (cfg moderation filter : BitVec 32) (s : State) : Result :=
  if s.seesRing f r.val then
    let x := s.out.ring r.val
    let c := cfg.toNat
    let vec := fieldAt c 16 11 <<< 16
    let en := decide (c / 2 ^ 31 = 1)
    let y := { x with base := if x.en then x.base else base.toNat / 4096 * 4096,
                      cfg := en.toNat <<< 31 ||| vec ||| (if x.en then x.cfg % 32 else c % 32),
                      moderation := moderation.toNat, filter := filter.toNat &&& 0x33FFE }
    let z := if en && !x.en then
        { y with head := 0, tail := 0, lost := 0, written := 0, used := 0, dropping := false, unsignalled := 0 }
      else y
    .next { s with out := s.out.setRing r.val z }
  else .next s

/-- RING_HEAD (R319, R320): records up to HEAD are released. -/
def execRingHead (f : Func) (r : Fin 256) (v : BitVec 32) (s : State) : Result :=
  if s.seesRing f r.val then
    let x := s.out.ring r.val
    let k := (v.toNat + x.size - x.head) % x.size
    let k := if k = 0 ∧ x.used = x.size then x.size else min k x.used
    .next { s with out := s.out.setRing r.val { x with head := (x.head + k) % x.size, used := x.used - k } }
  else .next s

/-- MODERATION_WINDOW_CLOSE (R321). -/
def execModerationWindowClose (r : Fin 256) (s : State) : Result :=
  if (s.out.ring r.val).en && (s.out.ring r.val).windowOver s.now then
    .next { s with out := s.out.signal r.val (s.ringFunc r.val) }
  else .next s

/-- ENGINE of the channel record that an engine's binding names, one of 32; 0xFF names none. -/
def State.setChan (s : State) (e sub v : Nat) : State :=
  let base := if sub = 4 then 0x5300 else 0x5320
  let old := s.rd (engObj e) sub
  let s1 := if old < 32 then s.wr (base + old) 2 0xFF else s
  (if v < 32 then s1.wr (base + v) 2 e else s1).wr (engObj e) sub v

/-- An engine whose channel no longer belongs to its domain is unbound from it (R307, notes/assumptions/194.md). -/
def State.chansFollow (s : State) : State :=
  s.each (fun t e =>
    t.each (fun u sub =>
      let h := u.rd (engObj e) sub
      if h ≠ 0xFF ∧ u.regOwner h ≠ u.engDomain e then u.setChan e sub 0xFF else u) [4, 5]) (List.range 64)

/-- A released engine's record (R331): claimed by nobody, unbound, its page at reset. -/
def State.engRelease (s : State) (e : Nat) : State :=
  (((((s.tagDrop e).engTagsAbandon e).setChan e 4 0xFF).setChan e 5 0xFF).setEng e {}).wrs (engObj e)
    [(1, 0), (2, 0xFFFF), (3, 0xFFFF), (6, 1), (7, 0xFFFF)]

/-- A free engine is claimed by a PF (R307, R331): its counts since claim start at 0. -/
def State.engClaim (s : State) (e f : Nat) : State :=
  s.wrs (engObj e) [(1, 1), (2, 256 * f), (3, 0xFFFF), (8, 0), (9, 0), (0xA, 0)]

/-- A released ring. -/
def State.ringRelease (s : State) (r : Nat) : State :=
  ({ s with out := s.out.setRing r {} } : State).wrs (ringObj r) [(1, 0), (2, 0xFFFF), (3, 0xFFFF)]

/-- A free ring is claimed by a PF (R319, R331). -/
def State.ringClaim (s : State) (r f : Nat) : State :=
  ({ s with out := s.out.setRing r {} } : State).wrs (ringObj r) [(1, 1), (2, 256 * f), (3, 0xFFFF)]

/-- An engine stops at once (R323, R324): its requests are abandoned and its page is at reset; with `status`, a descriptor in
progress ends with ERR 6 when its WB is set. -/
def State.engCut (s : State) (e : Nat) (status : Bool) : State :=
  let x := s.eng e
  let s1 := if status ∧ x.state = 1 ∧ x.head ≠ x.tail then s.statusIfWb e (x.status 6) else s
  ((s1.tagDrop e).engTagsAbandon e).setEng e {}

/-- An event ring's page is at reset. -/
def State.ringCut (s : State) (r : Nat) : State :=
  let x := s.out.ring r
  { s with out := s.out.setRing r { records := x.records, lostClaim := x.lostClaim } }

/-- Engines that satisfy a condition on the function that uses them. -/
def State.enginesOf (s : State) (p : Nat → Bool) : List Nat := (List.range 64).filter (fun e => p (s.engUser e))
/-- Rings that satisfy a condition on the function that uses them. -/
def State.ringsOf (s : State) (p : Nat → Bool) : List Nat := (List.range 256).filter (fun r => p (s.ringFunc r))

/-- A VF's engines and rings return to its PF, IDLE (R323). -/
def State.vfCut (s : State) (status : Bool) (code : Nat) : State :=
  let s1 := s.each (fun t e => (t.engCut e status).wr (engObj e) 3 0xFFFF) (s.enginesOf (fun c => decide (c = code)))
  let s2 := s1.each (fun t r => (t.ringCut r).wr (ringObj r) 3 0xFFFF) (s1.ringsOf (fun c => decide (c = code)))
  ({ s2 with host := { s2.host with tdiStream := s2.host.tdiStream.put (fun _ => 0) code 0 },
             out := s2.out.msixReset code } : State).setTdi code 0

/-- FUNCTION_LEVEL_RESET_VF (R323): the domain is not reset; event 0x0505 with kind 1 at once. -/
def execFunctionLevelResetVf (f : Fin 8) (v : Fin 32) (s : State) : Result :=
  let code := 256 * (f.val + 1) + v.val + 1
  if s.hostUp (f.val + 1) ∧ s.rd (vfObj (f.val + 1) (v.val + 1)) 1 = 1 then
    .next ((s.vfCut true code).raise 0x0505 5 0 code [(20, 1, 1), (24, 4, 0)])
  else .next s

/-- The mailbox, MSI-X table, engines and rings of a PF are at reset, their claims kept (R324, R35). -/
def State.pfCut (s : State) (f : Nat) : State :=
  let s1 := s.each (fun t e => t.engCut e false) (s.enginesOf (fun c => decide (c = 256 * f)))
  let s2 := s1.each (fun t r => t.ringCut r) (s1.ringsOf (fun c => decide (c = 256 * f)))
  { s2.setBox f {} with out := s2.out.msixReset (256 * f), host := { (s2.setBox f {}).host with barWait := s2.host.barWait.filter (fun b => decide (b.f ≠ f)) } }

/-- FUNCTION_LEVEL_RESET_PF0 (R324). -/
def execFunctionLevelResetPf0 (s : State) : Result :=
  if s.hostUp 0 then .next ((s.pfCut 0).raise 0x0505 5 0 0 [(20, 1, 2), (24, 4, 0)]) else .next s

/-- VFs that the host has enabled, by function code. -/
def State.vfsOn (s : State) : List Nat :=
  tdis.filter (fun c => decide (c % 256 ≠ 0) && decide (s.rd (vfObj (c / 256) (c % 256)) 1 = 1))

/-- The host-facing state of every function is reset (R325): engines, rings, mailboxes, TDIs and IDE streams, and every host
channel cell. -/
def State.hostReset (s : State) : State :=
  let s1 := s.each (fun t c => t.vfCut false c) s.vfsOn
  let s2 := s1.each State.pfCut (List.range 9)
  let s3 := s2.each (fun t n => t.setTdi (256 * (n + 1)) 0) (List.range 8)
  ({ s3 with host := { s3.host with ide := ⟨[]⟩, sessions := ⟨[]⟩, tdiStream := ⟨[]⟩, barReads := [], barWait := [] } } : State).resetCells
    ((List.finRange 32).map Site.host)

/-- The link goes down for a cause: the reset of R325 and event 0x0502. -/
def State.linkDown (s : State) (cause : Nat) : State :=
  ((s.hostReset.wrs 0x5000 [(1, 0), (2, 0), (3, 0), (4, 0)]).raise 0x0502 0 1 0 [(20, 1, 0), (21, 1, cause)])

/-- PERST_N (R325). -/
def execPerstN (s : State) : Result :=
  if s.dev.por ∨ s.dev.perstLow = true then .next s
  else
    let t := { s with dev := { s.dev with perstLow := true }, host := { s.host with released := none } }
    .next (if s.rd 0x5000 1 = 0 then t.hostReset else t.linkDown 0)

/-- HOT_RESET (R325). -/
def execHotReset (s : State) : Result :=
  if s.dev.por ∨ s.rd 0x5000 1 < 2 then .next s else .next (s.linkDown 1)

/-- LINK_LOSS (R325). -/
def execLinkLoss (s : State) : Result :=
  if s.dev.por ∨ s.rd 0x5000 1 = 0 then .next s else .next (s.linkDown 2)

/-- A width and a rate that the link can train to (R294). -/
def linkOk (width : BitVec 8) (rate : Fin 8) : Bool := width.toNat ∈ ([1, 4, 8, 16] : List Nat) && decide (rate.val ≠ 0)

/-- LINK_TRAINING_DONE (R294, R296, R332): L0 with its width and rate; Flit mode holds at 64 and 128 GT/s.
A training attempt ends a self-test of the PHY (R537); a PHY that a test could not hand back does not train (R538). -/
def execLinkTrainingDone (width : BitVec 8) (rate : Fin 8) (flit : Bool) (s : State) : Result :=
  let w := width.toNat
  if linkOk width rate = false then .refused (.illFormed "LINK_TRAINING_DONE")
  else if s.dev.por ∨ s.dev.perstLow = true ∨ 2 ≤ s.rd 0x5000 1 ∨ s.tst.stuck.contains (unitKey 4 0) = true then .next s
  else
    let s := s.unitRequest (unitKey 4 0)
    .next ((s.wrs 0x5000 [(1, 2), (2, w), (3, rate.val), (4, (flit || decide (6 ≤ rate.val)).toNat)]).raise 0x0502 0 0 0
      [(20, 1, 2), (21, 1, 3), (22, 1, w), (23, 1, rate.val)])

/-- The host loop of die 0 (R203). -/
def hostLoop : Loop := ⟨0, 0⟩

/-- LINK_POWER_STATE_CHANGE (R294, R330): the host loop stops in L1.2 and L2 and starts again at exit. -/
def execLinkPowerStateChange (st : Fin 8) (s : State) : Result :=
  let old := s.rd 0x5000 1
  if s.dev.por ∨ old < 2 ∨ st.val < 2 then .next s
  else
    let t := { (s.wr 0x5000 1 st.val) with out := { s.out with clkreq := false, wakeN := false } }
    if 6 ≤ st.val then .next ((t.wr (loopObj hostLoop) 2 0).wr (loopObj hostLoop) 3 0xFF)
    else if 6 ≤ old then .next (t.loopStart hostLoop)
    else .next t

/-- SPDM_MESSAGE (R327): Sebex answers on the DOE mailbox of a PF; a key exchange starts a secured session, which Sebex's
device keys sign. -/
def execSpdmMessage (f : Fin 9) (startsSession : Bool) (s : State) : Result :=
  if s.hostUp f.val && startsSession && decide (s.rd 0x8000 3 = 1) then
    .next { s with host := { s.host with sessions := s.host.sessions.put (fun _ => false) f.val true } }
  else .next s

/-- IDE_KM (R328): keys are installed in a secured session, and the stream is secure. -/
def execIdeKm (f : Fin 9) (stream : Fin 9) (s : State) : Result :=
  if s.hostUp f.val && s.host.sessions.get (fun _ => false) f.val then
    .next { s with host := { s.host with ide := s.host.ide.put (fun _ => none) stream.val (some (f.val, true)) } }
  else .next s

/-- A stream becomes insecure (R328): the TDIs bound to it go to ERROR, event 0x0508. -/
def State.ideDrop (s : State) (stream cause : Nat) : State :=
  match s.host.ide.get (fun _ => none) stream with
  | some (f, true) =>
    let s1 := { s with host := { s.host with ide := s.host.ide.put (fun _ => none) stream (some (f, false)) } }
    let s2 := s1.each (fun t c => t.tdiError 2 c) (tdis.filter (fun c => decide (s.host.tdiStream.get (fun _ => 0) c = stream)))
    s2.raise 0x0508 5 2 (256 * f) [(20, 1, stream), (21, 1, cause)]
  | _ => s

/-- IDE_FAILURE (R328). -/
def execIdeFailure (stream : Fin 9) (s : State) : Result := .next (s.ideDrop stream.val 0)

/-- TDISP_MESSAGE (R329): in a secured session of its PF, a TDI is locked to a selective stream, started or stopped. -/
def execTdispMessage (f : Func) (op : TdispOp) (stream : Fin 9) (s : State) : Result :=
  let code := funcCode f
  let bind (v : Nat) (t : State) : State := { t with host := { t.host with tdiStream := t.host.tdiStream.put (fun _ => 0) code v } }
  if s.hostUp f.f.val && s.host.sessions.get (fun _ => false) f.f.val && decide (f.f.val ≠ 0)
      && (decide (f.v.val = 0) || decide (s.rd (vfObj f.f.val f.v.val) 1 = 1)) then
    match op with
    | .lock => if s.tdi code = 0 ∧ stream.val ≠ 0 then .next (bind stream.val (s.setTdi code 1)) else .next s
    | .start => if s.tdi code = 1 then .next (s.setTdi code 2) else .next s
    | .stop => .next (bind 0 (s.setTdi code 0))
  else .next s

/-- A domain reset takes a host channel (R326): its cells are reset, and the engine bound to it ends its descriptor with ERR 6
and halts. -/
def State.chanReset (s : State) (h : Nat) : State :=
  let s1 := s.resetCell (.host (Fin.ofNat 32 h))
  s1.each (fun t e =>
    if (t.rd (engObj e) 4 = h ∨ t.rd (engObj e) 5 = h) ∧ (t.eng e).state = 1 then
      (((if (t.eng e).head ≠ (t.eng e).tail then t.statusIfWb e ((t.eng e).status 6) else t).engTagsAbandon e).engHalt e 6)
    else t) (List.range 64)

/-- The windows of a domain change at a commit (R326): its locked TDIs go to ERROR. -/
def State.windowsChanged (s : State) (owner : Nat) : State :=
  s.mapAll.each (fun t c => if funcDomain c = owner then t.tdiError 0 c else t) tdis

end Sys2Proof.Machine
end

