-- ==== Sys2Proof/Machine/Ledger.lean ====
section
/-! DEFINITION. The Energy Ledger (R333 to R357): rails and hops, accounts and their actions, windows, the package limit and
calibration. What the meters count and what it costs stands in Meters.lean (notes/assumptions/23.md). The planner stands in Planner.lean, power states in Power.lean. -/

namespace Sys2Proof.Machine

/-- The rail a region is on or on its way to. -/
def State.railGoal (s : State) (n : Nat) : Nat :=
  match (s.hop n).waiting with
  | some (t, _) => t
  | none => match (s.hop n).running with
    | some (_, t, _) => t
    | none => s.rd (enObj n) 2

/-- A hop of a region is requested; of several that wait only the last is applied (R339). In standby every region stays at VF_L or
its floor (R362). -/
def State.hopAsk (s : State) (goal cause n : Nat) : State :=
  if s.rd (enObj n) 2 = 3 then s
  else
    let target := if s.rd 0x3000 0xA = 0 then goal else s.floorOf n
    let x := s.hop n
    let bound := match x.running with | some (_, t, _) => t | none => s.rd (enObj n) 2
    s.setHop n { x with waiting := if target = bound then none else some (target, cause) }

/-- A snapshot copy, rollback restore or partial commit of the region runs (R339). -/
def State.copyRuns (s : State) (n : Nat) : Bool :=
  (List.range 64).any (fun k => (decide (s.rd (slotObj k) 8 = 2) || decide (s.rd (slotObj k) 8 = 3))
      && (s.cfg.slots.get (fun _ => {}) k).members.contains n)
    || (decide (s.rd (0x2010 + n / 32) 5 = 3) && ((s.cfg.loads.get (fun _ => {}) (n / 32)).targets.contains n))

/-- RAIL_HOP (R338, R339): the hop that waits for the region starts: RAIL becomes HOPPING. -/
def execRailHop (r : Region) (target : Fin 3) (cause : Fin 6) (s : State) : Result :=
  let n := rn r
  let x := s.hop n
  if x.running = none ∧ x.waiting = some (target.val, cause.val) ∧ s.copyRuns n = false then
    .next ((s.meterFold.setHop n { running := some (s.rd (enObj n) 2, target.val, cause.val), startedAt := s.now, waiting := none }).wr
      (enObj n) 2 4)
  else .next s

/-- RAIL_HOP_DONE (R338): the new rail, event 0x0304. -/
def execRailHopDone (r : Region) (s : State) : Result :=
  let n := rn r
  match (s.hop n).running with
  | none => .next s
  | some (old, target, cause) =>
    .next ((((s.meterFold.setHop n { s.hop n with running := none }).wr (enObj n) 2 target).bump (enObj n) 7 4 1).raise 0x0304 1 0 (locRegion n)
      [(20, 1, old), (21, 1, target), (22, 1, cause)])

/-- RAIL_TRIM (R333, R334): a step of at most 5 mV within the trim range, 100 µs after the step before it. -/
def execRailTrim (die : Fin 2) (rail : Fin 3) (mv : Int) (s : State) : Result :=
  let k := 4 * die.val + rail.val
  let new : Int := (s.rd (railObj k) 1 : Int) + mv
  let nom : Int := railNominal rail.val
  let due := match s.led.trimAt.get (fun _ => none) k with | some t => decide (t + 100000 ≤ s.now) | none => true
  if s.fwUp && due && decide (-5 ≤ mv) && decide (mv ≤ 5) && decide (nom - 50 ≤ new) && decide (new ≤ nom + 50) then
    let t := s.meterFold
    .next { (t.wr (railObj k) 1 new.toNat) with led := { t.led with trimAt := t.led.trimAt.put (fun _ => none) k (some s.now) } }
  else .next s

/-- A region is on a rail, or hops from or to it. -/
def State.onRail (s : State) (rail n : Nat) : Bool :=
  match (s.hop n).running with
  | some (a, b, _) => decide (a = rail) || decide (b = rail)
  | none => decide (s.rd (enObj n) 2 = rail)

/-- Region numbers of a die. -/
def dieRegions (d : Nat) : List Nat := (List.range 32).map (fun r => 32 * d + r)

/-- A VCL fault stops the die's clocked islands (R335): its loops stop and its user islands with them. -/
def State.stopIslands (s : State) (d : Nat) : State :=
  (s.each (fun t n => t.wr (0xA010 + 16 * d + n) 2 0) (List.range 9)).each (fun t i => t.wr (islObj d i) 2 0) (List.range 4)

/-- REGULATOR_FAULT (R335): a rail outside its nominal value ±10% for 1 µs. -/
def execRegulatorFault (die : Fin 2) (rail : Fin 4) (mv : BitVec 16) (s : State) : Result :=
  let k := 4 * die.val + rail.val
  let nom := railNominal rail.val
  if s.dev.por ∨ (nom * 9 ≤ 10 * mv.toNat ∧ 10 * mv.toNat ≤ nom * 11) ∨ s.rd (railObj k) 5 = 2 then .next s
  else
    let hit := if rail.val = 3 then [] else (dieRegions die.val).filter (fun n => s.onRail rail.val n)
    let s1 := { (s.fenceSet hit 5 true) with led := { s.led with faulted := s.led.faulted ++ hit } }
    let s2 := if rail.val = 3 then s1.stopIslands die.val else s1
    .next ((s2.wr (railObj k) 5 2).raise 0x030C 3 3 (railObj k) [(20, 1, die.val), (22, 2, mv.toNat)])

/-- OVER_LIMIT (R336): the VINF input current is 72 A or more; event 0x030B once in each second. -/
def execOverLimit (ma : BitVec 32) (s : State) : Result :=
  if s.dev.por ∨ ma.toNat < 72000 ∨ s.led.overStart = some (s.now / 10 ^ 9) then .next s
  else
    .next (({ s with led := { s.led with overStart := some (s.now / 10 ^ 9) } } : State).raise 0x030B 3 2 0x3000 [(24, 4, ma.toNat)])

/-- Configured regions of an account (R348). -/
def State.regionsOf (s : State) (a : Nat) : List Nat :=
  allRegions.filter (fun n => decide (s.regState n ≠ 0) && decide (accountOf (s.regOwner n) = a))

/-- THERMAL_HOP (R339, R353): while THERM_N is asserted every region of the die above its floor hops one rail down, once. -/
def execThermalHop (die : Fin 2) (s : State) : Result :=
  if s.dev.thermLow && !s.led.thermDies.contains die.val then
    let hit := (dieRegions die.val).filter (fun n =>
      decide (s.regState n ≠ 0) && decide (s.rd (enObj n) 2 ≠ 3) && decide (s.floorOf n < s.railGoal n))
    let s1 := s.each (fun t n => t.hopAsk (t.railGoal n - 1) 2 n) hit
    let s2 := { s1 with led := { s1.led with thermDies := die.val :: s1.led.thermDies,
                                             thermal := s1.led.thermal ++ hit.filter (fun n => !s1.led.thermal.contains n) } }
    .next (s2.raise 0x030E 3 1 0x3000 [(20, 1, die.val), (21, 1, hit.length)])
  else .next s

/-- LEDGER_HALT is cleared on the account's regions, apart from those a regulator fault halted (R335, R351). -/
def State.haltClear (s : State) (a : Nat) : State :=
  s.each (fun t n => if t.led.faulted.contains n ∨ t.rd (enObj n) 2 = 3 then t else t.clearReason n 5) (s.regionsOf a)

/-- An account takes an action (R350). -/
def State.takeAction (s : State) (a action : Nat) : State :=
  let rs := (s.regionsOf a).filter (fun n => decide (s.rd (enObj n) 2 ≠ 3))
  match action with
  | 1 =>
    let down := rs.filter (fun n => decide (s.floorOf n < s.railGoal n))
    let held := rs.filter (fun n => decide (s.rd (enObj n) 3 ≠ 0xFF) && decide (s.railGoal n ≤ s.floorOf n))
    let s1 := (s.each (fun t n => t.hopAsk (t.railGoal n - 1) 0 n) down).wr (accObj a) 0xC 1
    if held = [] then s1 else s1.raise 0x0303 3 1 (accObj a) [(20, 1, held.length)]
  | 2 => (s.each (fun t n => t.wr (enObj n) 5 (max (t.rd (accObj a) 5) (t.rd (enObj n) 4))) rs).wr (accObj a) 0xC 2
  | 3 => (s.fenceSet (s.regionsOf a) 5 true).wr (accObj a) 0xC 3
  | _ => s

/-- An account is exhausted (R350): event 0x0301 and its action, at most once in a window. In SPLIT_HOLD the action waits (R500). -/
def State.exhaust (s : State) (action a : Nat) : State :=
  let s1 := s.raise 0x0301 3 1 (accObj a) [(20, 1, action), (24, 8, s.rd (accObj a) 0xA)]
  let s2 : State := { s1 with led := { s1.led with acted := a :: s1.led.acted } }
  if s2.split then { s2 with led := { s2.led with waitActs := s2.led.waitActs ++ [(a, action)] } } else s2.takeAction a action

/-- Account actions that have waited for the end of SPLIT_HOLD are taken. -/
def State.waitedActs (s : State) : State :=
  s.led.waitActs.foldl (fun t p => t.takeAction p.1 p.2) { s with led := { s.led with waitActs := [] } }

/-- Every meter is collected (R347): the sensors of regions are read, the counts priced, and the running charges follow. -/
def State.collect (s : State) (temps : List (Region × Int)) : State := (s.tempsRead temps).meterFold.chargeSync

/-- Available energy of an account in this window, fJ (R349). -/
def State.available (s : State) (a : Nat) : Int := s.led.available.get (fun _ => 0) a

/-- Accounts whose running charge reaches their available energy take their actions (R349, R350). -/
def State.checkBudgets (s : State) : State :=
  s.each (fun t a =>
    if t.rd (accObj a) 1 ≠ 0 ∧ t.led.acted.contains a = false ∧ t.available a ≤ (t.charged a : Int) then
      t.exhaust (t.rd (accObj a) 4) a
    else t) (List.range 10)

/-- Sum over the accounts. -/
def sumAccounts (f : Nat → Nat) : Nat := ((List.range 10).map f).foldl (· + ·) 0

/-- E_PKG of the limit in force, pJ (R355): PKG_LIMIT_MW × WINDOW_NS. -/
def State.ePkg (s : State) : Nat := s.led.limit * s.rd 0x3000 1

/-- Effective budgets, carry limits and available energies follow the nominal ones (R349, R356). -/
def State.openBudgets (s : State) : State :=
  let total := sumAccounts (fun a => s.rd (accObj a) 1)
  let e := s.ePkg
  let scale (v : Nat) : Nat := if e < total * 10 ^ 6 then v * e / (total * 10 ^ 6) else v
  s.each (fun t a =>
    let eff := scale (t.rd (accObj a) 1)
    let t1 := t.wr (accObj a) 3 eff
    { t1 with led := { t1.led with
        carryMax := t1.led.carryMax.put (fun _ => 0) a (scale (t.rd (accObj a) 2)),
        available := t1.led.available.put (fun _ => 0) a ((eff * 10 ^ 9 : Nat) + t.led.m.carry.get (fun _ => 0) a) } }) (List.range 10)

/-- A value kept within −m to +m. -/
def clampTo (m : Nat) (v : Int) : Int := max (-(m : Int)) (min (m : Int) v)

/-- Carry that a closing window leaves an account, fJ (R349). -/
def State.carryOut (s : State) (a : Nat) : Int :=
  clampTo (s.led.carryMax.get (fun _ => 0) a * 10 ^ 9)
    ((s.rd (accObj a) 3 * 10 ^ 9 : Nat) + s.led.m.carry.get (fun _ => 0) a - (s.charged a : Int))

/-- One account's window closes (R349): its carry, its last charge. CARRY shows whole µJ, rounded down. -/
def State.closeAccount (s : State) (a : Nat) : State :=
  let v := s.charged a
  let carry := s.carryOut a
  let t := s.wrs (accObj a) [(9, ofSigned 64 (carry / 10 ^ 9)), (0xB, v / 10 ^ 9 % 2 ^ 64), (0xA, 0)]
  { t with led := { t.led with m := { t.led.m with
      carry := t.led.m.carry.put (fun _ => 0) a carry, last := t.led.m.last.put (fun _ => 0) a v, acc := t.led.m.acc.put (fun _ => 0) a 0 } } }

/-- Hopped regions step one rail up toward HOME_RAIL and pacing is removed (R351); the account's action ends when all are there. A region
that a thermal hop holds down returns as R339 says. -/
def State.releaseStep (s : State) (a : Nat) : State :=
  let rs := (s.regionsOf a).filter (fun n => decide (s.rd (enObj n) 2 ≠ 3) && decide (s.railGoal n < s.rd (enObj n) 1)
    && !s.led.thermal.contains n)
  let s1 := (s.each (fun t n => t.hopAsk (t.railGoal n + 1) 1 n) rs).each (fun t n => t.wr (enObj n) 5 0) (s.regionsOf a)
  s1.wr (accObj a) 0xC (if rs.all (fun n => decide (s1.rd (enObj n) 1 ≤ s1.railGoal n)) then 0 else 1)

/-- Actions are released at the start of a window (R351). -/
def State.releaseAction (s : State) (a : Nat) : State :=
  let st := s.rd (accObj a) 0xC
  let calm := decide (100 * s.led.m.last.get (fun _ => 0) a ≤ s.rd (accObj a) 6 * s.rd (accObj a) 3 * 10 ^ 9)
  let s1 :=
    if (st = 1 ∨ st = 2) ∧ calm = true then s.releaseStep a
    else if st = 3 ∧ s.rd (accObj a) 7 = 1 then (s.haltClear a).wr (accObj a) 0xC 0
    else s
  if ((st = 1 ∨ st = 2) ∧ calm = true) ∨ (st = 3 ∧ s.rd (accObj a) 7 = 1) then s1.raise 0x0302 3 0 (accObj a) [(20, 1, st)] else s1

/-- The package overran E_PKG (R357): every account over its own budget acts, NOTIFY accounts other than SHARED with HOP. -/
def State.overrunAct (s : State) (past : List Nat) : State :=
  s.each (fun t a => t.exhaust (if t.rd (accObj a) 4 = 0 ∧ a ≠ 9 then 1 else t.rd (accObj a) 4) a) past

/-- Values written in the closed window take effect (R346, R349): budgets and carry limits, the window length with its scaling,
the limit, calibration factors and the corrections of the reference rings. -/
def State.takeEffect (s : State) : State :=
  let s1 := s.each (fun t a =>
    let t1 := match t.led.nextBudget.get (fun _ => none) a with | some v => t.wr (accObj a) 1 v | none => t
    match t.led.nextCarry.get (fun _ => none) a with | some v => t1.wr (accObj a) 2 v | none => t1) (List.range 10)
  let old := s1.rd 0x3000 1
  let s2 := match s1.led.nextWindow with
    | some w => (s1.each (fun t a => (t.wr (accObj a) 1 (t.rd (accObj a) 1 * w / old)).wr (accObj a) 2 (t.rd (accObj a) 2 * w / old))
        (List.range 10)).wr 0x3000 1 w
    | none => s1
  let s3 := s2.led.calNext.foldl (fun t p => t.wr (railObj p.1) 3 p.2) s2
  let m := s3.led.m
  { s3 with led := { s3.led with
    nextBudget := ⟨[]⟩, nextCarry := ⟨[]⟩, nextWindow := none, calNext := [], limit := s3.rd 0x3000 2,
    m := { m with ring := m.ringNext.foldl (fun r p => r.put (fun _ => 65536) p.1 p.2) m.ring, ringNext := [] } } }

/-- Regions that a thermal hop took down return one rail up once THERM_N is released, as far as their account's action
allows (R339). -/
def State.thermalReturn (s : State) : State :=
  if s.dev.thermLow then s
  else
    let up := s.led.thermal.filter (fun n =>
      decide (s.railGoal n < s.rd (enObj n) 1) && decide (s.rd (accObj (accountOf (s.regOwner n))) 0xC ≠ 1))
    let s1 := s.each (fun t n => t.hopAsk (t.railGoal n + 1) 2 n) up
    { s1 with led := { s1.led with thermal := s1.led.thermal.filter (fun n => decide (s1.railGoal n < s1.rd (enObj n) 1)) } }

/-- CHARGE_LAST and LEAK_LAST of the regions (R346, R365), in whole µJ; the meters of the window start again. -/
def State.regionCharges (s : State) : State :=
  let m := s.led.m
  let t := s.each (fun t n => t.wrs (enObj n) [(8, m.region.get (fun _ => 0) n / 10 ^ 9 % 2 ^ 32), (9, m.leak.get (fun _ => 0) n / 10 ^ 9 % 2 ^ 32)])
    allRegions
  { t with led := { t.led with m := { t.led.m with region := ⟨[]⟩, leak := ⟨[]⟩, rail := ⟨[]⟩ } } }

/-- The package charge, fJ, is above E_PKG (R357). -/
def State.overran (s : State) : Bool := decide (s.ePkg * 1000 < sumAccounts s.charged)

/-- Event 0x030D of a window that has closed, where WINDOW_EVENT is set (R347). -/
def State.windowEvent (s : State) (pkg : Nat) : State :=
  if s.rd 0x3000 0xB = 1 then s.raise 0x030D 3 0 0x3000 [(24, 8, pkg)] else s

/-- The package overran E_PKG in the window that has closed, or not (R357). -/
def State.overrunNow (s : State) (over_ : Bool) (past : List Nat) : State := if over_ then s.overrunAct past else s

/-- A count less what it was. -/
def lessAt (m old : SMap Nat) : SMap Nat := m.cells.foldl (fun r c => r.put (fun _ => 0) c.1 (c.2 - old.get (fun _ => 0) c.1)) ⟨[]⟩
/-- Two counts together. -/
def plusAt (a b : SMap Nat) : SMap Nat := b.cells.foldl (fun r c => bumpAt r c.1 c.2) a

/-- The meters of the window that is over are taken up for its figures; without an exchange they are the running ones (R346). -/
def State.closingMeters (s : State) : State :=
  match s.led.closing with
  | some c => { s with led := { s.led with m := { c with temp := s.led.m.temp, ringNext := s.led.m.ringNext } } }
  | none => s.meterFold

/-- What the running meters have charged since the exchange belongs to the window that has opened. `run` is the running meters. -/
def State.openingMeters (s : State) (run : MeterSt) : State :=
  match s.led.closing with
  | some c =>
    let m := s.led.m
    { s with led := { s.led with closing := none, m := { m with
        clock := run.clock, leakFrom := run.leakFrom, acc := run.acc, rail := run.rail, region := run.region, leak := run.leak,
        total := plusAt m.total (lessAt run.total c.total), cal := plusAt m.cal (lessAt run.cal c.cal) } } }
  | none => s

/-- A window closes and the next opens (R343, R346 to R357). -/
def State.boundary (s : State) (temps : List (Region × Int)) (loss : List Nat) (vinf : Nat) : State :=
  let run := s.led.m
  let s0 := (((s.tempsRead temps).closingMeters.losses loss).chargeSync).regionCharges
  let pkg := sumAccounts s0.charged
  let past := (List.range 10).filter (fun a => decide (s0.rd (accObj a) 3 * 10 ^ 9 < s0.charged a))
  let len := s0.rd 0x3000 1
  let s1 := (s0.each State.closeAccount (List.range 10)).wrs 0x3000 [(8, pkg / 10 ^ 9 % 2 ^ 64), (9, vinf % 2 ^ 64)]
  let s2 := { s1 with led := { s1.led with windowStart := s1.led.windowStart + len, grid := 0, acted := [], windows := s1.led.windows + 1, lastLen := len } }
  let s3 := (s2.each State.releaseAction (List.range 10)).thermalReturn
  let s4 := (s3.takeEffect.openBudgets).openingMeters run
  (s4.overrunNow s0.overran past).windowEvent (pkg / 10 ^ 9)

/-- WINDOW_BOUNDARY (R36, R346): the window in force has lasted its length. The sensors, each regulator's loss in µJ and the VINF input
energy are what the regulators and sensors measure. -/
def execWindowBoundary (temps : List (Region × Int)) (loss : Vector Nat 8) (vinfUj : Nat) (s : State) : Result :=
  if s.fwUp ∧ s.led.windowStart + s.rd 0x3000 1 ≤ s.now then .next (s.boundary temps loss.toList vinfUj) else .next s

/-- A calibration factor after a measured ratio, Q16.16 (R344): K + (r − K) ÷ 8, or the nearest bound for a ratio outside 0.80 to
1.25. -/
def nextFactor (k r : Nat) : Nat :=
  if r < 52429 then 52429 else if 81920 < r then 81920 else ((k : Int) + ((r : Int) - (k : Int)) / 8).toNat

/-- The ratio of a rail's measured energy, µJ, to the charges priced on it, Q16.16 (R344); open where nothing has been priced. -/
def State.calRatio (s : State) (k uj : Nat) : Nat :=
  let c := s.led.m.cal.get (fun _ => 0) k
  if c = 0 then s.freeVal 32 else uj * 10 ^ 9 * 65536 / c

/-- Calibration of one rail (R344). -/
def State.calibrate (s : State) (k uj : Nat) : State :=
  let r := s.calRatio k uj
  let t := if s.led.m.cal.get (fun _ => 0) k = 0 then s.freeNext else s
  let s1 : State := { t with led := { t.led with calNext := t.led.calNext ++ [(k, nextFactor (s.rd (railObj k) 3) r)] } }
  if r < 52429 ∨ 81920 < r then s1.raise 0x0309 3 1 (railObj k) [(24, 4, min r (2 ^ 32 - 1))] else s1

/-- CALIBRATION (R344): every 64 windows, for each rail of each die; the factors and the corrections of the reference rings take effect at
the next boundary. The energies, in µJ, are what the regulators' output current sense has measured, the corrections, Q16.16, what the
rings have. -/
def execCalibration (measured : Vector Nat 8) (rings : List (Region × Nat)) (s : State) : Result :=
  if s.fwUp ∧ s.led.calAt + 64 ≤ s.led.windows then
    let t := s.meterFold.each (fun t k => t.calibrate k (measured.toList.getD k 0)) (List.range 8)
    .next { t with led := { t.led with calAt := s.led.windows,
                                       m := { t.led.m with cal := ⟨[]⟩, ringNext := t.led.m.ringNext ++ rings.map (fun p => (rn p.1, p.2)) } } }
  else .next s

/-- A held HALT of an account is released (R351). -/
def State.resumeHalt (s : State) (a : Nat) : State :=
  if s.rd (accObj a) 0xC = 3 then ((s.haltClear a).wr (accObj a) 0xC 0).raise 0x0302 3 0 (accObj a) [(20, 1, 3)] else s

/-- RESUME (R351). -/
def execResume (q : Req) (a : Fin 10) (v : BitVec 8) (s : State) : Result :=
  s.writing q (accObj a.val) 8 1 v.toNat (fun t => t.resumeHalt a.val)

/-- The effective package limit and what sets it: 0 absolute, 1 board, 2 slot, 3 reserve (R355). -/
def State.pkgLimit (s : State) : Nat × Nat :=
  let cands : List (Nat × Nat) := [(165000, 0)]
    ++ (if s.rd 0x3000 3 = 0 then [] else [(s.rd 0x3000 3, 1)])
    ++ (if s.rd 0x3000 4 = 1 ∧ s.rd 0x5000 5 ≠ 0 then [(s.rd 0x5000 5, 2)] else [])
    ++ (if s.rd 0x3000 5 < s.rd 0x3000 6 then [(s.rd 0x3000 7, 3)] else [])
  cands.foldl (fun b c => if c.1 < b.1 then c else b) (165000, 0)

/-- PKG_LIMIT_MW follows its sources; each change raises event 0x0305 and takes effect at the next boundary (R355). -/
def State.limitUpdate (s : State) : State :=
  let p := s.pkgLimit
  if p.1 = s.rd 0x3000 2 then s
  else (s.wr 0x3000 2 p.1).raise 0x0305 3 1 0x3000 [(20, 1, p.2), (24, 4, p.1)]

/-- RESERVE_UJ takes a value (R355): a write that brings it below RESERVE_MIN_UJ raises event 0x030A. -/
def State.reserveSet (s : State) (v : Nat) : State :=
  let s1 := s.wr 0x3000 5 v
  let s2 := if v < s.rd 0x3000 6 ∧ s.rd 0x3000 6 ≤ s.rd 0x3000 5 then s1.raise 0x030A 3 1 0x3000 [(24, 8, v)] else s1
  s2.limitUpdate

/-- RESERVE_UJ_WRITE (R355). -/
def execReserveUjWrite (q : Req) (v : BitVec 64) (s : State) : Result :=
  s.writing q 0x3000 5 8 v.toNat (fun t => t.reserveSet v.toNat)

/-- SET_SLOT_POWER_LIMIT (R330, R355): SLOT_POWER_MW is the message's value times its scale. -/
def execSetSlotPowerLimit (value : BitVec 10) (scaleMw : Nat) (s : State) : Result :=
  if s.dev.por ∨ s.rd 0x5000 1 < 2 then .next s
  else
    let mw := value.toNat * scaleMw % 2 ^ 32
    .next (((s.wr 0x5000 5 mw).raise 0x0509 0 0 0 [(24, 4, mw)]).limitUpdate)

end Sys2Proof.Machine
end

