-- ==== Sys2Proof/Machine/Flags.lean ====
section
/-! DEFINITION. The eight condition flags of a Prism operation (R128). -/

namespace Sys2Proof.Machine

/-- The operation's class has a C flag of its own kind: ADD and SUB, MULACC and CMULACC (R128). -/
def flagC (r : PRes) : Bool := r.carry

/-- Value of condition flag `k` (R128): Z, N, C, V, SAT, ANY, ALL, PSN. `m` is M after the operation. -/
def condFlag (r : PRes) (m : Nat) (poison : Bool) (k : Nat) : Bool :=
  match k with
  | 0 => decide (r.result = 0)
  | 1 => r.result.testBit 127
  | 2 => flagC r
  | 3 => r.ovf
  | 4 => r.clamped
  | 5 => decide (m ≠ 0)
  | 6 => decide (m = 0xFFFF)
  | _ => poison

/-- The flag tokens presented under FLAGS: condition flags for 01, result bits [7:0] for 10 (R119, R128). -/
def flagTokens (flags flagEn : Nat) (r : PRes) (m : Nat) (poison : Bool) : List (Nat × Bool) :=
  if flags = 1 then (maskBits 8 flagEn).map (fun k => (k, condFlag r m poison k))
  else if flags = 2 then (maskBits 8 flagEn).map (fun k => (k, r.result.testBit k))
  else []

end Sys2Proof.Machine
end

