-- ==== Sys2Proof/Machine/Prism.lean ====
section
/-! DEFINITION. Prism word units and Pool RAMs (R112 to R144): configuration checks, initial state, operations and accesses. -/

namespace Sys2Proof

/-- OPMODE of a Prism (R117): 0 OFF, 1 STATIC, 2 SEQUENCE, 3 COMMAND. -/
def PrismCfg.mode (g : PrismCfg) : Nat := Machine.fieldAt g.ctrl.toNat 0 2
/-- SEQLEN of a Prism (R117). -/
def PrismCfg.seqLen (g : PrismCfg) : Nat := Machine.fieldAt g.ctrl.toNat 5 3
/-- FLAGEN of a Prism (R117). -/
def PrismCfg.flagEn (g : PrismCfg) : Nat := Machine.fieldAt g.ctrl.toNat 8 8
/-- An operation table entry (R119). -/
def PrismCfg.entry (g : PrismCfg) (i : Nat) : Nat := (g.ops.getD i 0).toNat
/-- Entries in use (R141). -/
def PrismCfg.used (g : PrismCfg) : List Nat :=
  if g.mode = 1 then [0] else if g.mode = 2 then List.range (g.seqLen + 1) else if g.mode = 3 then List.range 8 else []

end Sys2Proof

namespace Sys2Proof.Machine

/-- OPCODE of a descriptor (R119). -/
def opCode (e : Nat) : Nat := fieldAt e 58 6
/-- Source code of operand A (R119, R120). -/
def opSrcA (e : Nat) : Nat := fieldAt e 51 3
/-- Source code of operand B. -/
def opSrcB (e : Nat) : Nat := fieldAt e 48 3

/-- An entry fails a reason of the configuration check (R141). -/
def entryFails (e reason : Nat) : Bool :=
  let op := opCode e
  match reason with
  | 1 => !opListed op
  | 2 => !widthAllowed op (fieldAt e 56 2)
  | 3 => (decide (op = 0x1A) || decide (op = 0x1D)) == decide (fieldAt e 46 2 = 0)
  | 4 => decide (op = 0x10) && decide (6 ≤ e % 8)
  | 5 => decide (fieldAt e 32 4 ≠ 0) || decide (fieldAt e 8 16 ≠ 0)
  | _ => decide (fieldAt e 36 2 = 3)

/-- The first failing reason of a Prism and the entry that fails it, 0xFF for the control word (R141, R144). -/
def prismFault (g : PrismCfg) : Option (Nat × Nat) :=
  [1, 2, 3, 4, 5, 6].findSome? (fun reason =>
    if reason = 5 ∧ fieldAt g.ctrl.toNat 2 3 ≠ 0 then some (5, 0xFF)
    else (g.used.find? (fun i => entryFails (g.entry i) reason)).map (fun i => (reason, i)))

/-- A Prism right after GSR release (R115). -/
def initPrism (g : PrismCfg) : PrismSt :=
  { cfg := some g, l := [(g.l0, false), (g.l1, false), (g.l2, false), (g.l3, false)] }

/-- PAIR of a Pool. -/
def poolPairBit (c : Nat) : Bool := c.testBit 7
/-- STATEN of a Pool. -/
def poolStatEn (c : Nat) : Nat := fieldAt c 48 8

/-- The windows of the two ports overlap, both ports being in use (R137). -/
def poolOverlap (c : Nat) : Bool :=
  decide (poolMode c 0 ≠ 0) && decide (poolMode c 1 ≠ 0) && decide (poolBase c 0 ≤ poolLimit c 1) && decide (poolBase c 1 ≤ poolLimit c 0)

/-- A port fails a reason of the Pool's configuration check (R141). -/
def poolFails (c reason p : Nat) : Bool :=
  let m := poolMode c p
  match reason with
  | 1 => decide (5 ≤ m)
  | 2 => decide (m ≠ 0) && decide (poolLimit c p < poolBase c p)
  | 3 => decide (m = 4) && decide (poolMode c (1 - p) ≠ 4)
  | 4 => !poolPairBit c && (decide (m = 1) || decide (m = 2)) && poolOverlap c
  | _ => poolPairBit c && (decide (m = 0) || decide (m = 4))

/-- The first failing reason of a Pool and its port, 0xFF for both (R141, R144). -/
def poolFault (c : Nat) : Option (Nat × Nat) :=
  [1, 2, 3, 4, 5].findSome? (fun reason =>
    match poolFails c reason 0, poolFails c reason 1 with
    | true, true => some (reason, 0xFF)
    | true, false => some (reason, 0)
    | false, true => some (reason, 1)
    | false, false => none)

/-- A Pool right after GSR release, its contents apart (R131, R133): pointers at BASE, nothing latched. -/
def initPool (c : BitVec 56) (data : SMap Word) : PoolSt :=
  { cfg := some c, data := data, ptr0 := poolBase c.toNat 0, ptr1 := poolBase c.toNat 1 }

/-- The configuration check of one cluster's units (R141): inert bits set, and events 0x0D08 and 0x0D09 for a unit that was not
inert already. -/
def State.checkCluster (s : State) (k : Nat) : State :=
  let n := k / 64
  let c := k % 64
  let s1 := match (s.fab.prism k).cfg.bind prismFault with
    | some (reason, e) =>
      if (s.rd (unitObj n) 1).testBit c then s
    else (s.wr (unitObj n) 1 (setBit (s.rd (unitObj n) 1) c)).raise 0x0D08 1 2 (locCluster k) [(20, 1, reason), (21, 1, e)]
    | none => s.wr (unitObj n) 1 (clrBit (s.rd (unitObj n) 1) c)
  match ((s1.fab.pool k).cfg.bind (fun x => poolFault x.toNat)) with
  | some (reason, p) =>
    if (s1.rd (unitObj n) 2).testBit c then s1
    else (s1.wr (unitObj n) 2 (setBit (s1.rd (unitObj n) 2) c)).raise 0x0D09 1 2 (locCluster k) [(20, 1, reason), (21, 1, p)]
  | none => s1.wr (unitObj n) 2 (clrBit (s1.rd (unitObj n) 2) c)

/-- The configuration check of a region's Prisms and Pools (R141). -/
def State.checkUnits (s : State) (n : Nat) : State := s.each State.checkCluster ((List.range 64).map (fun c => n * 64 + c))

/-- Tokens taken from a list of word sinks, all or none. -/
def FabSt.takeAll (f : FabSt) : List Nat → Option (List (Nat × Word) × FabSt)
  | [] => some ([], f)
  | k :: l =>
    match f.take k with
    | none => none
    | some (w, f1) =>
      match f1.takeAll l with
      | none => none
      | some (ws, f2) => some ((k, w) :: ws, f2)

/-- Channels X, Y that an entry uses, as sinks 0 and 1 (R121). -/
def chansUsed (e : Nat) : List Nat :=
  [0, 1].filter (fun k => (readsA (opCode e) && decide (opSrcA e = k)) || (readsB (opCode e) && decide (opSrcB e = k)))

/-- An operand: its value and POISON (R120). `ws` holds the tokens taken. -/
def PrismSt.operand (x : PrismSt) (g : PrismCfg) (ws : List (Nat × Word)) (src : Nat) : Nat × Bool :=
  if src < 2 then (match cellsFind ws src with | some w => (w.data.toNat, w.poison) | none => (0, false))
  else if src < 6 then (match x.l[src - 2]? with | some (v, t) => (v.toNat, t) | none => (0, false))
  else if src = 6 then (g.k.toNat, false)
  else (0, false)

/-- LAST, U0 and U1 of an operand that is a channel token; else 0 (R120). -/
def sideOf (ws : List (Nat × Word)) (reads : Bool) (src : Nat) : Bool × Bool × Bool :=
  if reads && decide (src < 2) then (match cellsFind ws src with | some w => (w.last, w.u0, w.u1) | none => (false, false, false))
  else (false, false, false)

/-- LAST, U0 and U1 of a result under SIDESRC (R119). -/
def resultSide (e : Nat) (ws : List (Nat × Word)) : Bool × Bool × Bool :=
  let a := sideOf ws (readsA (opCode e)) (opSrcA e)
  let b := sideOf ws (readsB (opCode e)) (opSrcB e)
  match fieldAt e 40 2 with
  | 0 => a
  | 1 => b
  | 2 => (a.1 || b.1, a.2)
  | _ => (false, false, false)

/-- The operation of entry `e` on its operands (R119 to R129): the Prism after its register, ACC and M updates and with its
results latched and its flag tokens presented. Of a MULW both tokens carry the same LAST, U0 and U1 (DESIGN CHOICE,
notes/assumptions/167.md), and the configuration and the operands settle which of the two the register takes (Config.mulwBack). -/
def PrismSt.operate (x : PrismSt) (g : PrismCfg) (e : Nat) (ws : List (Nat × Word)) (cPoison : Bool) : PrismSt :=
  let op := opCode e
  let a := if readsA op then x.operand g ws (opSrcA e) else (0, false)
  let b := if readsB op then x.operand g ws (opSrcB e) else (0, false)
  let accRead := decide (op = 0x28) || decide (op = 0x29)
  let accWrite := decide (op = 0x1A) || decide (op = 0x1D)
  let poison := a.2 || b.2 || cPoison || ((accRead || (accWrite && decide (fieldAt e 46 2 ≠ 1))) && x.accTag)
  let r := prismOp op (fieldAt e 56 2) (e.testBit 55) (e.testBit 54) (e.testBit 39) ((e.testBit 24) && (decide (op = 0x1C) || decide (op = 0x1D)))
    (fieldAt e 46 2) (e % 256) (fieldAt e 24 8) a.1 b.1 x.m.toNat x.acc.toNat
  let side := resultSide e ws
  let tok (v : Nat) : Word := ⟨BitVec.ofNat 128 v, side.1, poison, side.2.1, side.2.2⟩
  let clr := accRead && e.testBit 38
  let m := match r.mask with | some v => BitVec.ofNat 16 v | none => x.m
  let wbv := match r.second with | some v => if Config.mulwBack e a.1 b.1 then v else r.result | none => r.result
  { x with
    acc := if clr then 0 else match r.acc with | some v => BitVec.ofNat 192 v | none => x.acc,
    accTag := if clr then false else if accWrite then poison else x.accTag,
    m := m,
    l := if e.testBit 44 then x.l.set (fieldAt e 42 2) (BitVec.ofNat 128 wbv, poison) else x.l,
    result := if e.testBit 45 then some (tok r.result) else none,
    extra := if e.testBit 45 then r.second.map tok else none,
    flags := flagTokens (fieldAt e 36 2) g.flagEn r m.toNat poison,
    seqIdx := if g.mode = 2 then (if x.seqIdx = g.seqLen then 0 else x.seqIdx + 1) else x.seqIdx }

/-- The Prism may fire: its result latch is EMPTY and every enabled flag pair is at rest (R122). -/
def FabSt.prismRest (f : FabSt) (k : Nat) (g : PrismCfg) : Bool :=
  let x := f.prism k
  x.result.isNone && x.extra.isNone &&
    (maskBits 8 g.flagEn).all (fun i => (tokenOf x.flags i).isNone && !f.ack (.flag k i))

/-- The entry that fires next, with the C token in COMMAND mode (R118). -/
def FabSt.prismEntry (f : FabSt) (k : Nat) (g : PrismCfg) : Option (Nat × Bool × FabSt) :=
  if g.mode = 1 then some (0, false, f)
  else if g.mode = 2 then some ((f.prism k).seqIdx, false, f)
  else if g.mode = 3 then (f.take (sinkCluster k 2)).map (fun p => (p.1.data.toNat % 8, p.1.poison, p.2))
  else none

/-- Energy class of an operation, 0 to 7, by its code and WIDTH (R125, R130). -/
def opClass (op width : Nat) : Nat :=
  if op < 8 ∨ (0x10 ≤ op ∧ op < 0x14) then 0
  else if 0x18 ≤ op ∧ op < 0x1B then (if width = 2 then 2 else 3)
  else if op = 0x1C ∨ op = 0x1D then (if width = 2 then 4 else 5)
  else if op = 0x20 then 6
  else if op = 0x28 ∨ op = 0x29 then 7
  else 1

/-- PRISM_OPERATION (R118 to R129): every channel the entry uses holds a token, and the operation takes one of each. -/
def execPrismOperation (c : Clu) (s : State) : Result :=
  let k := cn c
  match (s.fab.prism k).cfg with
  | none => .next s
  | some g =>
    if s.canStart (k / 64) && (prismFault g).isNone && s.fab.prismRest k g then
      match s.fab.prismEntry k g with
      | none => .next s
      | some (i, cPoison, f) =>
        let e := g.entry i
        match f.takeAll ((chansUsed e).map (sinkCluster k)) with
        | none => .next s
        | some (ws, f1) =>
          let x := (f1.prism k).operate g e (ws.map (fun p => (p.1 % 9, p.2))) cPoison
          .next { s with fab := ((f1.setPrism k x).settled).count (k / 64) (7 + opClass (opCode e) (fieldAt e 56 2)) 1 }
    else .next s

/-- One access of a Pool port (R131 to R136): its address, the word it writes if it writes, the command's POISON, whether
the address lies in the window. -/
structure PoolAcc where
  addr : Nat
  data : Option Word
  poison : Bool
  inWin : Bool
deriving DecidableEq, Repr

/-- The command latched at a CMD port. -/
def PoolSt.cmd (x : PoolSt) (p : Nat) : Option Word := if p = 0 then x.cmd0 else x.cmd1
/-- Set the command latched at a CMD port. -/
def PoolSt.setCmd (x : PoolSt) (p : Nat) (w : Option Word) : PoolSt := if p = 0 then { x with cmd0 := w } else { x with cmd1 := w }
/-- The read latch of a port. -/
def PoolSt.latch (x : PoolSt) (p : Nat) : Option Word := if p = 0 then x.read0 else x.read1
/-- The pointer of a port. -/
def PoolSt.ptr (x : PoolSt) (p : Nat) : Nat := if p = 0 then x.ptr0 else x.ptr1
/-- A stored word. -/
def PoolSt.word (x : PoolSt) (a : Nat) : Word := x.data.get (fun _ => Word.zero) a

/-- A port's enabled status pairs are at rest (R139). -/
def FabSt.poolRest (f : FabSt) (k p ctrl : Nat) : Bool :=
  (maskBits 4 (poolStatEn ctrl >>> (4 * p))).all (fun i =>
    (tokenOf (f.pool k).status (4 * p + i)).isNone && !f.ack (.stat k (4 * p + i)))

/-- A configured Pool that works, in a region that may start accesses. -/
def State.poolCtrl (s : State) (k : Nat) : Option Nat :=
  match (s.fab.pool k).cfg with
  | none => none
  | some c => if s.canStart (k / 64) && (poolFault c.toNat).isNone then some c.toNat else none

/-- A command word as an access that reads, or one that writes `data` (R132). -/
def cmdAccess (ctrl p : Nat) (cmd : Word) (data : Option Word) : PoolAcc :=
  let a := cmd.data.toNat % 512
  { addr := a, data := data, poison := cmd.poison, inWin := decide (poolBase ctrl p ≤ a) && decide (a ≤ poolLimit ctrl p) }

/-- The next access of a port in CMD, SEQ_WR or SEQ_RD mode, with the fabric after the tokens it takes. A read needs its
read channel free. A write command whose data token has not come is left latched: no access yet, but a changed fabric. -/
def FabSt.poolNext (f : FabSt) (k p ctrl : Nat) : Option (Option PoolAcc × FabSt) :=
  let x := f.pool k
  let sink := sinkCluster k (3 + p)
  match poolMode ctrl p with
  | 1 =>
    match x.cmd p with
    | some cmd =>
      (f.take sink).map (fun q => (some (cmdAccess ctrl p cmd (some q.1)), q.2.setPool k ((q.2.pool k).setCmd p none)))
    | none =>
      match f.take sink with
      | none => none
      | some (cmd, f1) =>
        if cmd.data.getLsbD 9 then some (none, f1.setPool k ((f1.pool k).setCmd p (some cmd)))
        else if (x.latch p).isNone then some (some (cmdAccess ctrl p cmd none), f1)
        else none
  | 2 => (f.take sink).map (fun q => (some { addr := x.ptr p, data := some q.1, poison := false, inWin := true }, q.2))
  | 3 => if (x.latch p).isNone then some (some { addr := x.ptr p, data := none, poison := false, inWin := true }, f) else none
  | _ => none

/-- The token that a read returns (R132, R138). Of a word with a double-bit error only POISON is known: `open_` holds the
131 other bits. -/
def readToken (w : Word) (a : PoolAcc) (ecc : Ecc) (open_ : Nat) : Word :=
  if a.inWin then
    if ecc = .uncorrectable then { Word.ofBits (BitVec.ofNat 132 open_) with poison := true }
    else { w with poison := w.poison || a.poison }
  else { Word.zero with poison := true }

/-- Status tokens of an access on port `p`, as STATEN enables them (R139). -/
def statTokens (ctrl p : Nat) (wrap collide corr uncorr : Bool) : List (Nat × Bool) :=
  (maskBits 4 (poolStatEn ctrl >>> (4 * p))).map (fun i => (4 * p + i,
    match i with | 0 => wrap | 1 => collide | 2 => corr | _ => uncorr))

/-- A read in the window counts its ECC outcome; a double-bit error raises 0x0D0A (R138, R144). -/
def State.poolEcc (s : State) (k p : Nat) (a : PoolAcc) (ecc : Ecc) : State :=
  let o := unitObj (k / 64)
  if a.data.isNone && a.inWin then
    match ecc with
    | .clean => s
    | .corrected => s.bump o 3 4 1
    | .uncorrectable =>
      let t := (s.bump o 4 4 1).wr o 5 (locCluster k)
      t.freeNext.raise 0x0D0A 1 2 (locCluster k) [(20, 1, p), (22, 2, a.addr), (24, 4, t.rd o 4)]
  else s

/-- One access is served on port `p` (R132 to R139), and counts as a Pool read or write when it reaches the memory (R340). `old` is the data it reads; `collide` the COLLIDE status. -/
def State.poolServe (s : State) (k p ctrl : Nat) (a : PoolAcc) (ecc : Ecc) (old : Word) (collide : Bool) : State :=
  let x := s.fab.pool k
  let tok := readToken old a ecc (s.freeVal 132)
  let last := match a.data with | some w => w.last | none => tok.last
  let seq := decide (poolMode ctrl p = 2) || decide (poolMode ctrl p = 3)
  let (ptr, wrap) := if seq then seqAdvance ctrl p (x.ptr p) last else (x.ptr p, false)
  let isRead := a.data.isNone
  let x1 := if isRead then x else if p = 0 then { x with ptr0 := ptr } else { x with ptr1 := ptr }
  let x2 := match a.data with
    | some w =>
      if a.inWin then { x1 with data := x1.data.put (fun _ => Word.zero) a.addr { w with poison := w.poison || a.poison } } else x1
    | none => if p = 0 then { x1 with read0 := some tok } else { x1 with read1 := some tok }
  let corr := isRead && a.inWin && decide (ecc = .corrected)
  let unc := isRead && a.inWin && decide (ecc = .uncorrectable)
  let x3 := { x2 with status := x2.status ++ statTokens ctrl p wrap collide corr unc }
  let s1 := { s with fab := ((s.fab.setPool k x3).settled).count (k / 64) (if isRead then 0xF else 0x10) a.inWin.toNat }
  let s2 := if a.inWin then s1 else s1.bump (unitObj (k / 64)) 6 4 1
  s2.poolEcc k p a ecc

/-- An access of an unpaired port, when it is of the kind (mode, write) that the command names. -/
def State.poolSingle (s : State) (c : Clu) (p mode : Nat) (write : Bool) (ecc : Ecc) : State :=
  let k := cn c
  match s.poolCtrl k with
  | none => s
  | some ctrl =>
    if poolPairBit ctrl || decide (poolMode ctrl p ≠ mode) || !s.fab.poolRest k p ctrl then s
    else match s.fab.poolNext k p ctrl with
      | none => s
      | some (none, f) => if write then { s with fab := f } else s
      | some (some a, f) =>
        if a.data.isSome == write then ({ s with fab := f } : State).poolServe k p ctrl a ecc ((s.fab.pool k).word a.addr) false
        else s

/-- POOL_CMD_READ (R132): a command token with WE 0 reads ADDR. -/
def execPoolCmdRead (c : Clu) (p : Fin 2) (ecc : Ecc) (s : State) : Result := .next (s.poolSingle c p.val 1 false ecc)

/-- POOL_CMD_WRITE (R132): a command token with WE 1 is taken, then the data token that follows it on the channel, which is
stored with its own sideband (notes/assumptions/14.md: the command token is taken first). -/
def execPoolCmdWrite (c : Clu) (p : Fin 2) (s : State) : Result := .next (s.poolSingle c p.val 1 true .clean)

/-- POOL_SEQ_WRITE (R131, R133): a token is written at the pointer, which advances, wraps or is reset on LAST. -/
def execPoolSeqWrite (c : Clu) (p : Fin 2) (s : State) : Result := .next (s.poolSingle c p.val 2 true .clean)

/-- POOL_SEQ_READ (R131, R133): the word at the pointer is presented on the free read channel; the pointer advances when it is taken. -/
def execPoolSeqRead (c : Clu) (p : Fin 2) (ecc : Ecc) (s : State) : Result := .next (s.poolSingle c p.val 3 false ecc)

/-- POOL_FIFO_WRITE (R131, R133): a token on port 0 is written at the tail while the FIFO is not full. -/
def execPoolFifoWrite (c : Clu) (s : State) : Result :=
  let k := cn c
  match s.poolCtrl k with
  | none => .next s
  | some ctrl =>
    let x := s.fab.pool k
    if poolMode ctrl 0 = 4 ∧ s.fab.poolRest k 0 ctrl = true ∧ x.fifoLen < fifoCap ctrl then
      match s.fab.take (sinkCluster k 3) with
      | none => .next s
      | some (w, f) =>
        let a := poolBase ctrl 0 + (x.fifoHead + x.fifoLen) % fifoCap ctrl
        let y := f.pool k
        let z := { y with data := y.data.put (fun _ => Word.zero) a w, fifoLen := y.fifoLen + 1,
                          status := y.status ++ statTokens ctrl 0 (decide (a = poolLimit ctrl 0)) false false false }
        .next { s with fab := ((f.setPool k z).settled).count (k / 64) 0x10 1 }
    else .next s

/-- POOL_FIFO_READ (R131, R133, R138): the head is presented on port 1's free read channel; it leaves the FIFO when it is taken. -/
def execPoolFifoRead (c : Clu) (ecc : Ecc) (s : State) : Result :=
  let k := cn c
  match s.poolCtrl k with
  | none => .next s
  | some ctrl =>
    let x := s.fab.pool k
    if poolMode ctrl 0 = 4 ∧ s.fab.poolRest k 1 ctrl = true ∧ 0 < x.fifoLen ∧ x.read1.isNone = true then
      let a : PoolAcc := { addr := poolBase ctrl 0 + x.fifoHead, data := none, poison := false, inWin := true }
      let y := { x with read1 := some (readToken (x.word a.addr) a ecc (s.freeVal 132)),
                        status := x.status ++ statTokens ctrl 1 (decide (a.addr = poolLimit ctrl 0)) false
                          (decide (ecc = .corrected)) (decide (ecc = .uncorrectable)) }
      .next (({ s with fab := ((s.fab.setPool k y).settled).count (k / 64) 0xF 1 } : State).poolEcc k 1 a ecc)
    else .next s

/-- POOL_PAIR (R136): the nth accesses of both ports are served together. Reads return the data held before the pair, and
of two writes to one address port 1's stands. COLLIDE is 0 where the address lies outside a port's window, since it is then never accessed
(DESIGN CHOICE, notes/assumptions/169.md). A write command that waits for its data is latched first. -/
def execPoolPair (c : Clu) (ecc0 ecc1 : Ecc) (s : State) : Result :=
  let k := cn c
  match s.poolCtrl k with
  | none => .next s
  | some ctrl =>
    if !poolPairBit ctrl || decide (4 ≤ poolMode ctrl 0) || !s.fab.poolRest k 0 ctrl || !s.fab.poolRest k 1 ctrl then .next s
    else
      let latch (t : State) (p : Nat) : State :=
        match (t.fab.pool k).cmd p with
        | some _ => t
        | none =>
          match t.fab.poolNext k p ctrl with
          | some (none, f) => { t with fab := f }
          | _ => t
      let s1 := latch (latch s 0) 1
      match s1.fab.poolNext k 0 ctrl with
      | some (some a0, f0) =>
        match f0.poolNext k 1 ctrl with
        | some (some a1, f1) =>
          let x := f1.pool k
          let hit := a0.inWin && a1.inWin && decide (a0.addr = a1.addr)
          let t := { s1 with fab := f1.setPool k { x with pairs := x.pairs + 1 } }
          .next ((t.poolServe k 0 ctrl a0 ecc0 (x.word a0.addr) hit).poolServe k 1 ctrl a1 ecc1 (x.word a1.addr) hit)
        | _ => .next s1
      | _ => .next s1

end Sys2Proof.Machine
end

