-- ==== Sys2Proof/Machine/Staging.lean ====
section
/-! DEFINITION. The system area of device memory (R229): staging banks (R399, R418 to R420) and snapshot images (R421), which the
configuration engines alone reach, through port 35 (R233). Their octets are ciphertext under Sebex's package key; what they decrypt to stands in
`CfgSt.banks` and in the snapshot slots. -/

namespace Sys2Proof

/-- Region number whose configuration frames or Pool blocks hold a setting (R368, R383); none for a periphery frame. -/
def Setting.regionNo : Setting → Option Nat
  | .lu u _ => some (Machine.un u / 16384)
  | .chordOut c _ _ => some (Machine.cn c / 64)
  | .gatherSide c _ _ _ => some (Machine.cn c / 64)
  | .wordSel c _ _ => some (Machine.cn c / 64)
  | .spanBitIn c _ _ => some (Machine.cn c / 64)
  | .spanBitSite r _ _ => some (Machine.rn r)
  | .spanWordIn c _ _ => some (Machine.cn c / 64)
  | .spanWordArc r _ _ _ => some (Machine.rn r)
  | .spanWordSite r _ _ => some (Machine.rn r)
  | .drive r _ _ => some (Machine.rn r)
  | .prism c _ => some (Machine.cn c / 64)
  | .pool c _ => some (Machine.cn c / 64)
  | .poolData c _ _ => some (Machine.cn c / 64)
  | .site d k _ => some (32 * d.val + k.val / 2)
  | .pinFunc _ _ => none

/-- A setting is a block of a Pool image (R383). -/
def Setting.isPool : Setting → Bool
  | .poolData _ _ _ => true
  | _ => false

end Sys2Proof

namespace Sys2Proof.Machine

/-- Physical address of bank `b` of a region (R399). -/
def bankBase (n b : Nat) : Nat := 0x780000000 + 0x400000 * n + 0x200000 * b
/-- Frame `f` of a region in a bank (R420). -/
def bankFrame (n b f : Nat) : Nat := bankBase n b + 512 * f
/-- The Pool image in a bank (R420). -/
def bankPool (n b : Nat) : Nat := bankBase n b + 0x80000
/-- The essential-bit map in a bank (R420). -/
def bankMap (n b : Nat) : Nat := bankBase n b + 0x140000
/-- The CRC-32 of frame `f` in a bank's CRC table (R420). -/
def bankCrc (n b f : Nat) : Nat := bankBase n b + 0x1C0000 + 4 * f
/-- Physical address of a region image in the snapshot area (R421). -/
def imageBase (i : Nat) : Nat := 0x7A0000000 + 0x100000 * i

/-- A staging bank of a region. -/
def State.stage (s : State) (n b : Nat) : StageBank := s.cfg.banks.get (fun _ => {}) (2 * n + b)
/-- Set a staging bank. -/
def State.setStage (s : State) (n b : Nat) (x : StageBank) : State :=
  { s with cfg := { s.cfg with banks := s.cfg.banks.put (fun _ => {}) (2 * n + b) x } }
/-- The bank that matches a region's committed configuration (R399). -/
def State.activeBank (s : State) (n : Nat) : Nat := s.rd (cfgObj n) 1
/-- An entry of a bank's CRC table: the CRC-32 of a frame that the bank holds (R420). -/
def StageBank.crc (x : StageBank) (f : Nat) : BitVec 32 := Config.frameCrc x.staged f

/-- A run of Pool words (R383). -/
def poolRun (m : SMap Word) : Nat → List Word → SMap Word
  | _, [] => m
  | a, w :: l => poolRun (m.put (fun _ => Word.zero) a w) (a + 1) l

/-- Contents of a cluster's Pool in a list of Pool blocks. -/
def poolImage (k : Nat) (l : List Setting) : SMap Word :=
  l.foldl (fun m x => match x with
    | .poolData c base ws => if cn c = k then poolRun m base.val ws else m
    | _ => m) ⟨[]⟩

/-- The contents that a reset reloads a cluster's Pool with: those of the ACTIVE bank of its region (R70, R142). -/
def State.stagedPool (s : State) (k : Nat) : SMap Word := poolImage k (s.stage (k / 64) (s.activeBank (k / 64))).pool

/-- Words of a range whose array bits hold an error of a rank, by physical address (R254). -/
def State.knownErrs (s : State) (base size rank : Nat) : List Nat :=
  ((s.mem.errs.keysWhere (fun _ v => decide (v = rank))).map (fun k => s.memPhys (16 * k))).filter
    (fun p => decide (base ≤ p) && decide (p < base + size) && !s.wordOffline p)

/-- A part of the system area is written through port 35: its words hold new ciphertext (R229, R262). Account 9 stands for the area's
owner SEC. -/
def State.sysWrite (s : State) (base size : Nat) : State := { s.pcSweep 9 true base size with mem := (s.pcSweep 9 true base size).memZero base size }

/-- A part of the system area is read through port 35, and checked (R254, R262). -/
def State.sysRead (s : State) (base size : Nat) : State :=
  (s.pcSweep 9 false base size).readCheck 35 (s.knownErrs base size 1 ++ s.knownErrs base size 2)

/-- A read of a part of the system area returns POISON: a word of it has a double-bit error, or lies in an offline channel or a failed stack (R237,
R253, R256). -/
def State.sysPoison (s : State) (base size : Nat) : Bool :=
  !(s.knownErrs base size 2).isEmpty ||
    (List.range 64).any (fun c =>
      ((s.rd (ctlObj (c / 32)) 0xD).testBit (c % 32 / 2) || decide (s.rd (ctlObj (c / 32)) 1 = 4))
        && decide (blocksOf c (s.stackBelow (c / 32) base / 256) < blocksOf c ((s.stackBelow (c / 32) (base + size) + 255) / 256)))

/-- A region's frames, Pool image, essential-bit map and CRC table are written to a bank (R401 step 2, R420). -/
def State.stageBank (c : Container) (n b : Nat) (s : State) : State :=
  let mine := c.settings.filter (fun x => decide (x.regionNo = some n))
  let map := c.ebm.any (fun r => decide (rn r = n))
  let s1 := s.setStage n b { frames := mine.filter (fun x => !x.isPool), pool := mine.filter Setting.isPool, map := map, staged := s.dev.freeCtr }
  let s2 := ((s1.freeNext.sysWrite (bankFrame n b 0) 0x70000).sysWrite (bankPool n b) 0x88000).sysWrite (bankCrc n b 0) 0xE00
  if map then s2.sysWrite (bankMap n b) 0x5C400 else s2

/-- A bank's frames that a commit reads return POISON (R403): the first such frame, by its address. -/
def State.bankPoison (s : State) (n b : Nat) : Option Nat :=
  if s.sysPoison (bankFrame n b 0) 0x70000 then
    ((List.range 896).find? (fun f => s.sysPoison (bankFrame n b f) 512)).map (fun f => 1024 * n + f)
  else none

/-- Every bank that is to be committed is read; the address of the first frame that returns POISON (R403). -/
def State.banksPoison (s : State) (b : Nat → Nat) (ns : List Nat) : Option Nat := ns.findSome? (fun n => s.bankPoison n (b n))

/-- The banks that a commit writes sectors from are read (R401 step 7). -/
def State.banksRead (s : State) (b : Nat → Nat) (ns : List Nat) : State :=
  s.each (fun t n => (t.sysRead (bankFrame n (b n) 0) 0x70000).sysRead (bankPool n (b n)) 0x88000) ns

end Sys2Proof.Machine
end

