-- ==== Sys2Proof/Machine/Regions.lean ====
section
/-! DEFINITION. A region's return to its post-configuration state (R69), as operations: the request, the start and the reload,
which a region commit and a rollback share in part. The commands stand in FenceCmds.lean. -/

namespace Sys2Proof.Machine

/-- Clusters of a region, by cluster number. -/
def regionClusters (n : Nat) : List Nat := (List.range 64).map (fun c => n * 64 + c)

/-- A Prism at its configured state. -/
def FabSt.resetPrism (f : FabSt) (k : Nat) : FabSt :=
  match (f.prism k).cfg with
  | some g => f.setPrism k (initPrism g)
  | none => f

/-- A Pool at its configured state, with the contents reloaded (R69, R142). -/
def FabSt.resetPool (img : Nat → SMap Word) (f : FabSt) (k : Nat) : FabSt :=
  match (f.pool k).cfg with
  | some g => f.setPool k (initPool g (img k))
  | none => f

/-- Acknowledges and taken marks that belong to a region's own units and sinks. -/
def FabSt.resetAcks (f : FabSt) (n : Nat) : FabSt :=
  { f with
    acks := f.acks.dropKeys (fun k =>
      if k < 2 ^ 20 then decide (k / 16384 = n) else decide (k < 2 ^ 20 + 2 ^ 16) && decide ((k - 2 ^ 20) % 2 ^ 15 / 512 = n)),
    gAck := f.gAck.dropKeys (fun k => decide (k < 2 ^ 20) && decide (k / 256 = n)),
    taken := f.taken.filter (fun k =>
      if k < 2 ^ 16 then decide (k / 576 ≠ n)
      else if k < 2 ^ 17 then decide ((k - 2 ^ 16) / 128 ≠ n)
      else decide ((k - 2 ^ 17) / 16 ≠ n)) }

/-- Every unit of a region at its INIT state (R69 steps 3 to 5). A token in the region's own driving stations goes with the
region (R96); one in its receiving stations and Bisector buffers stays (R104). -/
def FabSt.initRegion (f : FabSt) (img : Nat → SMap Word) (n : Nat) : FabSt :=
  let f1 := (((f.initLus n).each FabSt.resetPrism (regionClusters n)).each (FabSt.resetPool img) (regionClusters n)).resetAcks n
  ({ f1 with arcTx := f1.arcTx.dropKeys (fun k => decide (k / 128 = n)) } : FabSt).settled

/-- Locus ports of a region, as die and port. -/
def regionLports (n : Nat) : List (Nat × Nat) := (List.range 4).map (fun j => (n / 32, 4 * (n % 32) + j))

/-- The write ports of a region lose their partly written items (R224). -/
def State.resetLports (s : State) (n : Nat) : State := (regionLports n).foldl (fun t p => t.resetWritePort p.1 p.2) s

/-- A region starts anew (R69 steps 3 to 5, R141, R147, R154, R224, R260, R417). -/
def State.regionAnew (s : State) (n : Nat) : State :=
  let s1 : State := { s with fab := s.fab.initRegion s.stagedPool n }
  let s2 := ((s1.resetLports n).resetMport n).checkUnits n
  (s2.wr (intObj n) 3 0).epoch n

/-- A region reset begins (R69 step 1, R70): RESET is set and the fence closes with FORCE. It takes its place behind the resets of its
die that have begun. -/
def State.resetBegin (s : State) (n : Nat) : State :=
  let s1 := if s.fenced n then s.modFence n (fun x => { x with resetFrom := s.now }) else s
  let s2 : State := { s1 with fab := { s1.fab with resets := s1.fab.resets.filter (fun m => decide (m ≠ n)) ++ [n] } }
  (s2.wr (regObj n) 7 2).fenceSet [n] 4 true

/-- A region reset is requested (R69 step 1): it waits while a snapshot or rollback of the region runs. A region that no load has
configured, or that GSR holds, is at its initial state. -/
def State.resetAsk (s : State) (n : Nat) : State :=
  if s.regState n ≤ 1 ∨ s.rd (regObj n) 7 = 1 ∨ s.rd (regObj n) 7 = 2 then s
  else if s.slotRuns n then s.wr (regObj n) 7 1
  else s.resetBegin n

/-- The region of a die whose turn it is (R70): the resets of one die run one after another, in the order in which they began
(notes/assumptions/165.md). A gated region, which cannot be reset before it wakes, keeps none waiting. -/
def State.resetTurn (s : State) (d : Nat) : Option Nat :=
  (s.fab.resets.filter (fun m => decide (m / 32 = d) && decide (s.rd (enObj m) 2 ≠ 3))).head?

/-- The next region of a die that is fenced already passes step 2 now. -/
def State.resetNext (s : State) (d : Nat) : State :=
  match s.resetTurn d with
  | some m => if s.fenced m then s.modFence m (fun x => { x with resetFrom := s.now }) else s
  | none => s

/-- A region's reset is over, or its device unconfigured: it leaves its die's order. -/
def State.resetLeave (s : State) (n : Nat) : State :=
  ({ s with fab := { s.fab with resets := s.fab.resets.filter (fun m => decide (m ≠ n)) } } : State).resetNext (n / 32)

/-- The reload of a fenced region (R69 steps 3 to 7). -/
def State.resetReload (s : State) (n : Nat) : State :=
  let t0 := (s.fab.fence n).resetFrom
  ((((s.regionAnew n).clearReason n 4).wr (regObj n) 7 3).raise 0x0D06 1 0 (locRegion n) [(24, 8, s.now - t0)]).resetLeave n

end Sys2Proof.Machine
end

