-- ==== Sys2Proof/Machine/Plan.lean ====
section
/-! DEFINITION. Planner items (R358 to R361, R365) as operations: posting, starting, ending, and the planner record. The planner's
commands stand in Planner.lean. -/

namespace Sys2Proof.Machine

/-- Object index of a planner item record (R365). -/
def itemObj (i : Nat) : Nat := 0x3410 + i

/-- An item's private part. -/
def State.item (s : State) (i : Nat) : ItemSt := s.led.items.get (fun _ => {}) i
/-- Set an item's private part. -/
def State.setItem (s : State) (i : Nat) (x : ItemSt) : State :=
  { s with led := { s.led with items := s.led.items.put (fun _ => {}) i x } }

/-- KIND of an item; 0 for an empty place. -/
def State.itemKind (s : State) (i : Nat) : Nat := s.rd (itemObj i) 1
/-- STATE of an item: 0 EMPTY, 1 WAITING, 2 RUNNING, 3 LATE. -/
def State.itemState (s : State) (i : Nat) : Nat := s.rd (itemObj i) 6
/-- An item has not started: WAITING or LATE. -/
def State.planWaits (s : State) (i : Nat) : Bool := decide (s.itemState i = 1) || decide (s.itemState i = 3)
/-- Latest start of an item: its deadline less its duration estimate (R359). -/
def State.itemLatest (s : State) (i : Nat) : Nat := s.rd (itemObj i) 5 - 1000 * s.rd (itemObj i) 4

/-- Places that hold an item that waits. -/
def State.waitingItems (s : State) : List Nat := (s.led.items.keysWhere (fun _ _ => true)).filter s.planWaits

/-- WAITING and NEXT_LATEST follow the items. -/
def State.planSync (s : State) : State :=
  let ws := s.waitingItems
  (s.wr 0x3400 1 ws.length).wr 0x3400 4 (match ws.map s.itemLatest with
    | [] => 0
    | a :: l => l.foldl min a)

/-- An item is posted at the lowest empty place (R358); the answer names it. Of a kind whose cost has been measured the estimate is
the block's own. With 256 items held the post is not made. -/
def State.planPost (s : State) (kind account cost duration earliest deadline ref : Nat) : Option (Nat × State) :=
  match (List.range 256).find? (fun i => decide (s.itemState i = 0)) with
  | none => none
  | some i =>
    let c := (s.led.nextCost.get (fun _ => none) kind).getD cost
    let s1 := s.wrs (itemObj i) [(1, kind), (2, account), (3, c % 2 ^ 32), (4, duration % 2 ^ 32), (5, deadline % 2 ^ 64),
      (6, if kind = 5 then 2 else 1)]
    let s2 := s1.setItem i { earliest := earliest, order := s1.led.posted + 1, ref := ref }
    some (i, ({ s2 with led := { s2.led with posted := s2.led.posted + 1 } } : State).planSync)

/-- An item's place, one of the planner's 256, is emptied. -/
def State.planRemove (s : State) (i : Nat) : State :=
  if i < 256 then ((s.wrs (itemObj i) [(1, 0), (2, 0), (3, 0), (4, 0), (5, 0), (6, 0)]).setItem i {}).planSync else s

/-- An item starts. -/
def State.planStart (s : State) (i : Nat) : State := (s.wr (itemObj i) 6 2).planSync

/-- Post an item of the configuration engine, whose cost the spec does not state before one has been measured. -/
def State.planPostFree (s : State) (kind account duration earliest deadline ref : Nat) : State :=
  let c := s.freeVal 32
  match s.freeNext.planPost kind account c duration earliest deadline ref with
  | some (_, t) => t
  | none => s.freeNext

/-- The next scrub pass of a die is posted (R412). Its duration estimate is the bound of R411. -/
def State.postScrub (s : State) (d : Nat) : State := s.planPostFree 1 9 4000 s.now (s.now + 1000000 * s.rd 0x2800 1) d

end Sys2Proof.Machine
end

