-- ==== Sys2Proof/Machine/Tokens.lean ====
section
/-! DEFINITION. Sebex as other blocks use it: the end of a token (R459), counters (R447, R448), OTP programming (R438), who may sign
(R440 to R442), and what the key and tamper states allow (R435, R467). Sebex's commands stand in Sebex.lean. -/

namespace Sys2Proof.Machine

/-- A domain's active token ends (R459), with event 0x0905. Causes: 0 expired, 1 revoked, 2 replaced, 3 domain reset, 4 tamper,
5 APEX_DEBUG condition lost. -/
def State.tokenEnd (s : State) (cause d : Nat) : State :=
  if s.rd (tokObj d) 4 = 1 then
    (s.wrs (tokObj d) [(4, 0), (5, 0), (6, 0)]).raise 0x0905 3 0 (tokObj d) [(20, 1, d), (21, 1, cause)]
  else s

/-- A token with APEX_DEBUG ends when a tenant domain gets a resource (R459). -/
def State.debugCheck (s : State) : State :=
  if (s.rd (tokObj 1) 5).testBit 2 ∧ s.rd (tokObj 1) 4 = 1 ∧ s.noTenant = false then s.tokenEnd 5 1 else s

/-- Fused value of a counter. -/
def State.ctrFused (s : State) (c : Nat) : Nat := s.sec.fused.get (fun _ => 0) c
/-- Pending value of a counter; 0 where it has none. -/
def State.ctrPending (s : State) (c : Nat) : Nat := s.sec.pendingCtr.get (fun _ => 0) c
/-- Value of a counter (R447). -/
def State.ctrValue (s : State) (c : Nat) : Nat := max (s.ctrFused c) (s.ctrPending c)

/-- The counter's objects follow it. -/
def State.ctrSync (s : State) (c : Nat) : State :=
  let m := s.rd 0x8020 0x41
  (s.wr 0x8020 (1 + c) (s.ctrValue c)).wr 0x8020 0x41 (if s.ctrPending c = 0 then clrBit m c else setBit m c)

/-- Fused bits of a counter. -/
def State.ctrFuse (s : State) (c v : Nat) : State :=
  ({ s with sec := { s.sec with fused := s.sec.fused.put (fun _ => 0) c (max v (s.ctrFused c)),
                                pendingCtr := if s.ctrPending c ≤ max v (s.ctrFused c) then s.sec.pendingCtr.put (fun _ => 0) c 0
                                              else s.sec.pendingCtr } } : State).ctrSync c

/-- VFUSE_PRESENT as the outcome of a programming shows it. -/
def State.vfuseSeen (s : State) (r : OtpResult) : State :=
  match r with
  | .vfuse => s.wr 0x8000 0xA 0
  | _ => s.wr 0x8000 0xA 1

/-- A raise is deferred (R448): the pending value, its retry time and event 0x0907. -/
def State.ctrDefer (s : State) (c v cause : Nat) : State :=
  let u : State := { s with sec := { s.sec with pendingCtr := s.sec.pendingCtr.put (fun _ => 0) c v,
                                                retryAt := s.sec.retryAt.put (fun _ => 0) c (s.now + 10 ^ 9) } }
  (u.ctrSync c).raise 0x0907 3 1 0x8020 [(20, 1, c), (21, 1, s.ctrFused c), (22, 1, v), (23, 1, cause)]

/-- A counter is to reach `v` (R448): its bits are programmed with event 0x0906, or the value is kept as pending with event
0x0907; a failure leaves the bits programmed so far. -/
def State.ctrRaise (s : State) (c v : Nat) (r : OtpResult) : State :=
  let old := s.ctrFused c
  if v ≤ s.ctrValue c then s
  else
    let t := s.vfuseSeen r
    match r with
    | .ok => (t.ctrFuse c v).raise 0x0906 3 0 0x8020 [(20, 1, c), (21, 1, old), (22, 1, v)]
    | .vfuse => t.ctrDefer c v 0
    | .temperature => (t.raise 0x0909 3 2 0x8000 [(20, 1, 5), (21, 1, 2)]).ctrDefer c v 1
    | .mismatch n =>
      ((t.ctrFuse c (min (old + n) (v - 1))).raise 0x0909 3 2 0x8000 [(20, 1, 5), (21, 1, 1)]).ctrDefer c v 1

end Sys2Proof.Machine
end

