-- ==== Sys2Proof/Machine/Domain.lean ====
section
/-! DEFINITION. The reset of a tenant domain (R322, R326, R415) from its step 3 on, as operations: what it takes back and restores,
and whether a running operation makes it wait. The commands stand in Reset.lean. -/

namespace Sys2Proof.Machine

/-- A partial load at its steps 4 to 10 targets a region (R405). -/
def State.commitRuns (s : State) (n : Nat) : Bool :=
  [0, 1].any (fun d => (decide (s.loadState d = 2) || decide (s.loadState d = 3)) && (s.load d).targets.contains n)

/-- Regions that a domain owns. -/
def State.domRegions (s : State) (owner : Nat) : List Nat := allRegions.filter (fun n => decide (s.regOwner n = owner))

/-- The reset of a domain waits (R322 step 2): a snapshot, rollback or commit of its regions runs. -/
def State.domainBusy (s : State) (owner : Nat) : Bool :=
  (s.domRegions owner).any (fun n => s.slotRuns n || s.commitRuns n)

/-- Images of a slot are given back and the slot is EMPTY (R427 to R429). -/
def State.slotEmpty (s : State) (k : Nat) : State :=
  let x := s.slot k
  ((s.wr 0x2800 2 (s.rd 0x2800 2 + x.images.length)).setSlot k { x with images := [] }).wrs (slotObj k) [(8, 0), (9, 0), (0xA, 0)]

/-- A slot is named by the GATE_SLOT of a region (R429). -/
def State.gateSlot (s : State) (k : Nat) : Bool := allRegions.any (fun n => decide (s.regState n ≠ 0) && decide (s.rd (enObj n) 6 = k))

/-- A slot's claim is released (R35). -/
def State.slotRelease (s : State) (k : Nat) : State :=
  (s.slotEmpty k).wrs (slotObj k) [(1, 0), (2, 0xFF), (3, 0), (4, 0), (5, 0), (6, 0)]

/-- A posted self-test is withdrawn (R535, R541); a sequencer that has begun with it is free again. -/
def State.testWithdraw (s : State) (k : Nat) : State :=
  let r := testObj k
  let d := testDie (s.rd r 3) (s.rd r 4)
  let t := if s.rd 0x7000 (1 + d) = k then s.wr 0x7000 (1 + d) 0xFF else s
  ((t.planRemove (t.tst.slots.get (fun _ => {}) k).item).wrs r [(8, 0), (9, 0), (0xA, 0)]).raise 0x0801 3 0 r
    [(20, 1, t.rd r 3), (24, 2, t.rd r 4)]

/-- A test slot's test ends for a reason: a running one INCOMPLETE, a posted one withdrawn (R541). -/
def State.testEnd (s : State) (reason k : Nat) : State :=
  if s.rd (testObj k) 8 = 1 then s.testWithdraw k else s.testCut reason k

/-- A test slot's claim is released. -/
def State.testRelease (s : State) (k : Nat) : State := s.wrs (testObj k) [(1, 0), (2, 0xFF)]

/-- A queue's settings return to their manifest values (R223). -/
def State.queueConfigured (s : State) (p : Nat × Nat) : State :=
  let o := queueObj p.1 p.2
  s.wrs o ([9, 0xA, 0xB, 0xE, 0xF].map (fun sub => (sub, s.manVal o sub)))

/-- Engines and rings of a PF and its VFs are stopped and released, its TDIs unlocked (R322 step 3). -/
def State.pfRelease (s : State) (f : Nat) : State :=
  let s1 := s.each (fun t e => if t.rd (engObj e) 2 ≠ 0xFFFF ∧ t.rd (engObj e) 2 / 256 = f then t.engRelease e else t) (List.range 64)
  let s2 := s1.each (fun t r => if t.rd (ringObj r) 2 ≠ 0xFFFF ∧ t.rd (ringObj r) 2 / 256 = f then t.ringRelease r else t)
    (List.range 256)
  s2.each (fun t v =>
    let code := 256 * f + v
    ({ t with host := { t.host with tdiStream := t.host.tdiStream.put (fun _ => 0) code 0 } } : State).setTdi code 0) (List.range 33)

/-- Steps 4 to 7 of a domain's reset begin (R322): regions, islands, lanes, queues, ports, windows and pins; the domain's slots,
token and self-tests (R429, R459, R541). -/
def State.domainReset (s : State) (owner : Nat) : State :=
  let mine := s.domRegions owner
  let s1 := s.each State.resetAsk mine
  let s2 := s1.each State.chanReset (mine.filter (fun n => decide (n < 32)))
  let s3 := islands.foldl (fun t i => if t.rd (islObj i.die.val i.i.val) 1 = owner then t.islandOff i 1 else t) s2
  let s4 := s3.each (fun t k => if t.rd (laneObj k) 1 = owner then t.rayReset k else t) (List.range 16)
  let s5 := (s4.queuesOf owner).foldl (fun t p => (t.flushStart p.1 p.2 1).queueConfigured p) s4
  let s6 := s5.each State.resetMport mine
  let s7 := s6.each (fun t w => if t.rd (winObj w) 1 = owner ∧ t.rd (winObj w) 6 = 1 then t.zeroStart w true else t) (List.range 64)
  let s8 := s7.pinsDomainReset owner
  let s9 := s8.each (fun t k =>
    if t.rd (slotObj k) 2 = owner then (if t.gateSlot k then t.slotEmpty k else t.slotRelease k) else t) (List.range 64)
  (s9.tokenEnd 3 owner).each (fun t k => if t.rd (testObj k) 2 = owner then (t.testEnd 2 k).testRelease k else t) testSlots

/-- A waiting reset of a PF goes on once nothing makes it wait (R322 steps 3 to 7). -/
def State.domainGo (s : State) (f : Nat) : State :=
  if s.rd (pfObj f) 6 = 1 ∧ s.domainBusy (funcDomain (256 * f)) = false then
    ((s.wr (pfObj f) 6 2).pfRelease f).domainReset (funcDomain (256 * f))
  else s

/-- Every waiting reset goes on where it may: called when a snapshot, rollback or commit has ended. -/
def State.domainsGo (s : State) : State := s.each (fun t n => t.domainGo (n + 1)) (List.range 8)

end Sys2Proof.Machine
end

