-- ==== Sys2Proof/Machine/Slots.lean ====
section
/-! DEFINITION. Region images (R422, R423), the start and end of snapshots and rollbacks (R424 to R430), and the policy of an
essential flip (R414), as operations. The commands stand in Integrity.lean. -/

namespace Sys2Proof.Machine

/-- Entries of a map whose keys satisfy a condition. -/
def SMap.entries {α : Type} (m : SMap α) (p : Nat → Bool) : List (Nat × α) := m.cells.filter (fun c => p c.1)

/-- Entries put back in place of those whose keys satisfy a condition. -/
def SMap.restore {α : Type} [DecidableEq α] (d : Nat → α) (m : SMap α) (p : Nat → Bool) (l : List (Nat × α)) : SMap α :=
  l.foldl (fun a c => a.put d c.1 c.2) (m.dropKeys p)

/-- Key of an acknowledge of a region's own sources, its site bit outputs apart. -/
def ackOf (n k : Nat) : Bool :=
  if k < 2 ^ 20 then decide (k / 16384 = n) else decide (k < 2 ^ 20 + 2 ^ 16) && decide ((k - 2 ^ 20) % 2 ^ 15 / 512 = n)

/-- Key of an acknowledge of a region's gathers. -/
def gAckOf (n k : Nat) : Bool := decide (k < 2 ^ 20) && decide (k / 256 = n)

/-- Key of a region's word sink. -/
def sinkOf (n k : Nat) : Bool :=
  if k < 2 ^ 16 then decide (k / 576 = n) else if k < 2 ^ 17 then decide ((k - 2 ^ 16) / 128 = n) else decide ((k - 2 ^ 17) / 16 = n)

/-- Bisector channels that a region receives (R100, R423). -/
def bisReceived (n : Nat) : List Nat :=
  (List.range 128).filter (fun k => decide ((bisReceiver (decide (k < 64)) (k % 64)).1 = n))
/-- Bisector channels that a region sends. -/
def bisSent (n : Nat) : List Nat := (List.range 128).filter (fun k => decide ((bisSender (decide (k < 64)) (k % 64)).1 = n))

/-- Annulus port of a region. -/
def regionMport (n : Nat) : Nat := 64 * (n / 32) + n % 32

/-- Words of the first response that remain to be delivered. -/
def headWords : List Word → Nat
  | [] => 0
  | w :: l => if w.last then 1 else 1 + headWords l

/-- The READs and WRITE_ACKs whose responses have not all entered the region (R260, R422), oldest first: of a READ whose first words
have, the rest; a WRITE_ACK whose acknowledgement stands already, as that acknowledgement. -/
def State.owedReqs (s : State) (n : Nat) : List MemReq :=
  let k := regionMport n
  let x := s.mport k
  let out := s.portOut k ++ x.resp
  let h := x.hist.drop (x.hist.length - x.owed (s.portOut k))
  let done := (out.filter (fun w => w.last)).length
  let acks := (out.filter (fun w => w.last)).map (fun w => w.poison)
  let slots := x.slots.map (fun m => m.words.any (fun w => w.poison))
  let h1 := match h with
    | r :: l => if r.op = 0 ∧ 0 < done then { r with offset := r.offset + (r.len + 1 - headWords out), len := headWords out - 1 } :: l else r :: l
    | [] => []
  let known := acks ++ slots
  ((List.range h1.length).zip h1).filterMap (fun p =>
    let r := p.2
    if r.op = 0 then some r
    else if r.op = 2 then (match known[p.1]? with
      | some b => some { r with op := 4, data := [], bad := b }
      | none => some { r with data := [] })
    else none)

/-- The image of a fenced region (R422, R423). -/
def State.saveImage (s : State) (n : Nat) : ImageSt :=
  { lus := s.fab.lus.entries (fun u => decide (u / 16384 = n)),
    prisms := s.fab.prisms.entries (fun c => decide (c / 64 = n)),
    pools := s.fab.pools.entries (fun c => decide (c / 64 = n)),
    acks := s.fab.acks.entries (ackOf n),
    gAck := s.fab.gAck.entries (gAckOf n),
    taken := s.fab.taken.filter (sinkOf n),
    arcTx := s.fab.arcTx.entries (fun k => decide (k / 128 = n)),
    arcRx := s.fab.arcRx.entries (fun k => decide (k / 128 = n)),
    bis := (bisReceived n).map (fun k => (k, (s.fab.bisCh k).buf)),
    reads := (regionLports n).map (fun p => (p.2, s.fab.siteOut.get (fun _ => []) (n * 16 + portSlot p.2))),
    ports := (regionLports n).map (fun p =>
      (p.2, if (s.portItem p.1 p.2).isSome then { tag := none, drop := some 1 } else s.lport p.1 p.2)),
    reqs := s.owedReqs n }

/-- The fabric part of an image is written back (R426 step 5). Credits of the region's Bisector channels follow R423. A rollback is
neither a configuration nor a reset, so event 0x0D05 that an LU has raised stays raised (R48). -/
def FabSt.loadImage (f : FabSt) (n : Nat) (i : ImageSt) : FabSt :=
  let f1 := { f with
    lus := f.lus.restore (fun _ => {}) (fun u => decide (u / 16384 = n))
      (i.lus.map (fun (c : Nat × LuSt) => (c.1, { c.2 with codeRaised := (f.lu c.1).codeRaised }))),
    prisms := f.prisms.restore (fun _ => {}) (fun c => decide (c / 64 = n)) i.prisms,
    pools := f.pools.restore (fun _ => {}) (fun c => decide (c / 64 = n)) i.pools,
    acks := f.acks.restore (fun _ => false) (ackOf n) i.acks,
    gAck := f.gAck.restore (fun _ => false) (gAckOf n) i.gAck,
    taken := i.taken ++ f.taken.filter (fun k => !sinkOf n k),
    arcTx := f.arcTx.restore (fun _ => none) (fun k => decide (k / 128 = n)) i.arcTx,
    arcRx := f.arcRx.restore (fun _ => none) (fun k => decide (k / 128 = n)) i.arcRx }
  let f2 := f1.each (fun g k =>
    let b := (g.bisCh k).buf ++ (g.bisCh k).flight
    g.setBis k { credit := 16 - b.length, flight := [], creditFlight := 0, buf := b }) (bisSent n)
  f2.each (fun g c => g.setBis c.1 { credit := 16 - c.2.length, flight := [], creditFlight := 0, buf := c.2 }) i.bis

/-- A request that the port answers again after a rollback (R260): a WRITE_ACK returns its acknowledgement alone, poisoned where
R238 or R253 poisoned that write. -/
def againReq (r : MemReq) : MemReq := if r.op = 2 then { r with op := 4, bad := false, data := [] } else r

/-- Recorded requests as a port takes them again: a READ is a new request, a WRITE_ACK the one that was recorded. -/
def renumber : Nat → List MemReq → List MemReq
  | _, [] => []
  | i, r :: l => (if r.op = 0 then { r with seq := i } else r) :: renumber (i + 1) l

/-- One region is restored from its image (R426 steps 4 and 5): a start point (R147, R154). -/
def State.restoreRegion (s : State) (c : Nat × ImageSt) : State :=
  let n := c.1
  let i := c.2
  let s1 := (s.resetLports n).resetMport n
  let s2 : State := { s1 with fab := (s1.fab.loadImage n i).settled }
  let s3 := i.ports.foldl (fun t p => t.setLport (n / 32) p.1 p.2) s2
  let s4 := i.reads.foldl (fun t p =>
    { t with fab := { t.fab with siteOut := t.fab.siteOut.put (fun _ => []) (n * 16 + portSlot p.1) p.2 } }) s3
  let k := regionMport n
  let x := s4.mport k
  let again := renumber x.nextSeq i.reqs
  let s5 := s4.setMport k { x with reqs := x.reqs ++ again.map againReq, hist := again, nextSeq := x.nextSeq + again.length }
  ((s5.wr (intObj n) 3 0).epoch n).drainPort k

/-- Reason bit of the operation that runs on a slot: SNAPSHOT or ROLLBACK. -/
def slotBit (st : Nat) : Nat := if st = 2 then 2 else 3

/-- Images of the snapshot area that slots hold or have reserved (R421). -/
def State.usedImages (s : State) : List Nat := s.cfg.slots.cells.flatMap (fun c => c.2.images.map (fun i => i.2.place) ++ c.2.reserved)

/-- The lowest free images of the snapshot area (notes/assumptions/183.md). -/
def State.freeImages (s : State) (k : Nat) : List Nat := freeSpots s.usedImages (s.usedImages.length + k) 0 k

/-- A snapshot of a set starts (R424 steps 1 and 2): one image is reserved for each member. -/
def State.snapStart (s : State) (k : Nat) (members : List Nat) (force gate : Bool) : State :=
  let st := s.rd (slotObj k) 8
  let s1 := s.setSlot k { s.slot k with members := members, startedAt := s.now, prior := st, policy := false, gate := gate,
                                        reserved := s.freeImages members.length }
  ((s1.wr (slotObj k) 8 2).wr 0x2800 2 (s.rd 0x2800 2 - members.length)).fenceSet members 2 force

/-- Regions that a slot's images hold. -/
def SlotSt.held (x : SlotSt) : List Nat := x.images.map (fun c => c.1)

/-- A rollback of a VALID slot starts (R426 steps 1 and 2). -/
def State.rollStart (s : State) (k : Nat) (policy gate : Bool) : State :=
  let x := s.slot k
  let s1 := s.setSlot k { x with members := x.held, startedAt := s.now, prior := 1, policy := policy, gate := gate }
  (s1.wr (slotObj k) 8 3).fenceSet x.held 3 true

/-- Event 0x0202 of a region's frame (R432). -/
def State.flipEvent (s : State) (a : FlipAct) (policy extra : Nat) : State :=
  s.raise 0x0202 1 2 (locRegion a.region)
    [(20, 2, a.frame), (22, 2, a.bit), (24, 1, policy), (25, 1, extra), (28, 4, a.clean)]

/-- An action is held. -/
def State.actHold (s : State) (a : FlipAct) : State := { s with cfg := { s.cfg with acts := s.cfg.acts ++ [a] } }

/-- The POLICY of a corrected essential flip is taken (R414). An action waits for a load of its region (R405), for a snapshot into
its slot (R428), and for the snapshot ports of its slot's members (R38). -/
def State.policyAct (s : State) (a : FlipAct) : State :=
  let n := a.region
  if a.policy = 0 then (s.wr (intObj n) 3 1).flipEvent a 0 a.extra
  else if s.loadBefore n then s.actHold { a with extra := 2 }
  else if a.policy = 1 then
    let k := s.rd (intObj n) 2
    let st := s.rd (slotObj k) 8
    let x := s.slot k
    if 64 ≤ k then (s.flipEvent a 1 1).resetAsk n
    else if st = 2 then s.actHold a
    else if st = 3 ∧ x.members.contains n = true then s.flipEvent a 1 a.extra
    else if st = 1 ∧ x.held.contains n = true then
      (if x.held.any (fun m => s.slotRuns m || s.loadOn m) then s.actHold a
       else (s.flipEvent a 1 a.extra).rollStart k true false)
    else (s.flipEvent a 1 1).resetAsk n
  else (s.flipEvent a 2 a.extra).resetAsk n

/-- Held actions run where they may. -/
def State.actsGo (s : State) : State :=
  (s.cfg.acts.filter (fun a => decide (a.region < 64))).foldl State.policyAct { s with cfg := { s.cfg with acts := [] } }

/-- What waits for a snapshot, rollback or load to end goes on (R322, R405, R428). -/
def State.waitsGo (s : State) : State := s.domainsGo.actsGo

/-- Reason bits of a slot's operation are cleared on its members. -/
def State.slotOpen (s : State) (k bit : Nat) : State := s.each (fun t n => t.clearReason n bit) (s.slot k).members

/-- A snapshot ends before its step 6 (R425): the slot keeps its contents and STATE. -/
def State.snapFail (s : State) (k cause loc : Nat) : State :=
  let x := s.slot k
  let s1 := (s.wrs (slotObj k) [(8, x.prior), (0xB, 0x0206)]).wr 0x2800 2 (s.rd 0x2800 2 + x.members.length)
  (((s1.slotOpen k 2).setSlot k { x with members := [], gate := false, reserved := [] }).raise 0x0206 3 1 (slotObj k)
    [(20, 1, cause), (24, 4, loc)]).waitsGo

/-- A snapshot's set may be copied: every member is FENCED with SNAPSHOT set. -/
def State.slotFenced (s : State) (k bit : Nat) : Bool :=
  (s.slot k).members.all (fun n => s.fenced n && (s.reasons n).testBit bit)

/-- The close of a snapshot's step 2 reset a channel (R425). -/
def State.snapForced (s : State) (k : Nat) : Bool :=
  let x := s.slot k
  x.members.any (fun n => decide (x.startedAt ≤ (s.fab.fence n).closedAt) && decide ((s.fab.fence n).lost ≠ 0))

/-- Account that a slot's items are charged to (R430). -/
def State.slotAccount (s : State) (k : Nat) : Nat := accountOf (heldOwner (s.rd (slotObj k) 2) 0xFF)

/-- The next scheduled snapshot of a slot is posted (R430); its duration estimate is the bound of R425. -/
def State.snapPost (s : State) (k : Nat) : State :=
  let p := 1000000 * s.rd (slotObj k) 6
  let t := s.rd (slotObj k) 9
  if p = 0 then s
  else s.planPostFree 2 (s.slotAccount k) (150 * (s.slot k).held.length) (t + p / 2) (t + p) k

/-- TAKEN of a snapshot (R424 step 3): the moment from which every member is FENCED. -/
def State.snapTaken (s : State) (k : Nat) : Nat :=
  let x := s.slot k
  x.members.foldl (fun a n => max a (s.fab.fence n).closedAt) x.startedAt

/-- Reason bit that keeps a gated region's fence closed from the end of its copy (R72) to its wake (R364). The spec names none:
SNAPSHOT is cleared when the copy ends, and no bit stands for gating. The model takes LEDGER_HALT, the bit of the block that switches the
rail (DESIGN CHOICE, notes/assumptions/74.md). -/
def gateBit : Nat := 5

/-- LEDGER_HALT stays on a region for a reason other than its gating: a rail fault, or the action HALT of its account. -/
def State.haltKept (s : State) (n : Nat) : Bool :=
  s.led.faulted.contains n || decide (s.rd (accObj (accountOf (s.regOwner n))) 0xC = 3)

/-- The gating of a region ends: what kept its fence closed is cleared. -/
def State.gateOpen (s : State) (n : Nat) : State := if s.haltKept n then s else s.clearReason n gateBit

/-- The images of a list of regions, at the places reserved for them. -/
def State.saveImages (s : State) : List Nat → List Nat → List (Nat × ImageSt)
  | [], _ => []
  | n :: l, ps => (n, { s.saveImage n with place := ps.headD 0 }) :: s.saveImages l ps.tail

/-- A copied snapshot takes effect (R424 steps 6 and 7). For power gating the fence stays closed, by its own reason (R364). -/
def State.snapDone (s : State) (k : Nat) : State :=
  let x := s.slot k
  let flags := (s.snapForced k).toNat <<< 1 ||| (x.members.any (fun n => decide (s.rd (intObj n) 3 = 1))).toNat
  let imgs := s.saveImages x.members x.reserved
  let s1 := ((s.each (fun t i => t.sysWrite (imageBase i) 0x100000) x.reserved).wrs (slotObj k) [(8, 1), (9, s.snapTaken k), (0xA, flags), (0xB, 0x0205)]).wr 0x2800 2 (s.rd 0x2800 2 + x.images.length)
  let s2 := (if x.gate then s1.fenceSet x.members gateBit true else s1).slotOpen k 2
  let s3 := s2.setSlot k { x with images := imgs, members := [], gate := false, reserved := [] }
  let s4 := s3.raise 0x0205 3 0 (slotObj k) [(20, 1, x.members.length), (21, 1, flags), (24, 8, s.now - x.startedAt)]
  let s5 := if x.gate then s4.meterFold.each (fun t n => (t.setHop n {}).wr (enObj n) 2 3) x.members else s4.snapPost k
  s5.waitsGo

/-- The first image of a slot whose read returns POISON, as its region and cause 1 of event 0x0208 (R427). -/
def State.imagePoison (s : State) (k : Nat) : Option (Nat × Nat) :=
  ((s.slot k).images.find? (fun i => s.sysPoison (imageBase i.2.place) 0x100000)).map (fun i => (i.1, 1))

/-- A rollback's images are written back (R426 steps 4 to 6). -/
def State.rollDone (s : State) (k : Nat) : State :=
  let x := s.slot k
  let s1 := x.images.foldl State.restoreRegion (s.each (fun t i => t.sysRead (imageBase i) 0x100000) (x.images.map (fun i => i.2.place)))
  let s2 := (s1.wrs (slotObj k) [(8, 1), (0xB, 0x0207)]).slotOpen k 3
  let s3 := if x.gate then s2.each State.gateOpen x.members else s2
  ((s3.setSlot k { x with members := [], gate := false }).raise 0x0207 3 0 (slotObj k)
    [(20, 1, x.members.length), (21, 1, x.policy.toNat), (24, 8, s.rd (slotObj k) 9)]).waitsGo

/-- An image fails (R427): no member's state is written, every member is reset inside the closed fence, and the slot is EMPTY. -/
def State.rollFail (s : State) (k cause loc : Nat) : State :=
  let x := s.slot k
  let s1 := s.each State.resetBegin x.members
  let s2 := s1.slotOpen k 3
  let s3 := if x.gate then s2.each State.gateOpen x.members else s2
  let s4 := ((s3.setSlot k { x with members := [], gate := false }).slotEmpty k).wr (slotObj k) 0xB 0x0208
  (s4.raise 0x0208 3 2 (slotObj k) [(20, 1, cause), (24, 4, loc)]).waitsGo

/-- A slot that holds a region becomes STALE (R429), or what it held before a snapshot that still runs does. Causes: 0 partial commit,
1 owner change. -/
def State.slotStale (s : State) (n cause k : Nat) : State :=
  if s.rd (slotObj k) 8 = 1 ∧ (s.slot k).held.contains n = true then
    (s.wr (slotObj k) 8 4).raise 0x0209 3 0 (slotObj k) [(20, 1, cause), (24, 4, locRegion n)]
  else if s.rd (slotObj k) 8 = 2 ∧ (s.slot k).prior = 1 ∧ (s.slot k).held.contains n = true then s.setSlot k { s.slot k with prior := 4 }
  else s

/-- Slots that hold a region become STALE. -/
def State.slotsStale (s : State) (n cause : Nat) : State := s.each (fun t k => t.slotStale n cause k) (List.range 64)

end Sys2Proof.Machine
end

