-- ==== Sys2Proof/Machine/Loads.lean ====
section
/-! DEFINITION. How loads end (R402, R405), how a domain reset begins (R322), and what a frame read back wrong does (R409 to R419), as
operations. The commands stand in Reset.lean, Integrity.lean and Load.lean. -/

namespace Sys2Proof

/-- Target regions of a container (R378). -/
def Container.targets (c : Container) : List Nat :=
  Machine.maskBits 32 c.targetD0.toNat ++ (Machine.maskBits 32 c.targetD1.toNat).map (fun r => 32 + r)

/-- MANIFEST_FA of a container (R377); none for a partial load of periphery groups alone, for which no rule states it. -/
def Container.fa (c : Container) : Option Nat :=
  if c.full then some 0x0380 else (c.targets.head?).map (fun n => n * 1024)

end Sys2Proof

namespace Sys2Proof.Machine

/-- MANIFEST_FA of a die's load, where the model has it; else an open value. -/
def State.loadFa (s : State) (d : Nat) : Nat := ((s.load d).cont.bind Container.fa).getD (s.freeVal 16)

/-- CONFIG is cleared on the targets that were configured before the load and are not DAMAGED (R402, R387, R419). -/
def State.configOpen (s : State) (d : Nat) : State :=
  s.each (fun t n => if t.regState n ≠ 0 ∧ t.rd (intObj n) 4 = 0 then t.clearReason n 1 else t) (s.load d).targets

/-- A load ends without a commit (R402): LOAD_STATE REJECTED, LOAD_RESULT the code of the event that ended it. -/
def State.loadFail (s : State) (d code : Nat) : State :=
  let s1 := if s.loadState d = 1 then s else s.configOpen d
  ((s1.wrs (loadObj d) [(5, 5), (6, code)]).setLoad d {}).waitsGo

/-- Event 0x010C (R407). Causes: 0 quiesce, 1 domain reset, 2 reconfiguration, 3 tamper, 4 new stream. -/
def State.loadAbandon (s : State) (cause d : Nat) : State :=
  let fa := s.loadFa d
  let s1 := if ((s.load d).cont.bind Container.fa).isSome then s else s.freeNext
  (s1.raise 0x010C 3 1 (loadObj d) [(20, 1, cause), (22, 2, fa)]).loadFail d 0x010C

/-- The reset of a tenant PF's domain begins (R322 steps 1 and 2): a load of the domain that is still staging is abandoned, a running
operation is waited for. -/
def State.domainAsk (s : State) (f : Nat) : State :=
  if s.resetting f then s
  else
    let s1 := (s.wr (pfObj f) 6 1)
    let s2 := { s1 with host := { s1.host with resets := s1.host.resets.put (fun _ => none) f (some s.now) } }
    let s3 := s2.each (fun t d =>
      if t.loadState d = 1 ∧ (t.load d).owner = funcDomain (256 * f) then t.loadAbandon 1 d else t) [0, 1]
    s3.domainGo f

/-- Owner of a periphery group of a die (R369): MGT where the resource that it configures has none. -/
def State.groupOwner (s : State) (d g : Nat) : Nat :=
  let o := if g < 20 then s.rd (pinObj (20 * d + g)) 1
    else if g < 28 then s.rd (laneObj (8 * d + (g - 20))) 1
    else s.rd (islObj d (g - 28)) 1
  if 8 ≤ o ∧ o ≤ 15 then o else 1

end Sys2Proof.Machine

namespace Sys2Proof

/-- Region number of a frame address (R367). -/
def FrameFault.region (f : FrameFault) : Nat := f.addr.toNat / 1024
/-- Frame within the region. -/
def FrameFault.frame (f : FrameFault) : Nat := f.addr.toNat % 1024
/-- The address names a configuration frame, which scrubbing reads (R368, R408). -/
def FrameFault.isConfig (f : FrameFault) : Bool := decide (f.frame < 736)
/-- The address names a periphery frame. -/
def FrameFault.isPeriph (f : FrameFault) : Bool := decide (896 ≤ f.frame) && decide (f.region % 32 < 8)
/-- Periphery group that the address names (R369). -/
def FrameFault.group (f : FrameFault) : Nat := (f.region % 32 * 128 + (f.frame - 896)) / 32

end Sys2Proof

namespace Sys2Proof.Machine

/-- Object index of a die's scrub record (R431). -/
def scrubObj (d : Nat) : Nat := 0x2810 + d

/-- Wrong bits of a frame that count as essential (R413). -/
def State.essentials (s : State) (f : FrameFault) : List Nat :=
  (f.bits.filter (fun b => b.2 || decide (s.rd (intObj f.region) 5 = 0))).map (fun b => b.1)

/-- The check that the ACTIVE staging copy of a frame fails (R418 step 2, R419): 0 its GCM tag, as where Sebex has no package key, 1 its CRC, 2
POISON; none where it passes. -/
def State.copyFault (s : State) (f : FrameFault) : Option Nat :=
  if !f.isPeriph && s.sysPoison (bankFrame f.region (s.activeBank f.region) f.frame) 512 then some 2
  else if s.sec.packageKey then f.copyFault else some (f.copyFault.getD 0)

/-- A frame that cannot be corrected is repaired from its staging copy, event 0x0203, or its copy fails, event 0x0204 (R418, R419).
The answer says whether it has been repaired. -/
def State.frameRepair (s : State) (src : Nat) (f : FrameFault) : State × Bool :=
  if f.correctable then (s, true)
  else
    let s0 := if f.isPeriph then s else s.sysRead (bankFrame f.region (s.activeBank f.region) f.frame) 512
    let s1 := s0.bump (scrubObj (f.region / 32)) 6 4 1
    match s.copyFault f with
    | none => (s1.raise 0x0203 1 2 src [(20, 2, f.addr.toNat), (22, 1, f.cause)], true)
    | some c => (s1.raise 0x0204 1 3 src [(20, 2, f.addr.toNat), (22, 1, c)], false)

/-- A configuration frame of a region read back wrong (R409, R414, R418, R419): the state after its correction; the action that its
POLICY calls for, unless the frame was read inside a rollback (R426); and whether it was essential or uncorrectable. -/
def State.configFrame (s : State) (roll : Bool) (f : FrameFault) : State × Option FlipAct × Bool :=
  let n := f.region
  let d := n / 32
  match s.frameRepair (locRegion n) f with
  | (t, false) => ((t.wr (intObj n) 4 1).fenceSet [n] 1 true, none, true)
  | (t, true) =>
    let t1 := t.bump (intObj n) 6 4 f.bits.length
    match s.essentials f with
    | [] => ((t1.bump (scrubObj d) 4 4 1).windowed 0x0201 1 0 (locDie d) 1 0, none, !f.correctable)
    | b :: l =>
      let t2 := t1.bump (scrubObj d) 5 4 (l.length + 1)
      let a : FlipAct := { region := n, policy := s.rd (intObj n) 1, frame := f.addr.toNat, bit := b, clean := f.lastCleanUs.toNat, extra := 0 }
      if roll then (t2.flipEvent a 3 0, none, true) else (t2, some a, true)

/-- A periphery frame read back wrong (R415). -/
def State.periphFrame (s : State) (f : FrameFault) : State :=
  let d := f.region / 32
  match s.frameRepair (locDie d) f with
  | (t, false) => t
  | (t, true) =>
    let owner := s.groupOwner d f.group
    let reset := decide (s.rd (scrubObj d) 8 = 1) && decide (8 ≤ owner) && decide (owner ≤ 15)
    let t1 := (t.bump (scrubObj d) 7 4 f.bits.length).raise 0x0202 1 2 (locDie d)
      [(20, 2, f.addr.toNat), (22, 2, match f.bits with | b :: _ => b.1 | [] => 0), (24, 1, if reset then 5 else 4),
       (28, 4, f.lastCleanUs.toNat)]
    if reset then t1.domainAsk (owner - 7) else t1

/-- A pass of the scrubber reads a region (R411). -/
def State.scrubbed (s : State) (n : Nat) : Bool :=
  (decide (s.regState n = 2) || decide (s.regState n = 3) || decide (s.regState n = 4)) && !s.slotRuns n
    && !((s.load 0).targets.contains n && decide (s.loadState 0 = 3)) && !((s.load 1).targets.contains n && decide (s.loadState 1 = 3))

/-- Frames that a scrub pass of a die finds wrong (R411, R414, R415). -/
def State.scrubFaults (s : State) (d : Nat) : List FrameFault → State
  | [] => s
  | f :: l =>
    let t :=
      if f.bits = [] ∨ f.region / 32 ≠ d then s
      else if f.isConfig && s.scrubbed f.region then
        let s1 := { s with cfg := { s.cfg with scrubDirty := f.region :: s.cfg.scrubDirty } }
        match s1.configFrame false f with
        | (u, some a, _) => u.policyAct a
        | (u, none, _) => u
      else if f.isPeriph then s.periphFrame f
      else s
    t.scrubFaults d l

/-- Frames of a set of regions that a snapshot or rollback checks: the state, the actions to take and the first region with an
essential or uncorrectable flip. -/
def State.checkFrames (s : State) (roll : Bool) (members : List Nat) : List FrameFault → State × List FlipAct × Option Nat
  | [] => (s, [], none)
  | f :: l =>
    if f.isConfig && members.contains f.region && !f.bits.isEmpty then
      match s.configFrame roll f with
      | (t, a, bad) =>
        match t.checkFrames roll members l with
        | (u, as, b) => (u, a.toList ++ as, if bad then some f.region else b)
    else s.checkFrames roll members l

end Sys2Proof.Machine
end

