-- ==== Sys2Proof/Machine/Integrity.lean ====
section
/-! DEFINITION. Scrub passes, snapshots and rollbacks as commands (R408 to R432). What a readback, an image read or its decryption finds
is an operand of the command (notes/assumptions/5.md). -/

namespace Sys2Proof.Machine

/-- A scrub pass of a die begins with its planner item (R411, R412). -/
def State.scrubStart (s : State) (d : Nat) (faults : List FrameFault) : State :=
  ({ s with cfg := { s.cfg with scrubStart := s.cfg.scrubStart.set d (s.now + 1),
                                scrubDirty := s.cfg.scrubDirty.filter (fun n => decide (n / 32 ≠ d)) } } : State).scrubFaults d faults

/-- SCRUB_PASS_END (R411, R412, R431): the pass's counts, LAST_CLEAN of the regions that it read clean, and the next pass posted. -/
def execScrubPassEnd (die : Fin 2) (s : State) : Result :=
  let d := die.val
  match s.cfg.scrubStart.getD d 0 with
  | 0 => .next s
  | t0 + 1 =>
    let s1 := (s.tally (scrubObj d) 1 1).wrs (scrubObj d) [(2, s.now), (3, min (2 ^ 32 - 1) ((s.now - t0) / 1000))]
    let clean := (dieRegions d).filter (fun n => s.scrubbed n && !s.cfg.scrubDirty.contains n)
    let s2 := s1.each (fun t n => t.wr (intObj n) 7 t.now) clean
    .next (({ s2 with cfg := { s2.cfg with scrubStart := s2.cfg.scrubStart.set d 0 } } : State).postScrub d)

/-- An accepted write of OP (R424, R426). -/
def State.slotOp (s : State) (k v : Nat) : State :=
  if v = 1 then s.snapStart k (s.slotSet k) (decide (s.rd (slotObj k) 5 = 1)) false else s.rollStart k false false

/-- SNAPSHOT (R424): a write of 1 to OP. -/
def execSnapshot (q : Req) (k : Fin 64) (v : BitVec 8) (s : State) : Result :=
  s.writing q (slotObj k.val) 7 1 v.toNat (fun t => t.slotOp k.val v.toNat)

/-- ROLLBACK (R426): a write of 2 to OP. -/
def execRollback (q : Req) (k : Fin 64) (v : BitVec 8) (s : State) : Result :=
  s.writing q (slotObj k.val) 7 1 v.toNat (fun t => t.slotOp k.val v.toNat)

/-- SNAPSHOT_COPY (R424 steps 3 to 7, R425): with every member FENCED the configuration is checked and the parts of R422 are
copied. A flip or POISON abandons the snapshot. -/
def execSnapshotCopy (k : Fin 64) (faults : List FrameFault) (poison : Option Region) (s : State) : Result :=
  if s.rd (slotObj k.val) 8 = 2 ∧ s.slotFenced k.val 2 = true then
    match s.checkFrames false (s.slot k.val).members faults with
    | (t, acts, some n) => .next (acts.foldl State.policyAct (t.snapFail k.val 1 (locRegion n)))
    | (t, _, none) =>
      match poison with
      | some r => if (s.slot k.val).members.contains (rn r) then .next (t.snapFail k.val 2 (locRegion (rn r))) else .next (t.snapDone k.val)
      | none => .next (t.snapDone k.val)
  else .next s

/-- ROLLBACK_RESTORE (R426 steps 3 to 6, R427): with every member FENCED the images and the configuration are checked, and either
every member is restored or every member is reset. `badImage` names a member whose image fails, true for POISON. -/
def execRollbackRestore (k : Fin 64) (faults : List FrameFault) (badImage : Option (Region × Bool)) (s : State) : Result :=
  if s.rd (slotObj k.val) 8 = 3 ∧ s.slotFenced k.val 3 = true then
    match s.checkFrames true (s.slot k.val).members faults with
    | (t, _, _) =>
      let found := badImage.bind (fun b => if (s.slot k.val).members.contains (rn b.1) then some (rn b.1, b.2.toNat) else none)
      match found.orElse (fun _ => t.imagePoison k.val) with
      | some (n, cause) => .next (t.rollFail k.val cause (locRegion n))
      | none => .next (t.rollDone k.val)
  else .next s

end Sys2Proof.Machine
end

