-- ==== Sys2Proof/Machine/FenceCmds.lean ====
section
/-! DEFINITION. The commands of regions and fences (R69 to R79): region reset, user closes, and the steps of a close. -/

namespace Sys2Proof.Machine

/-- RESET_CTRL_WRITE (R69 step 1, R78). -/
def execResetCtrlWrite (q : Req) (r : Region) (v : BitVec 8) (s : State) : Result :=
  s.writing q (regObj (rn r)) 6 1 v.toNat (fun t => t.resetAsk (rn r))

/-- REGION_RESET_START (R69 step 1): a waiting reset begins once no snapshot or rollback of the region runs. -/
def execRegionResetStart (r : Region) (s : State) : Result :=
  let n := rn r
  if s.rd (regObj n) 7 = 1 ∧ s.slotRuns n = false then .next (s.resetBegin n) else .next s

/-- REGION_RESET_RELOAD (R69 steps 3 to 7), when the region's turn has come (R70). -/
def execRegionResetReload (r : Region) (s : State) : Result :=
  let n := rn r
  if s.rd (regObj n) 7 = 2 ∧ s.fenced n = true ∧ s.resetTurn (n / 32) = some n then .next (s.resetReload n) else .next s

/-- An accepted write of FENCE_CTRL (R72, R78): REQ 01 sets USER, with FORCE [2]; REQ 10 clears it. -/
def State.fenceCtrl (s : State) (n v : Nat) : State :=
  if v % 4 = 1 then s.fenceSet [n] 0 (v.testBit 2) else if v % 4 = 2 then s.clearReason n 0 else s

/-- FENCE_SET_USER (R72, R73). -/
def execFenceSetUser (q : Req) (r : Region) (force : Bool) (s : State) : Result :=
  let v := 1 + 4 * force.toNat
  s.writing q (regObj (rn r)) 3 1 v (fun t => t.fenceCtrl (rn r) v)

/-- FENCE_CLEAR_USER (R72, R76). -/
def execFenceClearUser (q : Req) (r : Region) (force : Bool) (s : State) : Result :=
  let v := 2 + 4 * force.toNat
  s.writing q (regObj (rn r)) 3 1 v (fun t => t.fenceCtrl (rn r) v)

/-- BORDER_CHANNEL_CLOSE (R73 steps 2 to 4): a border channel of a closing region is held at rest; with the last one the region hold
is asserted. A closed inbound channel hides from the region the token that its sender goes on offering (notes/assumptions/164.md). -/
def execBorderChannelClose (r : Region) (ch : BitVec 32) (s : State) : Result :=
  let n := rn r
  let c := ch.toNat
  let x := s.fab.fence n
  if s.regState n = 3 ∧ (s.borderChannels x.members n).contains c = true ∧ x.closed.contains c = false ∧ s.chanAtRest c = true then
    let t := (s.modFence n (fun y => { y with closed := c :: y.closed })).checkHold n
    .next { t with fab := t.fab.settled }
  else .next s

/-- A held LU has still to empty, release or follow its inputs (R73 step 4, R74). -/
def State.luMoves (s : State) (u : Nat) : Bool :=
  let x := s.fab.lu u
  match x.cfg with
  | none => false
  | some c =>
    match c.mode with
    | 0 => x.full && s.fab.ack (.lu u) && s.fab.drRest u c
    | 1 => x.full && s.fab.ack (.lu u) && (s.fab.requests u c).all (fun b => !b)
    | 2 =>
      let i := s.fab.index u c
      let v := if c.f.getLsbD i && !c.g.getLsbD i then true else if c.g.getLsbD i && !c.f.getLsbD i then false else x.oF
      v != x.oF
    | _ => (x.oF && !s.fab.mxReq u c 0) || (x.oG && !s.fab.mxReq u c 1)

/-- Every LU of a region has settled. -/
def State.lusSettled (s : State) (n : Nat) : Bool :=
  (s.fab.lus.keysWhere (fun u _ => decide (u / 16384 = n))).all (fun u => !s.luMoves u)

/-- REGION_SETTLED (R73 step 5, R77): a held region has settled; the set is FENCED once every member has. -/
def execRegionSettled (r : Region) (s : State) : Result :=
  let n := rn r
  let x := s.fab.fence n
  if s.regState n = 3 ∧ x.hold = true ∧ x.settled = false ∧ s.lusSettled n = true then
    let t := s.modFence n (fun y => { y with settled := true })
    .next (if t.allSettled x.members then t.each State.becomeFenced (t.closingOf x.members) else t)
  else .next s

/-- One border channel is reset on both sides to rest: the tokens it carried are lost (R75, R104). A Bisector channel loses the token
that Span offers it with what it has in flight and in its buffer; a site channel's cell is reset (R182); a Locus write channel loses
its partly written item (R224). -/
def State.chanForce (s : State) (ch : Nat) : State :=
  let n := chanRegion ch
  let side := fieldAt ch 12 2
  let i := ch % 64
  match ch >>> 28, ch.testBit 11 with
  | 1, _ => { s with fab := s.fab.forceChan ch }
  | 2, true => { s with fab := s.fab.forceChan ch }
  | 2, false =>
    let f := match s.fab.take (sinkArc n side (if n < 32 then i % 16 else 16 + i % 16)) with
      | some (_, f) => f
      | none => s.fab
    { s with fab := f.forceChan ch }
  | 3, true => (s.forceCells n 3 i 1).dropOut n i
  | 3, false =>
    let t := ({ s with fab := match s.fab.take (sinkSite n i) with | some (_, f) => f | none => s.fab } : State).forceCells n 3 i 0
    if 8 ≤ i ∧ i < 12 then t.resetWritePort (n / 32) (4 * (n % 32) + (i - 8)) else t
  | _, true =>
    let f := { s.fab with siteBit := s.fab.siteBit.put (fun _ => none) (n * 32 + i) none,
                          acks := s.fab.acks.put (fun _ => false) (BSrc.site n i).key false }
    ({ s with fab := f.settled } : State).forceCells n 4 i 1
  | _, false => ({ s with fab := (s.fab.takeBit n i).getD s.fab } : State).forceCells n 4 i 0

/-- A forced close of one member (R75, R77): the channels that are not at rest are reset, the others close, and the hold is asserted,
with event 0x0D04. -/
def State.forceOne (s : State) (n : Nat) : State :=
  let rest := s.restless n
  let chans := s.borderChannels (s.fab.fence n).members n
  let s1 := rest.foldl State.chanForce s
  let s2 := s1.modFence n (fun y => { y with closed := chans, hold := true, forcedClose := true, lost := y.lost + rest.length })
  (s2.bump (regObj n) 9 4 rest.length).raise 0x0D04 1 1 (locRegion n) [(20, 2, s.reasons n), (22, 2, rest.length), (24, 4, lowest rest)]

/-- The agents of an abandoned close learn of it (R72, R402, R425): a load ends with event 0x010C, a snapshot with event 0x0206. -/
def State.abandonHooks (s : State) (members : List Nat) (bits : Nat) : State :=
  let s1 := if bits.testBit 1 then
      s.each (fun t d => if t.loadState d = 2 ∧ (t.load d).targets.any (fun n => members.contains n) = true then t.loadAbandon 0 d else t) [0, 1]
    else s
  if bits.testBit 2 then
    s1.each (fun t k =>
      match (t.slot k).members.find? (fun n => members.contains n) with
      | some n => if t.rd (slotObj k) 8 = 2 then t.snapFail k 0 (locRegion n) else t
      | none => t) (List.range 64)
  else s1

/-- QUIESCE_TIMEOUT_EXPIRY (R75, R77): the close of the region's set has run for its quiesce timeout: it is abandoned, or forced
under FORCE. -/
def execQuiesceTimeoutExpiry (r : Region) (s : State) : Result :=
  let n := rn r
  let x := s.fab.fence n
  if s.regState n = 3 ∧ x.start + 1000 * x.timeout ≤ s.now ∧ x.forcedClose = false then
    let ms := s.closingOf x.members
    if x.force then .next (s.each State.forceOne ms)
    else
      let bits := (ms.map s.abandonBits).foldl (fun a b => a ||| b) 0
      .next ((s.each State.abandonOne ms).abandonHooks ms bits)
  else .next s

end Sys2Proof.Machine
end

