-- ==== Sys2Proof/Machine/Reconf.lean ====
section
/-! DEFINITION. The device before and between full loads (R386 step 4, R389, R398), as operations: the blank state, the start of a full
load, its fallback and failure (R388, R395), and a reconfiguration that waits for the tenant domains' resets. The commands stand in
Load.lean and Reset.lean. -/

namespace Sys2Proof.Machine

/-- Steps 3 to 7 of a domain's reset are complete (R322): its regions are reset, its queues flushed, its windows zeroed. -/
def State.resetOver (s : State) (owner : Nat) : Bool :=
  (s.domRegions owner).all (fun n => decide (s.rd (regObj n) 7 ≠ 1) && decide (s.rd (regObj n) 7 ≠ 2))
    && (s.queuesOf owner).all (fun p => decide (s.qo p.1 p.2 2 ≠ 3))
    && s.mem.zeroing.all (fun z => decide (s.rd (winObj z.1) 1 ≠ owner) || !z.2.1)

/-- Step 8 of a domain's reset (R322): the mailbox and the MSI-X tables of the PF and its VFs are reset, and event 0x0505 raised. -/
def State.flrFinish (s : State) (p : Nat) : State :=
  let t0 := (s.host.resets.get (fun _ => none) p).getD s.now
  let s1 := { s with host := { s.host with resets := s.host.resets.put (fun _ => none) p none } }
  let s2 := (List.range 33).foldl (fun t v => { t with out := t.out.msixReset (256 * p + v) }) (s1.setBox p {})
  (s2.wr (pfObj p) 6 3).raise 0x0505 5 0 (256 * p) [(20, 1, 0), (24, 4, (s.now - t0) / 1000)]

/-- A reset of a PF whose steps 3 to 7 are complete ends. -/
def State.flrEnd (s : State) (p : Nat) : State :=
  if s.rd (pfObj p) 6 = 2 ∧ s.resetOver (funcDomain (256 * p)) = true then s.flrFinish p else s

/-- Objects that describe the configured fabric, its queues, windows and ports, and the delegations of the running full load: they
return to their defaults when the device becomes unconfigured (R389, R398, R434). Counts since power-on reset stay. -/
def blankObj (idx sub : Nat) : Bool :=
  (decide (0xC100 ≤ idx) && decide (idx < 0xC180)) || (decide (0xC300 ≤ idx) && decide (idx < 0xC340))
    || (decide (0xC400 ≤ idx) && decide (idx < 0xC440)) || decide (idx = 0xC001) || decide (idx = 0xC002)
    || (decide (0xA100 ≤ idx) && decide (idx < 0xA180) && decide (sub ≠ 8))
    || (decide (0xB000 ≤ idx) && decide (idx < 0xB900)) || (decide (0x4100 ≤ idx) && decide (idx < 0x4164))
    || (decide (0x4200 ≤ idx) && decide (idx < 0x4240)) || (decide (0x2900 ≤ idx) && decide (idx < 0x2940))
    || (decide (0x8100 ≤ idx) && decide (idx < 0x8108))

/-- A user island is held in reset, its loop stopped and released (R392 step 1). -/
def State.islandHeld (s : State) (i : Island) : State :=
  ((s.wrs (islObj i.die.val i.i.val) [(2, 0), (3, 0), (6, 0)]).wr (loopObj (islandLoop i)) 2 0).wr (loopObj (islandLoop i)) 3 0xFF

/-- A slot is emptied by a reconfiguration (R429); an operation that runs on it stops. -/
def State.slotStop (s : State) (k : Nat) : State :=
  let x := s.slot k
  let s1 := if s.rd (slotObj k) 8 = 2 then s.wr 0x2800 2 (s.rd 0x2800 2 + x.members.length) else s
  if s.rd (slotObj k) 8 = 0 then s else (s1.setSlot k { x with members := [], gate := false, reserved := [] }).slotEmpty k

/-- The device becomes unconfigured (R389, R398 step 3, R524, R527): GSR is asserted, every region is UNCONFIGURED and every
sector blank, no queue or window is in use, pins are high-impedance, islands held, lanes idle, slots EMPTY. CONFIG holds every fence (R387); TAMPER
stays (R72).
Writes already taken complete; a window being zeroed is zero. -/
def State.unconfigure (s : State) : State :=
  let s1 := s.meterFold.each (fun t n => (t.finishWrites n).resetMport n) allRegions
  let s2 := s1.mem.zeroing.foldl (fun (t : State) (z : Nat × Bool × Nat) => { t with mem := t.memZero (t.rd (winObj z.1) 2) (t.rd (winObj z.1) 3) }) s1
  let s3 := s2.each State.cellsAnew allRegions
  let s4 := islands.foldl State.islandHeld s3
  let s5 := s4.each State.laneOff (List.range 16)
  let s6 := s5.each State.slotStop (List.range 64)
  let s7 := s6.each (fun t i => if t.itemKind i = 1 ∨ t.itemKind i = 2 then t.planRemove i else t) (List.range 256)
  let s8 := s7.each (fun t p => (t.wr (pinObj p) 8 0).setPad p {}) allPins
  let s9 : State := { s8 with
    od := s8.od.dropKeys (fun k => blankObj (k / 256) (k % 256)),
    fab := {}, loc := {},
    mem := { s8.mem with zeroing := [] },
    cell := { s8.cell with resetting := ⟨[]⟩ },
    cfg := { s8.cfg with fullHash := 0, measures := ⟨[]⟩, loads := ⟨[]⟩, acts := [], scrubStart := [0, 0], scrubDirty := [], accepting := false, reconfig := none },
    pin := { s8.pin with enabled := false },
    dev := { s8.dev with doneLow := true } }
  let s10 := s9.wrs 0x2000 [(1, 0), (3, 0xFF), (6, 0), (7, 0), (0xA, 0)]
  ((s10.wr 0xC000 3 0).each (fun t n => t.wr (regObj n) 4 (2 + 128 * ((s.reasons n).testBit 7).toNat)) allRegions).mapAll

/-- The device reads its containers from flash (R371). -/
def State.fromFlash (s : State) : Bool := decide (s.dev.mode = 0) || decide (s.dev.mode = 3)
/-- The host gives the device its containers. -/
def State.fromHost (s : State) : Bool := decide (s.dev.mode = 1) || decide (s.dev.mode = 4)

/-- Step 4 of R386 waits: for an external low on CFG_INIT_N, for TAMPER_ACK under TAMPER_HOLD (R468), or since the start-up test of
the entropy source failed and no package key exists (R464). -/
def State.step4Waits (s : State) : Bool :=
  s.dev.extInitLow || (decide (s.rd 0x8050 1 = 2) && (s.rd 0x8000 6).testBit 1)
    || (decide (s.rd 0x8000 8 = 2) && !s.sec.packageKey && decide (s.rd 0x8000 3 ≠ 3))

/-- Loading begins, with event 0x0101 (R386 step 4, R371, R395): of a flash image, from the host, or from Kimbe. -/
def State.loadStart (s : State) : State :=
  let img := if s.fromFlash then (if s.rd 0x2000 4 < 4 then s.rd 0x2000 4 else 0) else 0xFF
  let s1 : State := { s.wr 0x2000 1 1 with
    dev := { s.dev with bootHeld := false, initLow := false, doneLow := true }, cfg := { s.cfg with tried := img } }
  s1.raise 0x0101 3 0 0x2000
    [(20, 1, if s.fromFlash then 0 else if s.fromHost then 1 else 2), (21, 1, img), (22, 2, 0x0380)]

/-- Step 4 of R386, where nothing makes it wait. A reserved MODE has no source (R371). -/
def State.step4Go (s : State) : State :=
  if s.dev.bootHeld && !s.step4Waits && decide (s.dev.mode < 5) then s.loadStart else s

/-- Step 4 of R386 is reached: Apex runs and both stacks are trained. -/
def State.step4 (s : State) : State := ({ s with dev := { s.dev with bootHeld := true } } : State).step4Go

/-- The Annulus of both dies runs (R256, R386 step 3). -/
def State.annulusUp (s : State) : Bool :=
  [0, 1].all (fun d => decide (s.rd (ctlObj d) 1 = 1) || decide (s.rd (ctlObj d) 1 = 2) || decide (s.rd (ctlObj d) 1 = 3))

/-- STATE becomes FAILED (R388). -/
def State.loadDead (s : State) : State :=
  { s.wr 0x2000 1 5 with dev := { s.dev with initLow := true, doneLow := true } }

/-- An image has failed (R395): from flash another image than 0 falls back to image 0 with event 0x0104, else STATE becomes FAILED.
Causes: 0 verification, 1 acceptance, 2 DONE timeout. -/
def State.imageFailed (s : State) (cause : Nat) : State :=
  let img := s.cfg.tried
  if s.fromFlash ∧ img ≠ 0 ∧ img < 4 then
    let s1 := (s.bump 0x2000 0xB 4 1).raise 0x0104 3 1 0x2000 [(20, 1, img), (21, 1, cause), (22, 2, 0x0380)]
    let s2 : State := { s1.wr 0x2000 1 1 with
      cfg := { s1.cfg with tried := 0 }, dev := { s1.dev with initLow := false, doneLow := true } }
    s2.raise 0x0101 3 0 0x2000 [(20, 1, 0), (21, 1, 0), (22, 2, 0x0380)]
  else s.loadDead

/-- A full load is in progress: a container is being fetched or received. -/
def State.fullRuns (s : State) : Bool :=
  decide (s.rd 0x2000 1 = 1) &&
    (s.fromFlash || (decide (s.dev.mode = 2) && s.mgt.cfgTaking) || (s.fromHost && decide (s.loadState 0 = 1)))

/-- The load record of a full load from the host, which is die 0's (R374), ends in a state with its result. -/
def State.hostLoadEnd (s : State) (st code : Nat) : State :=
  if s.fromHost ∧ s.loadState 0 = 1 then (s.wrs (loadObj 0) [(5, st), (6, code)]).setLoad 0 {} else s

/-- No container of the chain is being taken. -/
def State.notTaking (s : State) : State := { s with mgt := { s.mgt with cfgTaking := false } }

/-- A full load in progress is abandoned with event 0x010C. -/
def State.fullAbandon (s : State) (cause : Nat) : State :=
  if s.fullRuns then
    let s1 := s.raise 0x010C 3 1 0x2000 [(20, 1, cause), (22, 2, 0x0380)]
    (s1.hostLoadEnd 5 0x010C).notTaking
  else s

/-- The full load, and the partial loads at steps 1 to 5 of R401, are abandoned. -/
def State.allAbandon (s : State) (cause : Nat) : State :=
  (s.fullAbandon cause).each (fun t d => if t.loadState d = 1 ∨ t.loadState d = 2 then t.loadAbandon cause d else t) [0, 1]

/-- A reconfiguration goes on (R398 steps 3 and 4) once every tenant domain has been reset and no commit runs. -/
def State.reconfigGo (s : State) : State :=
  match s.cfg.reconfig with
  | none => s
  | some c =>
    if (List.range 8).any (fun n => s.resetting (n + 1)) || [0, 1].any (fun d => decide (s.loadState d = 3)) then s
    else
      let s1 := (s.allAbandon 2).unconfigure.raise 0x0111 3 1 0x2000 [(20, 1, c)]
      if s1.fwUp && s1.annulusUp then s1.step4 else s1

/-- A reconfiguration is asked for (R398). Causes: 0 CFG_PROG_N, 1 RESTART, 2 acceptance. -/
def State.reconfigAsk (s : State) (cause : Nat) : State :=
  if s.cfg.reconfig.isSome then s
  else
    let s1 := s.allAbandon 2
    let s2 := { s1 with cfg := { s1.cfg with reconfig := some cause } }
    let s3 := s2.each (fun t n => (t.domainAsk (n + 1)).flrEnd (n + 1)) (List.range 8)
    s3.reconfigGo

end Sys2Proof.Machine
end

