-- ==== Sys2Proof/Machine/Reset.lean ====
section
/-! DEFINITION. Resets of tenant domains and the release of PERST_N (R296, R322). -/

namespace Sys2Proof.Machine

/-- FUNCTION_LEVEL_RESET_PF (R322): the host resets PF(n + 1), and with it domain Tn. -/
def execFunctionLevelResetPf (n : Fin 8) (s : State) : Result :=
  if s.hostUp (n.val + 1) then .next (s.domainAsk (n.val + 1)) else .next s

/-- DOMAIN_RESET (R322, R331): MGT resets the domain of a tenant PF. -/
def execDomainReset (q : Req) (f : Fin 9) (v : BitVec 8) (s : State) : Result :=
  s.writing q (pfObj f.val) 5 1 v.toNat (fun t => t.domainAsk f.val)

/-- FLR_DONE (R322 step 8): the mailbox is reset and event 0x0505 raised; a reconfiguration that waits for it goes on (R398). -/
def execFlrDone (f : Func) (s : State) : Result :=
  let p := f.f.val
  if f.v.val = 0 ∧ s.rd (pfObj p) 6 = 2 ∧ s.resetOver (funcDomain (256 * p)) = true then .next (s.flrFinish p).reconfigGo
  else .next s

/-- PERST_N_RELEASE (R296, R537): the port begins to get ready and to train; a self-test of the PHY ends. -/
def execPerstNRelease (s : State) : Result :=
  if s.dev.por ∨ s.dev.perstLow = false then .next s
  else
    let t := { s with dev := { s.dev with perstLow := false }, host := { s.host with released := some s.now } }
    .next (t.unitRequest (unitKey 4 0))

end Sys2Proof.Machine
end

