-- ==== Sys2Proof/Machine/LoadCfg.lean ====
section
/-! DEFINITION. What a container configures (R368, R369, R378 to R383, R387, R450), as operations: its settings in the fabric, its records in
the object dictionary, and the configuration that the device would hold after its commit. The checks of R384 look at that
configuration (LoadCheck.lean); the commits take it over (Load.lean). -/

namespace Sys2Proof

/-- Target periphery groups of a die (R378). -/
def Container.groups (c : Container) (d : Nat) : Nat := if d = 0 then c.periphD0.toNat else c.periphD1.toNat

/-- A pin's periphery group is a target (R369). -/
def Container.hasPin (c : Container) (p : Nat) : Bool := (c.groups (p / 20)).testBit (p % 20)

/-- A setting lies in a target of its container. -/
def Container.holds (c : Container) (x : Setting) : Bool :=
  match x with
  | .pinFunc p _ => c.hasPin p.val
  | _ => match x.regionNo with
    | some n => c.targets.contains n
    | none => false

/-- A container carries the record of an index. -/
def Container.carries (c : Container) (idx : Nat) : Bool := c.records.any (fun r => decide (r.1 = idx))

end Sys2Proof

namespace Sys2Proof.Machine

/-- A setting of the fabric takes its place; the others are objects. R82, R89 and R90 list the codes 0x3FF, 0xFFF and 0x1FF as reserved and
name no code of a disabled select: in an outbound channel, a sideband select and a Span select they stand for a disabled one (DESIGN
CHOICE, notes/assumptions/162.md). -/
def FabSt.putSetting (f : FabSt) : Setting → FabSt
  | .lu u c => f.setLu (un u) (initLu c)
  | .chordOut c b code => { f with chordOut := f.chordOut.put (fun _ => 0x3FF) (cn c * 32 + b.val) code.toNat }
  | .gatherSide c g k code => { f with gatherSide := f.gatherSide.put (fun _ => 0x3FF) ((cn c * 4 + g.val) * 4 + k.val) code.toNat }
  | .wordSel c sink code => { f with wordSel := f.wordSel.put (fun _ => 15) (cn c * 9 + sink.val) code.val }
  | .spanBitIn c b code => { f with spanBitIn := f.spanBitIn.put (fun _ => 0xFFF) (cn c * 32 + b.val) code.toNat }
  | .spanBitSite r slot code => { f with spanBitSite := f.spanBitSite.put (fun _ => 0xFFF) (rn r * 32 + slot.val) code.toNat }
  | .spanWordIn c w code => { f with spanWordIn := f.spanWordIn.put (fun _ => 0x1FF) (cn c * 4 + w.val) code.toNat }
  | .spanWordArc r side seg code =>
    { f with spanWordArc := f.spanWordArc.put (fun _ => 0x1FF) (rn r * 128 + side.val * 32 + seg.val) code.toNat }
  | .spanWordSite r slot code => { f with spanWordSite := f.spanWordSite.put (fun _ => 0x1FF) (rn r * 16 + slot.val) code.toNat }
  | .prism c p => f.setPrism (cn c) (initPrism p)
  | .pool c ctrl => f.setPool (cn c) (initPool ctrl (f.pool (cn c)).data)
  | .poolData c base ws =>
    f.setPool (cn c) { f.pool (cn c) with data := poolRun (f.pool (cn c)).data base.val ws }
  | .drive r side mask => { f with drive := f.drive.put (fun _ => 0) (rn r * 4 + side.val) mask.toNat }
  | .site _ _ _ => f
  | .pinFunc _ _ => f

/-- A region's configuration is blank (R387): every sink disabled, every unit inert. Words that stand in its receiving stations and at
its sites stay. -/
def FabSt.blank (f : FabSt) (n : Nat) : FabSt :=
  { f with
    lus := f.lus.dropKeys (fun u => decide (u / 16384 = n)),
    chordOut := f.chordOut.dropKeys (fun k => decide (k / 2048 = n)),
    gatherSide := f.gatherSide.dropKeys (fun k => decide (k / 1024 = n)),
    drive := f.drive.dropKeys (fun k => decide (k / 4 = n)),
    wordSel := f.wordSel.dropKeys (fun k => decide (k / 576 = n)),
    spanBitIn := f.spanBitIn.dropKeys (fun k => decide (k / 2048 = n)),
    spanBitSite := f.spanBitSite.dropKeys (fun k => decide (k / 32 = n)),
    spanWordIn := f.spanWordIn.dropKeys (fun k => decide (k / 256 = n)),
    spanWordArc := f.spanWordArc.dropKeys (fun k => decide (k / 128 = n)),
    spanWordSite := f.spanWordSite.dropKeys (fun k => decide (k / 16 = n)),
    prisms := f.prisms.dropKeys (fun c => decide (c / 64 = n)),
    pools := f.pools.dropKeys (fun c => decide (c / 64 = n)) }

/-- A committed value that manifests and periphery frames carry. -/
def State.setMan (s : State) (idx sub v : Nat) : State :=
  { s with cfg := { s.cfg with manifest := s.cfg.manifest.put odDefault (oa idx sub) v } }

/-- A setting takes its place. FUNC of a pin becomes the pin's configured value; the pin itself switches at startup or at step 8. -/
def State.putSetting (s : State) (x : Setting) : State :=
  match x with
  | .site d k cfg => s.wr (siteObj d.val k.val) 1 cfg.toNat
  | .pinFunc p code => s.setMan (pinObj p.val) 2 code.toNat
  | y => { s with fab := s.fab.putSetting y }

/-- A region's frames are blank. -/
def State.blankRegion (s : State) (n : Nat) : State :=
  let s1 := { s with fab := s.fab.blank n }
  (s1.wr (siteObj (n / 32) (2 * (n % 32))) 1 0).wr (siteObj (n / 32) (2 * (n % 32) + 1)) 1 0

/-- Subindices that a record of an index carries (R380): those marked "manifest", the owner of a region, and the five counts of object
0xC002. -/
def recordSubs (idx : Nat) : List Nat :=
  if 0xC100 ≤ idx ∧ idx < 0xC140 then [1]
  else if idx = 0xC002 then [1, 2, 3, 4, 5]
  else if 0x6010 ≤ idx ∧ idx < 0x6038 then [1, 3, 4, 5, 6]
  else ((objRowsAt idx).filter (fun r => r.man)).flatMap (fun r => (List.range (r.s1 + 1 - r.s0)).map (fun i => r.s0 + i))

/-- The subindex of a record that holds its owner, where it has one. -/
def ownerSub (idx : Nat) : Option Nat :=
  if (0xC100 ≤ idx ∧ idx < 0xC140) ∨ (0xA040 ≤ idx ∧ idx < 0xA048) ∨ (0xB100 ≤ idx ∧ idx < 0xB500) ∨ (0x4200 ≤ idx ∧ idx < 0x4240)
      ∨ (0x5810 ≤ idx ∧ idx < 0x5820) ∨ (0x58C0 ≤ idx ∧ idx < 0x58C2) ∨ (0x5300 ≤ idx ∧ idx < 0x5340) ∨ (0x6010 ≤ idx ∧ idx < 0x6038)
    then some 1
  else if 0x4100 ≤ idx ∧ idx < 0x4164 then some 2
  else none

/-- A record's values take their place (R380). The owner that a window had before it fell out of use is kept (R451). A queue whose record is carried is in use (R564); a window with an owner is OPEN. -/
def State.putRecord (s : State) (r : Nat × List (Nat × Nat)) : State :=
  let unused (p : Nat × Nat) : Bool := decide (0x4200 ≤ r.1) && decide (r.1 < 0x4240) && decide (p = (1, 0xFF))
  let s1 := r.2.foldl (fun t p => if unused p then t.wr r.1 p.1 p.2 else (t.wr r.1 p.1 p.2).setMan r.1 p.1 p.2) s
  if 0xB100 ≤ r.1 ∧ r.1 < 0xB500 then (if s1.rd r.1 2 = 0 then s1.wr r.1 2 1 else s1)
  else if 0x4200 ≤ r.1 ∧ r.1 < 0x4240 then (if s1.rd r.1 0xA = 2 then s1 else s1.wr r.1 0xA (if s1.rd r.1 1 = 0xFF then 0 else 1))
  else s1

/-- Objects that a full load returns to their defaults before its records take effect (R380): those of R389 and the other resource
records. Counts since power-on reset, measured values, and the states of hardware that runs on stay. -/
def fullObj (idx sub : Nat) : Bool :=
  let within (a b : Nat) (l : List Nat) : Bool := decide (a ≤ idx) && decide (idx < b) && l.contains sub
  blankObj idx sub
    || within 0xA010 0xA029 [4, 5, 6] || within 0xA040 0xA048 [1, 2, 3, 4, 6] || within 0x4000 0x4001 [1, 2, 3]
    || within 0x5800 0x5801 [1, 2] || within 0x5810 0x5820 [1, 3, 4, 5, 6, 7, 8, 10, 11, 12]
    || (decide (0x5840 ≤ idx) && decide (idx < 0x5850) && decide (sub ≠ 2)) || within 0x5880 0x5890 [1, 2, 3, 4, 5, 6]
    || within 0x58C0 0x58C2 [1, 2, 3, 4, 5] || within 0x5300 0x5340 [1, 3, 4] || within 0x3000 0x3001 [1, 3, 4, 5, 6, 7, 11]
    || within 0x3010 0x301A [1, 2, 3, 4, 5, 6, 7, 9, 10, 12] || within 0x3100 0x3140 [1, 3, 4, 5, 6, 7]
    || (decide (idx = 0x1040) && decide (sub ≠ 0)) || within 0x6008 0x600C [1, 4] || within 0x6010 0x6038 [1, 2, 3, 4, 5, 6, 9, 10]
    || (decide (idx = 0x6000) && decide (sub = 1))

/-- Owners that follow from others (R189, R450): a user site has the owner of its region. -/
def State.siteOwners (s : State) : State :=
  s.each (fun t k => t.wr (0xA100 + k) 2 (t.regOwner (k / 2))) (List.range 128)

/-- READ_QUEUE of every Locus port: the queue whose kind 1 consumer it is (R208, R226). -/
def State.readQueues (s : State) : State :=
  let inUse (d : Nat) : List Nat := (List.range 512).filter (fun q => decide (s.qo d q 2 ≠ 0))
  s.each (fun t k =>
    let d := k / 128
    let p := k % 128
    t.wr (lportObj d p) 5 (((inUse d).find? (fun q => decide (s.qo d q 4 = 0x1000 + p))).getD 0xFFFF))
    (List.range 256)

/-- On-die words and descriptors of a die that no queue reserves (R226). -/
def State.locusFree (s : State) : State :=
  s.each (fun t d =>
    let used (sub : Nat) : Nat := ((List.range 512).map (fun q => if t.qo d q 2 = 0 then 0 else t.qo d q sub)).foldl (· + ·) 0
    t.wrs (0xB000 + d) [(1, 131072 - used 5), (2, 65536 - used 7)]) [0, 1]

/-- Kind 5 consumers follow the REPLAY_QUEUE values (R208): a queue that none names any longer is unbound, and one that is named and has no
other consumer is bound. -/
def State.bindAll (s : State) : State :=
  let s1 := s.each (fun t k =>
    if kindOf (t.qo (k / 512) (k % 512) 4) = 5 ∧ t.otherReplay 1152 (k / 512) (k % 512) = false then t.wr (queueObj (k / 512) (k % 512)) 4 0
    else t) (List.range 1024)
  s1.each (fun t k =>
    let d := t.streamDie k
    let r := t.replayQueue k
    if r < 512 ∧ t.qo d r 4 = 0 ∧ t.qo d r 2 ≠ 0 then t.wr (queueObj d r) 4 0x5000 else t) (List.range 1152)

/-- The measurement of a region is that of the load that commits it (R454). -/
def State.measured (s : State) (c : Container) (n : Nat) : State :=
  let v := match c.measures.find? (fun p => decide (rn p.1 = n)) with | some p => p.2.toNat | none => 0
  { s with cfg := { s.cfg with measures := s.cfg.measures.put (fun _ => 0) n v } }

/-- The FUNC that a pin is to have after a load. -/
def State.funcAfter (s : State) (c : Container) (p : Nat) : Nat := if c.full ∨ c.hasPin p = true then s.manVal (pinObj p) 2 else s.rd (pinObj p) 2

/-- A peripheral or interrupt line whose record is carried and that nobody holds is claimed for the owner of the pin that names it
(R528). -/
def State.claimCarried (s : State) (c : Container) : State :=
  s.each (fun t o =>
    if c.carries o ∧ t.rd o 2 = 0xFF then
      let own := match allPins.find? (fun p => decide (sigPeriph (t.funcAfter c p) = some o)) with
        | some p => t.rd (pinObj p) 1
        | none => c.owner
      t.wrs o [(1, 1), (2, own)]
    else t) periphObjs

/-- The configuration before a load's records and settings take effect: for a full load the defaults of every resource record, and
blank sectors; for a partial load the running one with blank targets. -/
def State.loadBase (s : State) (c : Container) : State :=
  let s1 : State := if c.full then
      { s with od := s.od.dropKeys (fun k => fullObj (k / 256) (k % 256)),
               cfg := { s.cfg with manifest := s.cfg.manifest.dropKeys (fun k => decide (k % 256 ≠ 1) || decide (k / 256 < 0x4200) || decide (0x4240 ≤ k / 256)) } }
    else s
  let s2 := s1.each State.blankRegion (if c.full then allRegions else c.targets)
  s2.each (fun t p => if c.hasPin p then t.setMan (pinObj p) 2 0 else t) allPins

/-- What a load leaves whatever its records say: regions outside a full load's targets belong to MGT (R387), and no partial load
changes INTERLEAVE (R230). -/
def State.loadKept (s old : State) (c : Container) : State :=
  if c.full then s.each (fun t n => if c.targets.contains n then t else t.wr (regObj n) 1 1) allRegions
  else s.wr 0x4000 2 (old.rd 0x4000 2)

/-- The configuration that the device holds after a load's commit. -/
def State.loaded (s : State) (c : Container) : State :=
  let s1 := (c.records.foldl State.putRecord (s.loadBase c)).loadKept s c
  let s2 := (c.settings.filter c.holds).foldl State.putSetting s1
  ((s2.siteOwners.bindAll.readQueues.locusFree).claimCarried c)

end Sys2Proof.Machine
end

