-- ==== Sys2Proof/Machine/LoadCheck.lean ====
section
/-! DEFINITION. The checks that a load passes before any part of it is committed (R384, R385), in their order: verification, rollback,
records, frames, blocks, routing (R105) and the checks of each chapter (R189, R225, R232, R289, R354, R528). Checks 8 and 9 look at the
configuration that the device would hold after the commit. -/

namespace Sys2Proof.Machine

/-- The event that ends a load: its code, source class, source index and payload. -/
abbrev Reject := Nat × Nat × Nat × List (Nat × Nat × Nat)

/-- The first failure of a list of checks. -/
def firstReject : List (Option Reject) → Option Reject
  | [] => none
  | some r :: _ => some r
  | none :: l => firstReject l

/-- The first number whose reason is not 0, with its reason. -/
def firstReason (f : Nat → Nat) : List Nat → Option (Nat × Nat)
  | [] => none
  | n :: l => if f n = 0 then firstReason f l else some (n, f n)

/-- The first reason of a list that holds; 0 when none does. -/
def reasonOf : List (Nat × Bool) → Nat
  | [] => 0
  | (r, c) :: l => if c then r else reasonOf l

/-- Event 0x0102 (R407). The byte offset of a failure that lies in no block is not stated: a free value. -/
def verifyFail (src fa reason offset : Nat) : Reject := (0x0102, 3, src, [(20, 1, reason), (22, 2, fa), (24, 4, offset)])

/-- Check 2: the digest and the signatures that SIG_POLICY names (R381, R443). Where key derivation has failed no load passes (R435). -/
def State.signedOk (s : State) (c : Container) : Bool :=
  let m := s.rd 0x8000 4 % 4
  decide (s.rd 0x8000 3 ≠ 2) && c.digestOk && (decide (m = 2) || c.sigEcOk) && (decide (m = 1) || c.sigMlOk)

/-- The two hashes of a key as one value, ECDSA first (R441). -/
def State.hashPair (s : State) (idx sub : Nat) : Nat := s.rd idx sub + s.rd idx (sub + 1) * 2 ^ 384

/-- The SIGNER hashes and KEY_ID authorise a domain (R440, R442). -/
def State.signerOk (s : State) (owner keyId hash : Nat) : Bool :=
  if owner = 1 then
    let slot := keyId % 4
    decide (keyId = 0x10000000 + slot) && decide (s.rd (0x8010 + slot) 3 = 1) && decide (hash = s.hashPair (0x8010 + slot) 1)
  else
    let k := keyId % 2
    let h := s.hashPair (delObj owner) (1 + 2 * k)
    decide (8 ≤ owner) && decide (owner ≤ 15) && decide (keyId = 0x20000000 + owner * 256 + k) && decide (h ≠ 0) && decide (hash = h)

/-- The content key of a domain is held (R444, R445). -/
def State.cekHeld (s : State) (owner : Nat) : Bool :=
  s.keysReady && !s.isRma && decide ((if owner = 1 then s.rd 0x8000 0xC else s.rd (delObj owner) 6) = 1)

/-- A load may name a counter (R447). -/
def State.counterOk (s : State) (owner c : Nat) : Bool :=
  if owner = 1 then (List.range 8).all (fun t => !(s.rd (0x8100 + t) 5).testBit c) else (s.rd (delObj owner) 5).testBit c

/-- The delegations of a container keep R441. -/
def delegationsOk (full : Bool) (l : List Delegation) : Bool :=
  if full then (List.range 8).all (fun t => decide ((l.filter (fun x => decide (x.tenant.val = t))).length ≤ 1)) else l.isEmpty

/-- Check 3 (R384, R400, R439, R441, R442, R445, R447). -/
def State.ownerOk (s : State) (c : Container) (writer : Nat) : Bool :=
  decide (s.rd 0x8000 2 ≠ 0) && (!c.full || decide (c.owner = 1)) && (decide (writer = 1) || decide (writer = c.owner))
    && s.signerOk c.owner c.keyId.toNat c.signerHash && s.cekHeld c.owner && s.counterOk c.owner c.counter.val
    && delegationsOk c.full c.delegations
    && (decide (c.owner = 1) || (c.targets.all (fun n => decide (s.regOwner n = c.owner))
      && [0, 1].all (fun d => (maskBits 32 (c.groups d)).all (fun g => decide (s.groupOwner d g = c.owner)))))

/-- An owner code that a record may give a resource (R449); 0xFF where its chapter has it. -/
def ownerCode (idx v : Nat) : Bool :=
  decide (v = 1) || (decide (8 ≤ v) && decide (v ≤ 15))
    || (decide (v = 0xFF) && ((decide (0x4200 ≤ idx) && decide (idx < 0x4240)) || (decide (0x58C0 ≤ idx) && decide (idx < 0x58C2))))

/-- Check 5 of one record (R380, R384, R450): every manifest value, each in its type and range; a tenant's record names its own
resource and leaves its owner. -/
def State.recordOk (s : State) (owner : Nat) (r : Nat × List (Nat × Nat)) : Bool :=
  !(objRowsAt r.1).isEmpty && decide (r.2.map (fun p => p.1) = recordSubs r.1)
    && r.2.all (fun p => match findRow r.1 p.1 with
      | some row => decide (p.2 < 256 ^ row.bytes) && row.inRange p.2
      | none => false)
    && (match ownerSub r.1 with
      | some sub => r.2.all (fun p => decide (p.1 ≠ sub) || (ownerCode r.1 p.2 && (decide (owner = 1) || decide (p.2 = s.rd r.1 sub))))
      | none => true)
    && (decide (owner = 1) || decide (s.ownerOfIdx r.1 = owner))

/-- Why a frame address fails check 6 (R385); 0 where it passes. -/
def State.frameReason (s : State) (c : Container) (a : Nat) : Nat :=
  let n := a / 1024
  let fr := a % 1024
  let mine (o : Nat) : Bool := decide (c.owner = 1) || decide (o = c.owner)
  if fr < 896 then reasonOf [(1, !c.targets.contains n), (2, !mine (s.regOwner n))]
  else if n % 32 < 8 then
    let g := (n % 32 * 128 + (fr - 896)) / 32
    reasonOf [(1, !(c.groups (n / 32)).testBit g), (2, !mine (s.groupOwner (n / 32) g))]
  else 3

/-- The first failing frame of a list of blocks, with its reason. An address past the last names no frame. -/
def State.frameCheck (s : State) (c : Container) : List (BitVec 16 × Nat) → Option (Nat × Nat)
  | [] => none
  | (fa, k) :: l =>
    match firstReason (fun a => if a < 65536 then s.frameReason c a else 3) ((List.range k).map (fun i => fa.toNat + i)) with
    | some x => some x
    | none => s.frameCheck c l

/-- A reserved code of an enabled outbound or sideband select of a cluster (R82, R84). -/
def bitBad (v : Nat) : Bool := decide (0x260 ≤ v) && decide (v < 0x3FF)
/-- A reserved code of a Span bit select (R89). -/
def spanBitBad (v : Nat) : Bool := decide (0x820 ≤ v) && decide (v < 0xFFF)
/-- A reserved code of a Span word select (R90). -/
def spanWordBad (v : Nat) : Bool := decide (0x190 ≤ v) && decide (v < 0x1FF)

/-- A side with no Arc segments and no Bisector positions (R99). -/
def emptySide (n side : Nat) : Bool := (arcFar n side).isNone && (bisAt n side 0).isNone

/-- Channel identifier of an Arc or Bisector position as a sink (R105, R107); an empty side has no channel to name (R99). -/
def posChan (n side seg : Nat) : Nat :=
  if emptySide n side then 0
  else match bisAt n side seg with
    | some (k, sends) => chanId 2 n side (if sends then 0 else 1) (k % 64)
    | none => chanId 1 n side 0 seg

/-- Violations of R105 by a select that takes an Arc or Bisector position as its source. An empty side has no channel to name (R99). -/
def State.srcFaults (t : State) (n code : Nat) : List (Nat × Nat) :=
  let side := (code - 0x100) / 32
  let seg := code % 32
  if code < 0x100 ∨ 0x180 ≤ code then []
  else if emptySide n side then [(5, 0)]
  else match bisAt n side seg with
    | some (k, true) => [(4, chanId 2 n side 0 (k % 64))]
    | some (_, false) => []
    | none => if (t.fab.driveOf n side).testBit seg then [(4, chanId 1 n side 0 seg)] else []

/-- Violations by an Arc or Bisector position in use as a sink. -/
def State.sinkFaults (t : State) (n side seg : Nat) : List (Nat × Nat) :=
  if emptySide n side then [(5, 0)]
  else match bisAt n side seg with
    | some (k, false) => [(4, chanId 2 n side 1 (k % 64))]
    | some (_, true) => []
    | none => if (t.fab.farDrive n side).testBit seg then [(4, chanId 1 n side 1 seg)] else []

/-- Violations by the segment enables of one side, against the far end's enables and selects. -/
def State.driveFaults (t : State) (n side : Nat) : List (Nat × Nat) :=
  let m := t.fab.driveOf n side
  match arcFar n side with
  | some (far, fs) =>
    (if 16 < (maskBits 32 m).length then [(2, 0)] else [])
      ++ (maskBits 32 m).filterMap (fun seg =>
        if (t.fab.farDrive n side).testBit seg then some (1, chanId 1 n side 0 seg)
        else if t.fab.spanWordArc.get (fun _ => 0x1FF) (far * 128 + fs * 32 + seg) ≠ 0x1FF then some (4, chanId 1 n side 0 seg)
        else none)
  | none => (maskBits 32 m).filterMap (fun seg =>
      match bisAt n side seg with
      | some (k, false) => some (4, chanId 2 n side 1 (k % 64))
      | some (_, true) => none
      | none => some (5, 0))

/-- Violations of R105 in a region's configuration, with the channel identifier of each, or 0. -/
def State.routeFaults (t : State) (n : Nat) : List (Nat × Nat) :=
  let f := t.fab
  let own (m : SMap Nat) (size : Nat) : List (Nat × Nat) := m.cells.filter (fun p => decide (p.1 / size = n))
  let word (p : Nat × Nat) (chan : Nat) : List (Nat × Nat) := if spanWordBad p.2 then [(3, chan)] else t.srcFaults n p.2
  (f.lus.cells.filter (fun p => decide (p.1 / 16384 = n))).flatMap (fun p => match p.2.cfg with
    | some c => (List.range 6).filterMap (fun i => if c.used i && decide (0x260 ≤ c.code i) then some (3, 0) else none)
    | none => [])
    ++ (own f.chordOut 2048).filterMap (fun p =>
      if bitBad p.2 then some (3, 0) else if p.2 < 0x260 ∧ p.2 % 2 = 1 then some (7, 0) else none)
    ++ (own f.gatherSide 1024).filterMap (fun p => if bitBad p.2 then some (3, 0) else none)
    ++ (own f.wordSel 576).filterMap (fun p =>
      if 11 ≤ p.2 ∧ p.2 < 15 then some (3, 0)
      else if 7 ≤ p.2 ∧ p.2 < 11 ∧ (List.range 64).any (fun j => decide (f.luMode (p.1 / 9 * 256 + 64 * (p.2 - 7) + j) ≠ some 1)) = true
        then some (6, 0)
      else none)
    ++ (own f.spanBitIn 2048).filterMap (fun p => if spanBitBad p.2 then some (3, 0) else none)
    ++ (own f.spanBitSite 32).filterMap (fun p => if spanBitBad p.2 then some (3, chanId 4 n 0 0 (p.1 % 32)) else none)
    ++ (own f.spanWordIn 256).flatMap (fun p => word p 0)
    ++ (own f.spanWordArc 128).flatMap (fun p =>
      word p (posChan n (p.1 % 128 / 32) (p.1 % 32)) ++ t.sinkFaults n (p.1 % 128 / 32) (p.1 % 32))
    ++ (own f.spanWordSite 16).flatMap (fun p => word p (chanId 3 n 0 0 (p.1 % 16)))
    ++ [0, 1, 2, 3].flatMap (fun side => t.driveFaults n side)

/-- Check 8 (R105): the lowest target with a violation. The spec gives no numbers to the frames of single selects, so which of the
region's violations comes first, and in which configuration frame it lies, are free values. -/
def State.routeReject (s t : State) (c : Container) (src fa : Nat) : Option Reject :=
  match c.targets.find? (fun n => !(t.routeFaults n).isEmpty) with
  | none => none
  | some n =>
    let l := t.routeFaults n
    let p := l.getD (s.freeVal 16 % l.length) (0, 0)
    some (0x0106, 3, src, [(20, 2, n * 1024 + s.freeNext.freeVal 16 % 736), (22, 1, p.1), (24, 4, p.2), (28, 2, fa)])

/-- Sum of a value over the queues of a die in use, up to and with queue `q`. -/
def State.queueSum (t : State) (d sub q : Nat) : Nat :=
  ((List.range (q + 1)).map (fun j => if t.qo d j 2 = 0 then 0 else t.qo d j sub)).foldl (· + ·) 0

/-- A queue that a stream names suits it (R221, R242): another queue of its die and owner, with no other producer or consumer. -/
def State.streamQueueOk (t : State) (k owner d v : Nat) (log : Bool) : Bool :=
  decide (v < 512) && decide (k ≠ 64 + 512 * d + v) && decide (t.qo d v 2 ≠ 0) && decide (t.qo d v 1 = owner)
    && (if log then (decide (kindOf (t.qo d v 3) = 0) || decide (kindOf (t.qo d v 3) = 2)) && !t.otherLog k d v
        else (decide (kindOf (t.qo d v 4) = 0) || decide (kindOf (t.qo d v 4) = 5)) && !t.otherReplay k d v)

/-- A stream's mode and queues break their rules: a queue is named that does not suit it, or the mode needs one and none is named. -/
def State.streamBad (t : State) (k owner mode : Nat) : Bool :=
  let d := t.streamDie k
  let l := t.logQueue k
  let r := t.replayQueue k
  (decide (l ≠ 0xFFFF) && !t.streamQueueOk k owner d l true) || (decide (r ≠ 0xFFFF) && !t.streamQueueOk k owner d r false)
    || (decide (mode = 1) && decide (l = 0xFFFF)) || (decide (mode = 2) && decide (r = 0xFFFF))

/-- Reason of R225 for a queue in use; 0 for none. Reasons 4 and 5 concern carried records, and so does the owner of a port's region in
reason 3: a later load of that region may leave a queue that it does not carry INERT (R564, notes/assumptions/176.md). -/
def State.queueReason (t : State) (c : Container) (k : Nat) : Nat :=
  let d := k / 512
  let q := k % 512
  let o (sub : Nat) : Nat := t.qo d q sub
  let w := o 0x19
  let away (v : Nat) : Bool := decide (kindOf v = 1) && (decide (128 ≤ numOf v) || decide (t.regOwner (portRegion d (numOf v % 128)) ≠ o 1))
  let sum := t.queueSum d 6 q
  if o 2 = 0 then 0
  else reasonOf [
    (1, (decide (131072 < t.queueSum d 5 q) && decide (o 5 ≠ 0)) || (decide (65536 < t.queueSum d 7 q) && decide (o 7 ≠ 0))),
    (2, decide (o 6 ≠ 0) && (decide (64 ≤ w) || decide (t.rd (winObj w) 1 ≠ o 1)
      || decide (t.rd (winObj w) 3 < 16 * (t.spillBefore d q 512 + o 6))
      || decide (t.rd (0xB000 + d) 3 * 2 ^ 20 < 16 * sum) || decide (2 ^ 30 < 16 * sum))),
    (3, (c.carries (queueObj d q) && (away (o 3) || away (o 4))) || (decide (kindOf (o 4) = 1)
      && (List.range q).any (fun j => decide (t.qo d j 2 ≠ 0) && decide (t.qo d j 4 = o 4)))),
    (4, c.carries (queueObj d q) && (decide (o 5 + o 6 < 16 * o 8) || decide (o 7 < o 8))),
    (5, c.carries (queueObj d q) && !wmOk (o 9) (o 0xA) (o 0xB) (o 8)),
    (6, ((decide (o 0xF = 2) || decide (o 0x10 ≠ 0xFFFF)) && !t.actionOk d q 2) || t.streamBad (64 + k) (o 1) (o 0x11))]

/-- Check 9, queues (R225). -/
def State.queueReject (t : State) (c : Container) (fa : Nat) : Option Reject :=
  (firstReason (t.queueReason c) (List.range 1024)).map (fun p =>
    (0x0C06, 3, queueObj (p.1 / 512) (p.1 % 512), [(20, 1, p.2), (22, 2, fa)]))

/-- Two windows in use overlap. -/
def State.overlaps (t : State) (a b : Nat) : Bool :=
  decide (a ≠ b) && decide (t.rd (winObj b) 1 ≠ 0xFF) && decide (t.rd (winObj a) 2 < t.rd (winObj b) 2 + t.rd (winObj b) 3)
    && decide (t.rd (winObj b) 2 < t.rd (winObj a) 2 + t.rd (winObj a) 3)

/-- Reason of R232 for a window in use; 0 for none. -/
def State.windowReason (t : State) (w : Nat) : Nat :=
  let o (sub : Nat) : Nat := t.rd (winObj w) sub
  if o 1 = 0xFF then 0
  else reasonOf [
    (1, (List.range 64).any (t.overlaps w)),
    (2, decide (o 2 % 2 ^ 21 ≠ 0) || decide (o 3 % 2 ^ 21 ≠ 0) || decide (o 3 = 0) || decide (0x780000000 < o 2 + o 3)),
    (3, (maskBits 64 (o 4)).any (fun n => decide (t.regOwner n ≠ o 1))),
    (4, (decide (o 7 ≠ 0) && (t.interleave || (t.inStack w 0 && t.inStack w 1))) || t.streamBad (1088 + w) (o 1) (o 7))]

/-- Reason of R232 for a port; 0 for none. -/
def State.mportReason (t : State) (k : Nat) : Nat :=
  let d := k / 32
  let p := k % 32
  let o (sub : Nat) : Nat := t.rd (mportObj d p) sub
  reasonOf [
    (5, decide (o 3 ≠ 0) && decide (8 ≤ ((List.range p).filter (fun j => decide (t.rd (mportObj d j) 3 ≠ 0))).length)),
    (6, decide (o 3 ≠ 0) && !(decide (o 4 < o 5) && decide (o 5 ≤ (if o 3 = 2 then 544 else 256)) && decide (o 3 ≤ 2)))]

/-- Check 9, windows and ports (R232). -/
def State.windowReject (t : State) (fa : Nat) : Option Reject :=
  match firstReason t.windowReason (List.range 64) with
  | some (w, r) => some (0x0403, 3, winObj w, [(20, 1, r), (22, 2, fa)])
  | none => (firstReason t.mportReason (List.range 64)).map (fun p =>
      (0x0403, 3, mportObj (p.1 / 32) (p.1 % 32), [(20, 1, p.2), (22, 2, fa)]))

/-- Ports of a lane's die that take the lane by their MODE (R267). -/
def State.portsOver (t : State) (k : Nat) : List Nat :=
  (List.range 16).filter (fun p =>
    let m := t.rd (rportObj p) 1
    decide (p / 8 = k / 8) && decide (m ≠ 0) && decide (p ≤ k) && decide (k < p + modeLanes m))

/-- Reason of R289 for a lane in use: enabled, in a port, or with its record carried; 0 for none. -/
def State.laneReason (t : State) (c : Container) (k : Nat) : Nat :=
  let o (sub : Nat) : Nat := t.rd (laneObj k) sub
  let m := t.rd (rportObj k) 1
  let taking := t.portsOver k
  let rec_ := 0x58C0 + k / 8
  let twice := taking.any (fun p => let x := t.rd (rportObj p) 1; decide (x = 2) || decide (x = 4) || decide (x = 6) || decide (x = 8))
  if o 3 = 0 ∧ taking = [] ∧ c.carries (laneObj k) = false then 0
  else reasonOf [
    (1, decide (m ≠ 0) && (decide (8 < m) || decide (k % 8 % max 1 (modeLanes m) ≠ 0))),
    (2, taking.any (fun p => decide (t.rd (laneObj p) 1 ≠ o 1)) || decide (o 1 ≠ t.regOwner (32 * (k / 8) + 24 + k % 8))),
    (3, decide (2 ≤ taking.length) || (match taking with | [p] => decide (o 8 ≠ p % 8) | _ => decide (o 8 ≠ 0xFF))),
    (4, if taking.isEmpty then !rawPairOk (o 4) (o 5) (o 6) else decide (o 6 = 2) && twice),
    (5, decide (t.rd rec_ 1 ≠ 0xFF) && decide (t.rd rec_ 2 = k % 8) && decide (o 1 ≠ t.rd rec_ 1))]

/-- Reason 5 of R289 for a lane that is not in use, as the source of a recovered clock of another owner. -/
def State.sourceReason (t : State) (c : Container) (k : Nat) : Nat :=
  let rec_ := 0x58C0 + k / 8
  let r := t.laneReason c k
  if r ≠ 0 then r
  else if t.rd rec_ 1 ≠ 0xFF ∧ t.rd rec_ 2 = k % 8 ∧ t.rd (laneObj k) 1 ≠ t.rd rec_ 1 then 5 else 0

/-- Check 9, lanes and ports (R289). -/
def State.portReject (t : State) (c : Container) (fa : Nat) : Option Reject :=
  (firstReason (t.sourceReason c) (List.range 16)).map (fun p => (0x060A, 3, laneObj p.1, [(20, 1, p.2), (22, 2, fa)]))

/-- Guaranteed Arc rate of a rail, tokens/s (R97). -/
def arcRate (rail : Nat) : Nat := if rail = 0 then 312500000 else if rail = 1 then 625000000 else 1000000000

/-- Reason of R354 for a region; 0 for none. A rate floor without a rail floor is held at the lowest rail. -/
def State.floorReason (t : State) (n : Nat) : Nat :=
  let fl := t.rd (enObj n) 3
  let out := (t.borderChannels [] n).filter (fun ch => !ch.testBit 11)
  reasonOf [
    (1, decide (fl ≠ 0xFF) && decide (t.rd (enObj n) 1 < fl)),
    (2, decide (t.rd (enObj n) 4 ≠ 0) && decide (arcRate (t.floorOf n) * out.length < t.rd (enObj n) 4))]

/-- Check 9, floors (R354). -/
def State.floorReject (t : State) (fa : Nat) : Option Reject :=
  (firstReason t.floorReason allRegions).map (fun p => (0x0306, 1, locRegion p.1, [(20, 1, p.2), (22, 2, fa)]))

/-- Reason of R189 for user site `k` of both dies; 0 for none. -/
def State.siteReason (t : State) (k : Nat) : Nat :=
  let v := t.rd (0xA100 + k) 1
  let ty := fieldAt v 8 2
  let width := fieldAt v 0 7
  reasonOf [
    (1, v.testBit 15 && decide (t.rd (islObj (k / 64) (fieldAt v 11 2)) 1 ≠ t.rd (0xA100 + k) 2)),
    (2, decide (fieldAt v 13 2 ≠ 0) || v.testBit 7),
    (3, decide (ty = 0) && decide (19 < width)),
    (4, decide (2 ≤ ty) && decide (width ≠ 0))]

/-- Check 9, user sites (R189): the channel of the first failing site. -/
def State.siteReject (t : State) (fa : Nat) : Option Reject :=
  (firstReason t.siteReason (List.range 128)).map (fun p =>
    let site : Site := .user (Fin.ofNat 2 (p.1 / 64)) (Fin.ofNat 64 (p.1 % 64))
    let v := t.rd (0xA100 + p.1) 1
    let dir := (v.testBit 10).toNat
    (0x0B0B, 2, if 2 ≤ fieldAt v 8 2 then bitChan site dir else siteChan site dir, [(20, 1, p.2), (22, 2, fa)]))

/-- Reason of R528 for a pin; 0 for none. -/
def State.pinReason (t : State) (c : Container) (p : Nat) : Nat :=
  let f := t.funcAfter c p
  let own := t.rd (pinObj p) 1
  let sel := t.rd (bankObj (p / 10)) 1
  reasonOf [
    (1, decide (512 ≤ f) || decide (sigKind f = 9)),
    (2, decide (f ≠ 0) && decide (t.sigOwner own f ≠ own)),
    (3, decide (4 < sel) || (decide (t.rd (pinObj p) 3 % 4 = 3) && decide (sel = 0))),
    (4, (List.range 18).any (fun l => decide (t.rd (0xA010 + 16 * (l / 9) + l % 9) 4 = p + 2)
      && (decide (f ≠ 2) || decide (l / 9 ≠ p / 20)))),
    (5, (List.range 10).any (fun l => decide (t.rd (lineObj l) 2 ≠ 0xFF) && decide (10 * t.rd (lineObj l) 3 + l = p)
      && decide (t.rd (lineObj l) 2 ≠ own)))]

/-- Check 9, pins (R528). -/
def State.pinReject (t : State) (c : Container) (fa : Nat) : Option Reject :=
  (firstReason (t.pinReason c) allPins).map (fun p => (0x0705, 3, pinObj p.1, [(20, 1, p.2), (22, 2, fa)]))

/-- ACCEPT_MS and MIN_VERSION keep the ranges of R378; a manifest outside them fails check 1 (DESIGN CHOICE, notes/assumptions/198.md). -/
def rangesOk (c : Container) : Bool := decide (c.acceptMs ≤ 600000) && decide (c.minVersion.toNat ≤ c.version.toNat)

/-- Checks 1 to 7 of R384. -/
def State.stageReject (s : State) (c : Container) (full : Bool) (src fa writer : Nat) : Option Reject :=
  let fail (reason : Nat) : Reject := verifyFail src fa reason (s.freeVal 32)
  let t := s.ctrValue c.counter.val
  if c.headerOk = false ∨ c.full ≠ full ∨ rangesOk c = false then some (fail 1)
  else if s.signedOk c = false then some (fail 2)
  else if s.ownerOk c writer = false then some (fail 5)
  else if c.version.toNat < t then
    some (0x0103, 3, src, [(20, 1, c.counter.val), (21, 1, c.version.toNat), (22, 2, fa), (24, 1, t)])
  else if c.sectionOk = false ∨ c.records.all (s.recordOk c.owner) = false then some (fail 6)
  else match s.frameCheck c c.frames with
    | some (a, r) => some (0x0105, 3, src, [(20, 2, a), (22, 2, fa), (24, 1, r)])
    | none => c.blockFault.map (fun b => verifyFail src fa (if b.1 then 4 else 3) b.2)

/-- Checks 8 and 9 of R384, on the configuration `t` that the commit would leave. -/
def State.commitReject (s t : State) (c : Container) (src fa : Nat) : Option Reject :=
  firstReject [s.routeReject t c src fa, t.queueReject c fa, t.windowReject fa, t.portReject c fa, t.floorReject fa, t.siteReject fa,
    t.pinReject c fa]

/-- A load's event, after which the free values that it may have used are spent. -/
def State.rejectEvent (s : State) (r : Reject) : State :=
  (s.raise r.1 r.2.1 2 r.2.2.1 r.2.2.2).freeNext.freeNext

end Sys2Proof.Machine
end

