-- ==== Sys2Proof/Machine/Chain.lean ====
section
/-! DEFINITION. The Kimbe link as the frame commands use it (R489 to R494): how a received frame is judged, consumed or forwarded. -/

namespace Sys2Proof.Machine

/-- A frame is put on KM_OUT. -/
def State.kmSend (s : State) (f : KFrame) : State := { s with mgt := { s.mgt with sent := f :: s.mgt.sent } }

/-- Frames that a device sends of its own carry its address and HOPS 0 (R490). -/
def State.kmFrame (s : State) (dest cmd : Nat) (payload : List Byte) : KFrame :=
  { dest := Fin.ofNat 64 dest, reply := false, src := Fin.ofNat 64 (s.rd 0x1010 2), cmd := cmd, hops := 0, payload := payload,
    crcOk := true, cut := false }

/-- The held CFG_STREAM frame starts on KM_OUT (R494). -/
def State.sendCfg (s : State) : State :=
  match s.mgt.heldCfg with
  | some f => let t := s.kmSend f; { t with mgt := { t.mgt with heldCfg := none, lastCfg := true } }
  | none => s

/-- The held frame of another type starts on KM_OUT (R494). -/
def State.sendObj (s : State) : State :=
  match s.mgt.held with
  | some f => let t := s.kmSend f; { t with mgt := { t.mgt with held := none, lastCfg := false } }
  | none => s

/-- Of two held frames the type that was not sent last starts (R38). -/
def State.sendHeld (s : State) : State :=
  if s.mgt.heldCfg.isSome && (s.mgt.held.isNone || !s.mgt.lastCfg) then s.sendCfg else s.sendObj

/-- A frame to be forwarded waits for KM_OUT (R494), one of each type: an earlier one of its type has left by then, the two types
alternately (R38). With KM_OUT down nothing can be forwarded. -/
def State.kmForward (s : State) (f : KFrame) : State :=
  let g := { f with hops := f.hops + 1 }
  if (s.rd 0x1010 5).testBit 1 = false then s
  else if f.cmd = 5 then
    let t := if s.mgt.heldCfg.isSome then s.sendHeld else s
    let u := t.sendCfg
    { u with mgt := { u.mgt with heldCfg := some g } }
  else
    let t := if s.mgt.held.isSome then s.sendHeld else s
    let u := t.sendObj
    { u with mgt := { u.mgt with held := some g } }

/-- The address rows of R493: removed, consumed, consumed and forwarded, or forwarded, as `g` where a forwarder changes the frame. -/
def State.kmRouteAs (s : State) (f g : KFrame) (consume : State → State) : State :=
  let own := s.rd 0x1010 2
  if f.src.val = own ∧ own ≠ 0 then s
  else if f.dest.val = own then consume s
  else if f.dest.val = 63 then (consume s).kmForward g
  else s.kmForward g

/-- The address rows of R493 for a frame that is forwarded as it is. -/
def State.kmRoute (s : State) (f : KFrame) (consume : State → State) : State := s.kmRouteAs f f consume

/-- A frame goes on towards KM_OUT before its end has arrived (R493, R494), whatever its CRC will be: the address rows send it on, an
ASSIGN at any device that is no acting leader, a CFG_STREAM where the stream under way is forwarded. -/
def State.kmPasses (s : State) (f : KFrame) : Bool :=
  let own := s.rd 0x1010 2
  decide (f.hops < 63) && (s.rd 0x1010 5).testBit 1 &&
    (if f.cmd = 1 then decide (s.rd 0x1010 1 ≠ 2) || s.mgt.follower
     else if f.cmd = 5 then s.mgt.cfgFwd
     else !(decide (f.src.val = own) && decide (own ≠ 0)) && decide (f.dest.val ≠ own))

/-- A frame whose CRC fails or whose end is cut leaves a copy that ends with K30.7, if its forwarding had begun (R493). With a frame
held, KM_OUT was busy; else whether it was idle is open. -/
def State.kmCutCopy (s : State) (f : KFrame) : State :=
  if s.kmPasses f && s.mgt.held.isNone && s.mgt.heldCfg.isNone then
    (if s.freeVal 1 = 1 then s.freeNext.kmSend { f with hops := f.hops + 1, cut := true } else s.freeNext)
  else s

/-- A frame addressed to the device or broadcast wakes the prime's Apex (R471). -/
def State.kmWake (s : State) (f : KFrame) : State :=
  if f.dest.val = s.rd 0x1010 2 ∨ f.dest.val = 63 then (s.apexAwake (s.rd 0x1030 1)).apexActs (s.rd 0x1030 1) else s

/-- A frame arrives (R493): it is counted, discarded on a bad CRC, a cut end or 63 hops, and else handled by its CMD's rule `k`. A
frame of a reserved CMD has no effect where it is consumed. -/
def State.kmTake (s : State) (f : KFrame) (code : Nat) (k : State → State) : State :=
  if s.dev.por || !(s.rd 0x1010 5).testBit 0 || (decide (f.cmd ≠ code) && decide (1 ≤ f.cmd) && decide (f.cmd ≤ 8)) then s
  else
    let s1 := s.tally 0x1010 0xA 1
    if f.crcOk = false ∨ f.cut = true then ((s1.bump 0x1010 9 4 1).windowed 0x0A0A 3 1 0x1010 1 0).kmCutCopy f
    else if 63 ≤ f.hops then s1
    else
      let s2 := s1.kmWake f
      if f.cmd = code then k s2 else s2.kmRoute f id

/-- The next EVENT frame of the device's own leaves (R494): LOST where records were dropped before it. A chain has no PHASE, so that bit
is open. -/
def State.eventSend (s : State) : State :=
  match s.out.kimbeEvents with
  | [] => s
  | (e, lost) :: l =>
    let t : State := { s.freeNext with out := { s.out with kimbeEvents := l }, mgt := { s.mgt with lastCfg := false } }
    t.kmSend (t.kmFrame (t.rd 0x1010 7) 7 (recordOctets e lost (decide (s.freeVal 1 = 1))))

/-- KIMBE_FRAME_FORWARD (R494, R38): a held frame, or an EVENT frame that waits, starts on KM_OUT; of a CFG_STREAM frame and another the
type that was not sent last. -/
def execKimbeFrameForward (s : State) : Result :=
  if (s.rd 0x1010 5).testBit 1 = false then .next s
  else if s.mgt.held.isNone && (s.mgt.heldCfg.isNone || (s.mgt.lastCfg && !s.out.kimbeEvents.isEmpty)) then .next s.eventSend
  else .next s.sendHeld

end Sys2Proof.Machine
end

