-- ==== Sys2Proof/Machine/Load.lean ====
section
/-! DEFINITION. Full loads, startup, acceptance and reconfiguration (R384 to R398) as commands. Partial loads stand in PartLoad.lean. -/

namespace Sys2Proof.Machine

/-- Object index of an image record (R406). -/
def imageObj (n : Nat) : Nat := 0x2020 + n

/-- The image table has been read (R373, R395): a table that fails makes every image absent. -/
def State.imageTable (s : State) (table : Option ImageTable) : State :=
  match table with
  | none => s.each (fun t n => t.wr (imageObj n) 2 0) [0, 1, 2, 3]
  | some x =>
    let at_ (n : Nat) : BitVec 32 × BitVec 32 := x.images.toList.getD n (0, 0)
    let s1 := s.each (fun t n => t.wrs (imageObj n) [(1, (at_ n).1.toNat), (2, (at_ n).2.toNat)]) [0, 1, 2, 3]
    if s1.rd 0x2000 4 = 0xFF then s1.wr 0x2000 4 x.first.val else s1

/-- The image that is tried is there (R373): flash holds no container of an absent one, which therefore fails check 1
(notes/assumptions/198.md). -/
def State.imageThere (s : State) : Bool := !s.fromFlash || decide (4 ≤ s.cfg.tried) || decide (s.rd (imageObj s.cfg.tried) 2 ≠ 0)

/-- ANNULUS_RUNNING (R386 steps 3 and 4): CFG_INIT_N is released and, where nothing holds the device, loading begins. -/
def execAnnulusRunning (table : Option ImageTable) (initHeldLow : Bool) (s : State) : Result :=
  if s.fwUp && s.annulusUp && decide (s.rd 0x2000 1 = 0) && !s.dev.bootHeld && decide (s.dev.mode < 5) && s.cfg.reconfig.isNone then
    let s1 : State := { s with dev := { s.dev with extInitLow := initHeldLow, initLow := false } }
    .next (if s1.fromFlash then s1.imageTable table else s1).step4
  else .next s

/-- CFG_INIT_N_RELEASE (R386 step 4): no other driver holds CFG_INIT_N. -/
def execCfgInitNRelease (s : State) : Result := .next ({ s with dev := { s.dev with extInitLow := false } } : State).step4Go

/-- RESULT of the image that is tried. -/
def State.imgResult (s : State) (code : Nat) : State := if s.cfg.tried < 4 then s.wr (imageObj s.cfg.tried) 4 code else s

/-- A full load has failed (R384, R388, R395). -/
def State.fullFail (s : State) (code : Nat) : State := (((s.imgResult code).hostLoadEnd 5 code).notTaking).imageFailed 0

/-- A region after the commit of a full load (R387, R417): HELD when it is a target, UNCONFIGURED with its fence closed otherwise.
TAMPER stays (R72). -/
def State.regionHeld (old : State) (c : Container) (t : State) (n : Nat) : State :=
  let taint := 128 * ((old.reasons n).testBit 7).toNat
  if c.targets.contains n then
    let t1 := (t.setRegState n 1).wr (regObj n) 4 taint
    (((t1.wrs (cfgObj n) [(2, c.version.toNat), (4, t1.now)]).wr (intObj n) 5 (c.ebm.any (fun r => decide (rn r = n))).toNat).measured c n).hopAsk
      (t1.rd (enObj n) 1) 4 n
  else (t.setRegState n 0).wr (regObj n) 4 (2 + taint)

/-- A tenant's delegation takes effect (R441, R445). -/
def State.putDelegation (s : State) (x : Delegation) : State :=
  s.wrs (0x8100 + x.tenant.val) [(1, x.key0 % 2 ^ 384), (2, x.key0 / 2 ^ 384 % 2 ^ 384), (3, x.key1 % 2 ^ 384), (4, x.key1 / 2 ^ 384 % 2 ^ 384),
    (5, x.counters.toNat), (6, if x.cekPresent then (if x.cekOk then 1 else 2) else 0)]

/-- Windows that change owner are zeroed before the new owner can use them (R451). `old` is the state before the commit. -/
def State.windowOwners (s old : State) : State :=
  s.each (fun t w =>
    let was := old.manVal (winObj w) 1
    let new := t.rd (winObj w) 1
    if was ≠ 0xFF ∧ new ≠ 0xFF ∧ was ≠ new then t.zeroStart w false else t) (List.range 64)

/-- Slots that a region's GATE_SLOT names are claimed by the region's owner (R429). -/
def State.gateClaims (s : State) (ns : List Nat) : State :=
  s.each (fun t n =>
    let k := t.rd (enObj n) 6
    if k < 64 ∧ t.rd (slotObj k) 2 = 0xFF then t.wrs (slotObj k) [(1, 1), (2, t.regOwner n)] else t) ns

/-- Mode of a queue's or window's stream. -/
def State.streamMode (s : State) (k : Nat) : Nat := if k < 1088 then s.rd (0xB100 + (k - 64)) 0x11 else s.rd (winObj (k - 1088)) 7

/-- Streams of queues and windows that a commit enables start their epoch (R154). -/
def State.modeEpochs (s old : State) : State :=
  s.each (fun t k => if t.streamMode k ≠ 0 ∧ t.streamMode k ≠ old.streamMode k then t.epoch k else t) ((List.range 1088).map (fun k => 64 + k))

/-- A full load commits (R386 steps 6 and 7, R387, R445, R450). A DELAY_MON self-test of a region that it carries ends (R537). -/
def State.fullCommit (s0 : State) (c : Container) : State :=
  let s := s0.meterFold.each (fun t n => t.unitRequest (unitKey 9 n)) c.targets
  let t := s.loaded c
  let t1 := (t.each (State.regionHeld s c) allRegions).wr 0xC000 3 1
  let t2 := c.delegations.foldl State.putDelegation t1
  let t3 := ((t2.windowOwners s).gateClaims c.targets).modeEpochs s
  let img := if s.fromFlash then s.cfg.tried else if s.fromHost then 0xFE else 0xFD
  let t4 := ((t3.each State.laneHeld (List.range 16)).wrs 0x2000 [(1, 2), (3, img), (0xA, c.version.toNat)]).limitUpdate.mapAll.debugCheck
  let t5 : State := { t4 with
    cfg := { t4.cfg with fullHash := c.manifestHash.toNat, counter := c.counter.val, minVersion := c.minVersion.toNat, acceptMs := c.acceptMs, doneAt := t4.now },
    dev := { t4.dev with doneLow := false } }
  (t5.hostLoadEnd 4 (t5.rd (loadObj 0) 6)).notTaking

/-- FULL_LOAD_COMMIT (R384, R386 steps 5 to 7, R395): the staged container passes the checks and the frame readback, and CFG_DONE is
released; or the load fails. No event names a readback that fails, so RESULT of an image that nothing falls back from is open. -/
def execFullLoadCommit (c : Container) (readbackOk : Bool) (s : State) : Result :=
  if s.fullRuns then
    let writer := if s.fromHost then (s.load 0).owner else 1
    let s0 := if s.fromHost then s.wr (loadObj 0) 7 (c.bytes % 2 ^ 32) else s
    let s1 := if s0.cfg.tried < 4 ∧ c.headerOk = true ∧ s0.imageThere = true then s0.wr (imageObj s0.cfg.tried) 3 c.version.toNat else s0
    match firstReject [s1.stageReject { c with headerOk := c.headerOk && s0.imageThere } true 0x2000 0x0380 writer, s1.commitReject (s1.loaded c) c 0x2000 0x0380] with
    | some r => .next ((s1.rejectEvent r).fullFail r.1)
    | none =>
      let s2 := s1.each (fun t n => t.stageBank c n (t.activeBank n)) c.targets
      if readbackOk ∧ s2.banksPoison s2.activeBank c.targets = none then .next ((s2.banksRead s2.activeBank c.targets).fullCommit c)
      else if s1.fromFlash ∧ s1.cfg.tried ≠ 0 then .next (s1.fullFail 0x0104)
      else .next (s1.freeNext.fullFail (s1.freeVal 16))
  else .next s

/-- FETCH_LOST (R384): the fetch of a full or partial load stops. -/
def execFetchLost (die : Fin 2) (manifestFa : BitVec 16) (offset : BitVec 32) (s : State) : Result :=
  let d := die.val
  let pay : List (Nat × Nat × Nat) := [(20, 1, 7), (22, 2, manifestFa.toNat), (24, 4, offset.toNat)]
  if s.fullRuns then
    let s1 := if s.fromHost then s.wr (loadObj 0) 7 offset.toNat else s
    .next ((s1.raise 0x0102 3 2 0x2000 pay).fullFail 0x0102)
  else if s.rd 0x2000 1 = 4 ∧ s.loadState d = 1 then
    .next (((s.wr (loadObj d) 7 offset.toNat).raise 0x0102 3 2 (loadObj d) pay).loadFail d 0x0102)
  else .next s

/-- A region leaves HELD at GSR release (R68, R392 step 2). Where a reason holds its fence it is FENCED. -/
def State.regionRelease (s : State) (n : Nat) : State :=
  if s.regState n = 1 then
    let s1 : State := { s with fab := s.fab.initRegion s.stagedPool n }
    let s2 := (s1.modFence n (fun _ => { resetFrom := s1.now, closedAt := s1.now })).setRegState n (if s1.reasons n = 0 then 2 else 4)
    (((s2.checkUnits n).streamCheck n).epoch n).replayOpen n
  else s

/-- The startup order of R392. -/
def State.startup (s : State) : State :=
  let s1 := islands.foldl (fun t i => if t.rd (islObj i.die.val i.i.val) 3 = 1 then t.loopStart (islandLoop i) else t) (s.wr 0x2000 7 1)
  let s2 := (({ s1 with fab := { s1.fab with gsr := false } } : State).each State.regionRelease allRegions).wr 0xC000 3 2
  let s3 : State := { s2 with pin := { s2.pin with enabled := true } }
  let s4 := (s3.each (fun t p => t.pinSet p (t.manVal (pinObj p) 2)) allPins).wr 0x2000 1 4
  let s5 := s4.each State.laneGo (List.range 16)
  let s6 := ((s5.postScrub 0).postScrub 1).openBudgets
  let s7 := if s6.fromHost ∧ s6.loadState 0 = 4 then s6.wr (loadObj 0) 6 0x0110 else s6
  let s8 := (s7.imgResult 0x0110).raise 0x0110 3 0 0x2000 [(20, 1, s7.rd 0x2000 3), (22, 2, 0x0380), (24, 8, s7.now)]
  if s8.cfg.acceptMs = 0 then s8
  else ({ s8 with cfg := { s8.cfg with accepting := true } } : State).wr 0x2000 6 ((s8.now + 1000000 * s8.cfg.acceptMs) % 2 ^ 64)

/-- STARTUP (R392): a device in WAIT_DONE has seen CFG_DONE high for 1 µs. -/
def execStartup (s : State) : Result := if s.rd 0x2000 1 = 2 ∧ s.dev.doneLow = false then .next s.startup else .next s

/-- The device leads a chain (R371). -/
def State.leads (s : State) : Bool := decide (s.dev.mode = 3) || decide (s.dev.mode = 4)

/-- DONE_TIMEOUT (R394): the leader's image counts as failed. No rule gives this path an event 0x0111. -/
def execDoneTimeout (s : State) : Result :=
  if s.leads && decide (s.rd 0x2000 1 = 2) && decide (s.cfg.doneAt + 1000000 * s.rd 0x2000 8 ≤ s.now) then
    let s1 := (s.raise 0x010A 3 2 0x2000 [(22, 2, 0x0380), (24, 4, s.rd 0x2000 8)]).imgResult 0x010A
    let s2 := if s1.fromHost then s1.wrs (loadObj 0) [(5, 5), (6, 0x010A)] else s1
    .next (((s2.allAbandon 2).unconfigure).imageFailed 2)
  else .next s

/-- An accepted load (R396). -/
def State.acceptLoad (s : State) (otp : OtpResult) : State :=
  if s.cfg.accepting && decide (s.now < s.rd 0x2000 6) then
    let s1 := s.ctrRaise s.cfg.counter s.cfg.minVersion otp
    let s2 := (s1.wr 0x2000 6 0).raise 0x010D 3 0 0x2000
      [(20, 1, s.cfg.counter), (21, 1, s1.ctrValue s.cfg.counter), (22, 2, 0x0380)]
    { s2 with cfg := { s2.cfg with accepting := false } }
  else s

/-- ACCEPT (R396): with no acceptance pending, or once its time has passed, the write has no effect. -/
def execAccept (q : Req) (v : BitVec 8) (otp : OtpResult) (s : State) : Result :=
  s.writing q 0x2000 5 1 v.toNat (fun t => t.acceptLoad otp)

/-- ACCEPT_TIMEOUT (R397). -/
def execAcceptTimeout (s : State) : Result :=
  if s.cfg.accepting && decide (s.rd 0x2000 6 ≤ s.now) then
    let s1 := (s.raise 0x0108 3 2 0x2000 [(22, 2, 0x0380), (24, 8, s.rd 0x2000 6)]).wr 0x2000 6 0
    let s2 : State := { s1 with cfg := { s1.cfg with accepting := false } }
    let img := s2.rd 0x2000 3
    if s2.fromFlash ∧ 1 ≤ img ∧ img ≤ 3 then
      let s3 := ((s2.wr 0x2000 4 0).bump 0x2000 0xB 4 1).raise 0x0104 3 1 0x2000 [(20, 1, img), (21, 1, 1), (22, 2, 0x0380)]
      .next (s3.reconfigAsk 2)
    else .next s2
  else .next s

/-- CFG_PROG_N (R398): a low pulse of 1 µs or more. -/
def execCfgProgN (s : State) : Result := if s.dev.por ∨ s.fwUp = false then .next s else .next (s.reconfigAsk 0)

/-- RESTART (R398). -/
def execRestart (q : Req) (v : BitVec 8) (s : State) : Result := s.writing q 0x2000 9 1 v.toNat (fun t => t.reconfigAsk 1)

/-- A new stream begins at a follower (R391, R393, R394). In WAIT_DONE and FAILED the device goes back to loading; a load in progress is
abandoned; a running device takes its container without effect, and before step 4 of R386 there is no engine to take it. -/
def State.streamNew (s : State) : State :=
  match s.rd 0x2000 1 with
  | 1 =>
    let s1 := if s.mgt.cfgTaking then (s.fullAbandon 4).loadStart else s
    { s1 with mgt := { s1.mgt with cfgTaking := true } }
  | 2 => let s1 := ((s.allAbandon 4).unconfigure).loadStart; { s1 with mgt := { s1.mgt with cfgTaking := true } }
  | 5 => let s1 := s.loadStart; { s1 with mgt := { s1.mgt with cfgTaking := true } }
  | _ => s

/-- A CFG_STREAM frame at a follower (R390): with a container that starts in it, CHAIN_REMAIN says whether it is one of those behind the
device's own, which are forwarded, or the first of a new stream. -/
def State.streamFrame (s : State) (f : KFrame) (first : Option Nat) : State :=
  match first with
  | none => if s.mgt.cfgFwd then s.kmForward f else s
  | some k =>
    if k + 1 = s.mgt.cfgRemain then ({ s with mgt := { s.mgt with cfgRemain := k, cfgFwd := true } } : State).kmForward f
    else ({ s with mgt := { s.mgt with cfgRemain := k, cfgFwd := false } } : State).streamNew

/-- CFG_STREAM (R390, R391, R493): a follower takes the frame or forwards it. A device of another role takes no stream. -/
def execCfgStream (f : KFrame) (first : Option Nat) (s : State) : Result :=
  .next (s.kmTake f 5 (fun t => if t.dev.mode = 2 then t.streamFrame f first else t))

end Sys2Proof.Machine
end

