-- ==== Sys2Proof/Machine/PartLoad.lean ====
section
/-! DEFINITION. Partial loads (R399 to R405) as commands: LOAD_GO, staging with the checks of R384, and the commit. -/

namespace Sys2Proof.Machine

/-- An accepted LOAD_GO (R400): staging begins. Of a device that takes its full loads from the host it may ask for one, and a FAILED device
loads again (R395). -/
def State.loadGo (s : State) (q : Req) (d : Nat) : State :=
  let s1 := (s.wrs (loadObj d) [(5, 1), (7, 0)]).setLoad d { owner := s.reqDomain q }
  if s.fromHost ∧ d = 0 ∧ s.rd 0x2000 1 = 5 then s1.loadStart else s1

/-- LOAD_GO (R400, R401 step 1). -/
def execLoadGo (q : Req) (die : Fin 2) (v : BitVec 8) (s : State) : Result :=
  s.writing q (loadObj die.val) 4 1 v.toNat (fun t => t.loadGo q die.val)

/-- Dies that a container's targets lie on. -/
def targetDies (c : Container) : List Nat :=
  [0, 1].filter (fun d => c.targets.any (fun n => decide (n / 32 = d)) || decide (c.groups d ≠ 0))

/-- Another die's load occupies one of the dies that a load needs (R400), or a snapshot or rollback of a target runs. -/
def State.stageWaits (s : State) (d : Nat) (c : Container) : Bool :=
  let o := 1 - d
  let theirs := match (s.load o).cont with | some x => targetDies x | none => []
  c.targets.any s.slotRuns
    || ((decide (s.loadState o = 2) || decide (s.loadState o = 3)) && theirs.contains d)
    || (decide (1 ≤ s.loadState o) && decide (s.loadState o ≤ 3) && (targetDies c).contains o)

/-- MANIFEST_FA of a container as its events carry it; open where no rule states it. -/
def State.faOf (s : State) (c : Container) : Nat := c.fa.getD (s.freeVal 16)
/-- The free value of MANIFEST_FA is spent. -/
def State.faSpent (s : State) (c : Container) : State := if c.fa.isSome then s else s.freeNext

/-- PARTIAL_STAGING (R401 steps 2 to 4, R402): the checks of R384, then the fences of the targets close as one set. -/
def execPartialStaging (die : Fin 2) (c : Container) (s : State) : Result :=
  let d := die.val
  if s.rd 0x2000 1 = 4 ∧ s.loadState d = 1 ∧ s.stageWaits d c = false then
    let fa := s.faOf c
    let s1 := (s.faSpent c).wr (loadObj d) 7 (c.bytes % 2 ^ 32)
    match firstReject [s1.stageReject c false (loadObj d) fa (s1.load d).owner, s1.commitReject (s1.loaded c) c (loadObj d) fa] with
    | some r => .next ((s1.rejectEvent r).loadFail d r.1)
    | none =>
      let x : LoadSt := { (s1.load d) with cont := some c, owner := c.owner, targets := c.targets, startedAt := s1.now }
      let s2 := s1.each (fun t n => t.stageBank c n (1 - t.activeBank n)) c.targets
      .next (((s2.wr (loadObj d) 5 2).setLoad d x).fenceSet c.targets 1 c.force)
  else .next s

/-- Every target is FENCED, or UNCONFIGURED behind its closed fence, with CONFIG set (R401 step 5). -/
def State.targetsFenced (s : State) (d : Nat) : Bool :=
  (s.load d).targets.all (fun n => (decide (s.regState n = 4) || decide (s.regState n = 0)) && (s.reasons n).testBit 1)

/-- Regions that an unsuccessful commit has to restore (R403): on the die of the failing frame those up to it; how far the other die
has come, and what has been written when a periphery frame fails, is open. None where the frame is in no target. -/
def State.toRestore (s : State) (c : Container) (fa : Nat) : Option Nat :=
  let n := fa / 1024
  let other := (c.targets.filter (fun m => decide (m / 32 ≠ n / 32))).length
  if fa % 1024 < 896 then
    (if c.targets.contains n then
      some ((c.targets.filter (fun m => decide (m / 32 = n / 32) && decide (m ≤ n))).length + s.freeVal 8 % (other + 1))
    else none)
  else if n % 32 < 8 ∧ (c.groups (n / 32)).testBit ((n % 32 * 128 + (fa % 1024 - 896)) / 32) = true then
    some (s.freeVal 8 % (c.targets.length + 1))
  else none

/-- A commit fails (R403): the targets hold their previous configurations at their initial states. -/
def State.commitFault (s : State) (d : Nat) (c : Container) (bad fa restored : Nat) : State :=
  let ns := c.targets.filter (fun n => decide (s.regState n ≠ 0))
  let s1 := (s.freeNext.each State.cellsAnew ns).each State.regionAnew ns
  (s1.raise 0x0107 3 2 (loadObj d) [(20, 2, bad), (22, 2, fa), (24, 1, restored)]).loadFail d 0x0107

/-- Counts since configuration start again for a target of a partial load: Pool errors (R143), HOPS (R365), FLIPS (R431), WORST_RATIO
(R169), FORCE_COUNT (R78), and WORDS of the host channels at the region's site (R331). -/
def State.countsAnew (s : State) (n : Nat) : State :=
  let s1 := (((s.wrs (unitObj n) [(3, 0), (4, 0), (5, 0), (6, 0)]).wr (enObj n) 7 0).wr (intObj n) 6 0).wr (detObj n) 0xB 0
  let s2 := s1.wr (regObj n) 9 0
  if n < 32 then (s2.wr (0x5300 + n) 3 0).wr (0x5320 + n) 3 0 else s2

/-- Counts since configuration of what a partial load's periphery carries start again: EDGES of its pins (R529), ITEMS_WRITTEN and
ITEMS_READ of its queues (R226) (notes/assumptions/166.md). -/
def State.carriedAnew (s : State) (c : Container) : State :=
  let s1 := s.each (fun t p => if c.hasPin p then t.wr (pinObj p) 9 0 else t) allPins
  s1.each (fun t k => if c.carries (0xB100 + k) then t.wrs (0xB100 + k) [(0x15, 0), (0x16, 0)] else t) (List.range 1024)

/-- A target's new configuration takes effect (R399, R401 step 7, R147, R339, R417, R419). -/
def State.targetNew (c : Container) (s : State) (n : Nat) : State :=
  let o := cfgObj n
  let s1 := (s.wr o 1 (1 - s.rd o 1)).wr o 2 c.version.toNat
  let s2 := (s1.bump o 3 4 1).wr o 4 s.now
  let s3 := (((s2.measured c n).wr (intObj n) 4 0).wr (intObj n) 5 (c.ebm.any (fun r => decide (rn r = n))).toNat).wrs (unitObj n) [(1, 0), (2, 0)]
  let s4 := if s3.regState n = 0 then (s3.modFence n (fun _ => { resetFrom := s3.now, closedAt := s3.now })).setRegState n 4 else s3
  let s5 := ((s4.countsAnew n).hopAsk (s4.rd (enObj n) 1) 4 n).unitRequest (unitKey 9 n)
  s5.regionAnew n

/-- Queues and regions that change owner (R451, R429). -/
def State.ownersFollow (s old : State) : State :=
  let s1 := s.each (fun t k =>
    let d := k / 512
    let q := k % 512
    if old.qo d q 2 ≠ 0 ∧ t.qo d q 2 ≠ 0 ∧ old.qo d q 1 ≠ t.qo d q 1 then t.flushStart d q 3 else t) (List.range 1024)
  ((s1.windowOwners old).each (fun t n => if old.regOwner n ≠ t.regOwner n then t.slotsStale n 1 else t) allRegions).chansFollow

/-- Domains whose windows a commit has changed: the mappings of their functions follow, and their locked TDIs go to ERROR (R303,
R329). -/
def State.windowsFollow (s old : State) : State :=
  let hit := (List.range 64).filter (fun w => [1, 2, 3, 4, 5].any (fun sub => decide (s.rd (winObj w) sub ≠ old.rd (winObj w) sub)))
  let doms := [1, 8, 9, 10, 11, 12, 13, 14, 15].filter (fun o =>
    hit.any (fun w => decide (s.rd (winObj w) 1 = o) || decide (old.rd (winObj w) 1 = o)))
  s.each State.windowsChanged doms

/-- An island whose ENABLE a commit changes starts or stops (R192, R196). -/
def State.islandFollow (old : State) (s : State) (i : Island) : State :=
  let o := islObj i.die.val i.i.val
  let was := old.rd o 3
  let new := s.rd o 3
  if was = new then s
  else if new = 1 then (s.wr o 3 0).islandOn i
  else (s.wr o 3 1).islandOff i 2

/-- Lanes and ports follow a commit (R288, R290): a changed MODE, rate or modulation takes a lane back to ACQUIRING and its port
DOWN. -/
def State.lanesFollow (s old : State) : State :=
  let mode (t : State) (p : Nat) : Nat := t.rd (rportObj p) 1
  let s1 := s.each (fun t p => if mode old p ≠ mode t p ∧ t.rd (rportObj p) 2 ≠ 0 then t.portLeave p 0 4 else t) (List.range 16)
  let s2 := s1.each (fun t k =>
    let was := old.rd (laneObj k) 3
    let new := t.rd (laneObj k) 3
    let moved := decide (old.laneRate k ≠ t.laneRate k) || decide (old.laneMod k ≠ t.laneMod k)
      || decide ((old.portOf k).map (fun p => (p, mode old p)) ≠ (t.portOf k).map (fun p => (p, mode t p)))
    if was ≠ new then (t.wr (laneObj k) 3 was).laneEnable k new
    else if new = 1 ∧ moved = true ∧ (t.rd (laneObj k) 2 = 2 ∨ t.rd (laneObj k) 2 = 3) then (t.laneLeave k 2 0 1 4).laneAcquire k
    else t) (List.range 16)
  s2.each State.recUpdate [0, 1]

/-- Actions held for the targets are dropped (R405). -/
def State.actsDrop (s : State) (ns : List Nat) : State :=
  let gone := s.cfg.acts.filter (fun a => ns.contains a.region)
  gone.foldl (fun t a => t.flipEvent a a.policy 3)
    { s with cfg := { s.cfg with acts := s.cfg.acts.filter (fun a => !ns.contains a.region) } }

/-- The read channels of a target after its commit (R564, R213): words of an item that a queue was presenting go back to the queue where that
is INERT now, or has another consumer. -/
def State.readsBack (old : State) (s : State) (n : Nat) : State :=
  (regionLports n).foldl (fun t p =>
    let q := old.po p.1 p.2 5
    let ws := t.fab.siteOut.get (fun _ => []) (n * 16 + portSlot p.2)
    if q < 512 ∧ ws ≠ [] ∧ (t.po p.1 p.2 5 ≠ q ∨ t.qState p.1 q ≠ 1) then
      let u := t.dropOut n (portSlot p.2)
      u.setQ p.1 q { u.q p.1 q with shown := ws }
    else t) s

/-- Queues that are RUNNING again present what they were presenting (R564). -/
def State.showAgain (s : State) : State :=
  s.each (fun t k =>
    let d := k / 512
    let q := k % 512
    let p := numOf (t.qo d q 4)
    let n := portRegion d p
    if t.qState d q = 1 ∧ kindOf (t.qo d q 4) = 1 ∧ t.fab.siteOut.get (fun _ => []) (n * 16 + portSlot p) = [] then
      let ws := (t.q d q).shown
      let u := t.setQ d q { t.q d q with shown := [] }
      { u with fab := u.fab.give n (portSlot p) ws }
    else t) (s.loc.queues.keysWhere (fun _ x => !x.shown.isEmpty))

/-- A partial load commits (R401 steps 6 to 10, R396, R404, R450, R451, R524). -/
def State.partCommit (s0 : State) (d : Nat) (c : Container) (fa : Nat) (otp : OtpResult) : State :=
  let s := s0.meterFold
  let ns := c.targets
  let moved := ns.filter (fun n => decide ((s.loaded c).regOwner n ≠ s.regOwner n))
  let t := ((s.each State.finishWrites moved).each State.cellsAnew ns).loaded c
  let t1 := t.each (State.targetNew c) ns
  let t2 := ((t1.each (fun u n => u.slotsStale n 0) ns).ownersFollow s).windowsFollow s
  let t3 := (islands.foldl (State.islandFollow s) t2).lanesFollow s
  let t4 := ((t3.each (fun u p => if c.hasPin p then u.pinSet p (u.manVal (pinObj p) 2) else u) allPins).carriedAnew c).countEdges s
  let t5 := (((t4.gateClaims ns).modeEpochs s).limitUpdate.actsDrop ns).ctrRaise c.counter.val c.minVersion.toNat otp
  let t6 := t5.debugCheck.each (fun u n => u.clearReason n 1) ns
  let t7 := (((ns.foldl (State.readsBack s) t6).showAgain).wrs (loadObj d) [(5, 4), (6, 0x010B)]).setLoad d {}
  (t7.raise 0x010B 3 0 (loadObj d) [(20, 1, ns.length), (22, 2, fa), (24, 8, s.now - (s.load d).startedAt)]).waitsGo

/-- PARTIAL_COMMIT (R401 steps 5 to 10, R402, R403): with every target FENCED the routing is checked again and the load commits, or its
commit fails on a frame. -/
def execPartialCommit (die : Fin 2) (badFrame : Option (BitVec 16)) (otp : OtpResult) (s : State) : Result :=
  let d := die.val
  match (s.load d).cont with
  | none => .next s
  | some c =>
    if s.loadState d = 2 ∧ s.targetsFenced d = true then
      let fa := s.faOf c
      let s1 := s.faSpent c
      match s1.routeReject (s1.loaded c) c (loadObj d) fa with
      | some r => .next ((s1.rejectEvent r).loadFail d r.1)
      | none =>
        let bad := (badFrame.map (fun f => f.toNat)).orElse (fun _ => s1.banksPoison (fun n => 1 - s1.activeBank n) c.targets)
        match bad.bind (fun f => (s1.toRestore c f).map (fun k => (f, k))) with
        | some (f, k) => .next ((s1.banksRead (fun n => 1 - s1.activeBank n) c.targets).commitFault d c f fa k)
        | none => .next ((s1.banksRead (fun n => 1 - s1.activeBank n) c.targets).partCommit d c fa otp)
    else .next s

end Sys2Proof.Machine
end

