-- ==== Sys2Proof/Machine/Planner.lean ====
section
/-! DEFINITION. The work planner as commands (R347, R358 to R361, R255, R412, R430): collections, posts, starts and completions. -/

namespace Sys2Proof.Machine

/-- Costs that REFRESH items have committed on an account (R358). -/
def State.committed (s : State) (a : Nat) : Nat :=
  (((s.led.items.keysWhere (fun _ _ => true)).filter (fun i => decide (s.itemKind i = 5) && decide (s.rd (itemObj i) 2 = a))).map
    (fun i => s.rd (itemObj i) 3)).foldl (· + ·) 0

/-- Time left in the present window. -/
def State.timeLeft (s : State) : Nat := s.led.windowStart + s.rd 0x3000 1 - s.now

/-- An energy less what the last window's mean power takes in the time left, rounded down (R359), fJ. -/
def State.afterMean (s : State) (e : Int) (last : Nat) : Int :=
  (e * (s.led.lastLen : Int) - ((last * s.timeLeft : Nat) : Int)) / (s.led.lastLen : Int)

/-- Charge of an account in the last window, fJ. -/
def State.lastCharge (s : State) (a : Nat) : Nat := s.led.m.last.get (fun _ => 0) a

/-- Headroom of an account (R359), fJ. -/
def State.headroom (s : State) (a : Nat) : Int :=
  s.afterMean (s.available a - (s.charged a : Int) - ((s.committed a * 10 ^ 9 : Nat) : Int)) (s.lastCharge a)

/-- Headroom of the package against E_PKG, fJ. -/
def State.pkgHeadroom (s : State) : Int :=
  s.afterMean (((s.ePkg * 1000 : Nat) : Int) - ((sumAccounts (fun a => s.charged a + s.committed a * 10 ^ 9) : Nat) : Int)) (sumAccounts s.lastCharge)

/-- A slot may take a snapshot of a set (R424, R428, R431). -/
def State.snapMay (s : State) (k : Nat) (members : List Nat) : Bool :=
  !members.isEmpty && members.all (fun n => decide (2 ≤ s.regState n) && !s.slotRuns n && !s.loadOn n
      && decide (s.regOwner n = s.rd (slotObj k) 2))
    && decide (members.length ≤ s.rd 0x2800 2) && !s.slotBusy k && !s.tamperActive

/-- Sequencer of a die (R535): the test that runs on it. -/
def State.seqSlot (s : State) (d : Nat) : Nat := s.rd 0x7000 (1 + d)

/-- The block of an item can claim what the item needs (R359). -/
def State.itemClaim (s : State) (i : Nat) : Bool :=
  let r := (s.item i).ref
  match s.itemKind i with
  | 1 => decide (s.rd 0x2000 1 = 4) && decide (s.cfg.scrubStart.getD r 0 = 0)
  | 2 => s.snapMay r (s.slotSet r)
  | 3 => s.annulusUp
  | 4 => decide (s.seqSlot (testDie (s.rd (testObj r) 3) (s.rd (testObj r) 4)) = 0xFF)
  | _ => false

/-- An item starts. A patrol item wakes the stacks that it reads (R361), a scrub pass begins to read, a snapshot to close its fences; a self-test goes on with TEST_START. -/
def State.itemStart (s : State) (faults : List FrameFault) (i : Nat) : State :=
  let r := (s.item i).ref
  let t := (if s.itemKind i = 3 then (s.wakeFor (r * 2 ^ 25) (2 ^ 25)).backStart else s).planStart i
  match s.itemKind i with
  | 1 => t.scrubStart r faults
  | 2 => t.snapStart r (t.slotSet r) (decide (t.rd (slotObj r) 5 = 1)) false
  | 4 => t.wr 0x7000 (1 + testDie (t.rd (testObj r) 3) (t.rd (testObj r) 4)) r
  | _ => t

/-- An item comes before another (R359): by latest start, then by posting. -/
def State.itemBefore (s : State) (i j : Nat) : Bool :=
  decide (s.itemLatest i < s.itemLatest j)
    || (decide (s.itemLatest i = s.itemLatest j) && decide ((s.item i).order < (s.item j).order))

/-- An item inserted in order. -/
def State.orderItem (s : State) (i : Nat) : List Nat → List Nat
  | [] => [i]
  | j :: l => if s.itemBefore i j then i :: j :: l else j :: s.orderItem i l

/-- The waiting items in the planner's order. -/
def State.orderedItems (s : State) : List Nat := s.waitingItems.foldl (fun l i => s.orderItem i l) []

/-- The planner starts an item on budget (R359, R361): its time has come, its claim and both tests pass. -/
def State.budgetStart (s : State) (i : Nat) : Bool :=
  decide ((s.item i).earliest ≤ s.now) && s.itemClaim i && decide ((s.rd (itemObj i) 3 * 10 ^ 9 : Nat) ≤ s.headroom (s.rd (itemObj i) 2))
    && decide ((s.rd (itemObj i) 3 * 10 ^ 9 : Nat) ≤ s.pkgHeadroom)

/-- Waiting items are considered one after another. -/
def State.startItems (s : State) (faults : List FrameFault) : List Nat → State
  | [] => s
  | i :: l => (if s.budgetStart i then s.itemStart faults i else s).startItems faults l

/-- Collections that the present window has reached (R347): one at each 10 µs of device time after its start. -/
def State.gridNow (s : State) : Nat := (s.now - s.led.windowStart) / 10000

/-- METER_COLLECTION (R347, R350, R359), once for each 10 µs of the window: the running charges follow the meters, exhausted accounts act, and the planner starts items;
not in a power state other than RUN (R361), nor in SPLIT_HOLD (R500). `faults` are what a scrub pass that starts here reads wrong. -/
def execMeterCollection (temps : List (Region × Int)) (faults : List FrameFault) (s : State) : Result :=
  if s.fwUp ∧ s.led.grid < s.gridNow ∧ s.now < s.led.windowStart + s.rd 0x3000 1 then
    let s1 := (({ s with led := { s.led with grid := s.gridNow } } : State).collect temps).checkBudgets
    .next (if s1.rd 0x3000 0xA = 0 ∧ s1.split = false then s1.startItems faults s1.orderedItems else s1)
  else .next s

/-- An item of a kind that works on `ref` is held. -/
def State.itemHeld (s : State) (kind ref : Nat) : Bool :=
  (s.led.items.keysWhere (fun _ _ => true)).any (fun i => decide (s.itemKind i = kind) && (decide (kind = 3) || decide ((s.item i).ref = ref)))

/-- A post; nothing changes where the planner is full. -/
def State.posting (s : State) (p : Option (Nat × State)) : State := match p with | some (_, t) => t | none => s

/-- PLANNER_ITEM_POST (R358): a block posts an item that it has due and not posted: a scrub pass of a die (R412), a scheduled snapshot
of a slot (R430), the next patrol item (R255), or the refresh of a POSTPONED pseudo-channel. Accounts and deadlines are those of the
kind. Self-tests are posted by TEST_POST alone. -/
def execPlannerItemPost (item : PlanItem) (s : State) : Result :=
  let r := item.ref
  let cost := item.cost.toNat
  let dur := item.duration.toNat
  let k := item.kind.val
  if s.fwUp = false ∨ s.itemHeld k r = true then .next s
  else if k = 1 ∧ r < 2 ∧ s.rd 0x2000 1 = 4 ∧ s.cfg.scrubStart.getD r 0 = 0 then
    .next (s.posting (s.planPost 1 9 cost dur s.now (s.now + 1000000 * s.rd 0x2800 1) r))
  else if k = 2 ∧ r < 64 ∧ s.rd (slotObj r) 8 = 1 ∧ s.rd (slotObj r) 6 ≠ 0 then
    let p := 1000000 * s.rd (slotObj r) 6
    let t := s.rd (slotObj r) 9
    .next (s.posting (s.planPost 2 (s.slotAccount r) cost dur (t + p / 2) (t + p) r))
  else if k = 3 ∧ r = s.rd 0x4000 4 ∧ s.annulusUp = true then
    let s1 : State := if r = 0 then { s with mem := { s.mem with patrolStart := s.now } } else s
    .next (s.posting (s1.planPost 3 9 cost dur item.earliest (s1.mem.patrolStart + (r + 1) * (s.rd 0x4000 3 * 10 ^ 9) / 1024) r))
  else if k = 5 ∧ r < 64 ∧ s.rd (pcRec r) 1 = 1 then .next (s.posting (s.planPost 5 9 cost dur s.now item.deadline r))
  else .next s

/-- A signed value as an I32, held at its bounds. -/
def i32 (v : Int) : Nat := ofSigned 32 (max (-(2 ^ 31)) (min (2 ^ 31 - 1) v))

/-- PLANNER_FORCED (R360): at its latest start an item starts whatever the budget, and a late one as soon as its claim succeeds. -/
def execPlannerForced (i : Fin 256) (faults : List FrameFault) (s : State) : Result :=
  let j := i.val
  if s.fwUp ∧ s.planWaits j = true ∧ max (s.itemLatest j) (s.item j).earliest ≤ s.now ∧ s.itemClaim j = true then
    let h := s.headroom (s.rd (itemObj j) 2)
    .next (((s.bump 0x3400 2 4 1).raise 0x0307 3 0 (itemObj j) [(20, 1, s.itemKind j), (24, 4, i32 (h / 10 ^ 9))]).itemStart faults j)
  else .next s

/-- DEADLINE_MISSED (R360): once for an item that has not started by its deadline. -/
def execDeadlineMissed (i : Fin 256) (s : State) : Result :=
  let o := itemObj i.val
  if s.itemState i.val = 1 ∧ s.rd o 5 ≤ s.now then
    .next (((s.wr o 6 3).bump 0x3400 3 4 1).raise 0x0308 3 2 o [(20, 1, s.itemKind i.val), (24, 8, s.rd o 5)])
  else .next s

/-- Double-bit errors that a patrol item met (R254, R255) beside those known before. Which words they are is open. -/
def State.patrolBad (s : State) (base : Nat) : Nat → State
  | 0 => s
  | k + 1 =>
    let p := base + 16 * s.freeVal 21
    let t := s.freeNext
    let u : State := { t with mem := { t.mem with errs := t.mem.errs.put (fun _ => 0) (t.memKey p / 16) 2 } }
    (u.freeNext.countUncorrectable (u.freeVal 8) p).patrolBad base k

/-- Double-bit errors that were known before, met again. The port that event 0x0402 names for the patrol is open. -/
def State.patrolAgain (s : State) : List Nat → State
  | [] => s
  | p :: l => (s.freeNext.countUncorrectable (s.freeVal 8) p).patrolAgain l

/-- Single-bit errors that a patrol item met are counted (R254) and repaired (R255): those known in each stack; where the others lie is open. -/
def State.patrolGood (s : State) (base size k : Nat) : State :=
  let known := s.knownErrs base size 1
  let in1 := (known.filter (fun p => decide (s.stackOf p = 1))).length
  let rest := k - known.length
  let more := if s.interleave then s.freeVal 32 % (rest + 1) else if s.stackOf base = 1 then rest else 0
  let t := (s.freeNext.countCorrected 0 (known.length - in1 + (rest - more))).countCorrected 1 (in1 + more)
  known.foldl (fun (u : State) p => { u with mem := { u.mem with errs := u.mem.errs.put (fun _ => 0) (u.memKey p / 16) 0 } }) t

/-- A patrol item of 32 MiB has been read (R255): `corrected` words with a single-bit error and `bad` words with a double-bit error, those known
before among them. -/
def State.patrolDone (s : State) (r corrected bad : Nat) : State :=
  let base := r * 2 ^ 25
  let two := s.knownErrs base (2 ^ 25) 2
  let nc := max corrected (s.knownErrs base (2 ^ 25) 1).length
  let nb := max bad two.length
  let s1 := (((s.patrolGood base (2 ^ 25) nc).patrolAgain two).patrolBad base (nb - two.length)).pcSweep 9 false base (2 ^ 25)
  let s2 : State := { s1 with mem := { s1.mem with patrolCorr := s1.mem.patrolCorr + nc, patrolUnc := s1.mem.patrolUnc + nb } }
  if r = 1023 then
    let s3 := ((s2.wr 0x4000 4 0).bump 0x4000 5 4 1).raise 0x0408 3 0 0x4000
      [(24, 4, min s2.mem.patrolCorr (2 ^ 32 - 1)), (28, 4, min s2.mem.patrolUnc (2 ^ 32 - 1))]
    { s3 with mem := { s3.mem with patrolCorr := 0, patrolUnc := 0 } }
  else s2.wr 0x4000 4 (r + 1)

/-- The work of a running item is over. -/
def State.itemOver (s : State) (i : Nat) : Bool :=
  let r := (s.item i).ref
  match s.itemKind i with
  | 1 => decide (s.cfg.scrubStart.getD r 0 = 0)
  | 2 => decide (s.rd (slotObj r) 8 ≠ 2)
  | 3 => true
  | 4 => decide (s.rd (testObj r) 8 ≠ 2) && decide (s.seqSlot (testDie (s.rd (testObj r) 3) (s.rd (testObj r) 4)) ≠ r)
  | _ => decide (s.rd (pcRec r) 1 ≠ 1)

/-- PLANNER_ITEM_COMPLETE (R358): the next cost estimate of the kind becomes (3 × old + measured) ÷ 4, and the place is empty. -/
def execPlannerItemComplete (i : Fin 256) (measured corrected uncorrectable : BitVec 32) (s : State) : Result :=
  let j := i.val
  if s.itemState j = 2 ∧ s.itemOver j = true then
    let k := s.itemKind j
    let old := (s.led.nextCost.get (fun _ => none) k).getD (s.rd (itemObj j) 3)
    let s1 := if k = 3 then s.patrolDone (s.item j).ref corrected.toNat uncorrectable.toNat else s
    let s2 : State := { s1 with led := { s1.led with nextCost := s1.led.nextCost.put (fun _ => none) k (some ((3 * old + measured.toNat) / 4)) } }
    .next (s2.planRemove j)
  else .next s

end Sys2Proof.Machine
end

