-- ==== Sys2Proof/Machine/Tamper.lean ====
section
/-! DEFINITION. Tamper detection and its response (R465 to R468). -/

namespace Sys2Proof.Machine

/-- Every volatile key and the DRBG state are zeroised (R467 step 3): KEY_STATE, the tokens, the IDE streams, and with them the TDIs
(R326). -/
def State.zeroise (s : State) : State :=
  let s1 : State := { s.wr 0x8000 3 3 with
    sec := { s.sec with packageKey := false, drbgLive := false },
    host := { s.host with sessions := ⟨[]⟩ } }
  let s2 := s1.each (fun t n => if t.rd (0x8100 + n) 6 = 1 then t.wr (0x8100 + n) 6 0 else t) (List.range 8)
  let s3 := s2.each (fun t d => t.tokenEnd 4 d) tokenDomains
  (s3.each (fun t k => t.ideDrop k 1) (List.range 9)).each (fun t c => t.tdiError 2 c) tdis

/-- Loads stop (R405), snapshots and rollbacks stop and every slot is EMPTY (R428), queues are flushed with cause 2 (R222),
self-tests end (R541). -/
def State.tamperStops (s : State) : State :=
  let s1 := (s.fullAbandon 3).each (fun t d => if 1 ≤ t.loadState d ∧ t.loadState d ≤ 3 then t.loadAbandon 3 d else t) [0, 1]
  let s2 := s1.each (fun t k =>
    (if t.slotBusy k then t.slotOpen k (slotBit (t.rd (slotObj k) 8)) else t).slotStop k) (List.range 64)
  let s3 := s2.each (fun t k => t.flushStart (k / 512) (k % 512) 2) (List.range 1024)
  s3.each (fun t k => (t.testEnd 3 k).testRelease k) testSlots

/-- The tamper response (R467), with zeroing or without. Its event has the cause 0 detected or 1 latched at power-on reset. -/
def State.tamperSeq (s : State) (cause : Nat) (zero : Bool) : State :=
  let s1 := (s.wr 0x8050 1 1).rayTamper.zeroise
  let s2 := (s1.fenceSet allRegions 7 true).tamperStops
  let s3 := s2.raise 0x0902 3 3 0x8050 [(20, 1, cause), (21, 1, s.rd 0x8000 6)]
  if zero then
    let s4 := s3.each (fun t w => t.zeroStart w false) (List.range 64)
    { s4 with mem := s4.memZero 0x780000000 0x80000000, cfg := { s4.cfg with banks := ⟨[]⟩ } }
  else s3

/-- The tamper response as TAMPER_POLICY sets it. -/
def State.tamperRun (s : State) (cause : Nat) : State := s.tamperSeq cause ((s.rd 0x8000 6).testBit 0)

/-- Detection (R466): the latch is set and TAMPER_COUNT counts it. TAMPER_TIME is 0 for a detection without power. -/
def State.tamperLatch (s : State) : State :=
  (({ s with dev := { s.dev with tamperLatch := true } } : State).bump 0x8050 5 4 1).wr 0x8050 3 (if s.dev.por then 0 else s.now)

/-- TAMPER (R465 to R467): TAMPER_N is low for 1 µs. A device already in the tamper state stays in it. -/
def execTamper (s : State) : Result :=
  if s.dev.tamperLow then .next s
  else
    let s1 := (({ s with dev := { s.dev with tamperLow := true } } : State).wr 0x8050 2 0).tamperLatch
    if s.dev.por ∨ s.tamperActive = true then .next s1
    else .next (({ s1 with dev := { s1.dev with keysDue := false } } : State).tamperRun 0)

/-- The tamper latch is cleared (R466); configuration that TAMPER_HOLD held goes on (R468). -/
def State.tamperClear (s : State) : State :=
  (({ s with dev := { s.dev with tamperLatch := false } } : State).wr 0x8050 1 0).step4Go

/-- TAMPER_ACK (R466). -/
def execTamperAck (q : Req) (v : BitVec 8) (s : State) : Result := s.writing q 0x8050 4 1 v.toNat State.tamperClear

/-- TAMPER_N_RELEASE (R468): the pin rises. A device that powered up with the pin low may now derive its keys. -/
def execTamperNRelease (s : State) : Result :=
  if s.dev.tamperLow then .next (({ s with dev := { s.dev with tamperLow := false } } : State).wr 0x8050 2 1) else .next s

end Sys2Proof.Machine
end

