-- ==== Sys2Proof/Machine/Power.lean ====
section
/-! DEFINITION. Power states (R362 to R364, R526), power-on reset (R553 to R555), the thermal alarm and the thermal shutdown (R561,
R562). -/

namespace Sys2Proof.Machine

/-- A pin's hold latch takes its level and direction (R526); a pin that is held already keeps them. The level of a waveform that the
model does not follow is open. -/
def State.padHold (s : State) (p : Nat) : State :=
  if s.rd (pinObj p) 8 = 1 then s
  else
    let driven := decide (sigKind (s.pinFunc p) = 1) && s.bankOk p
    match s.outLevel p with
    | some v => (s.setPad p { s.pad p with level := v, driven := driven }).wr (pinObj p) 8 1
    | none =>
      if driven then ((s.setPad p { s.pad p with level := decide (s.freeVal 1 = 1), driven := true }).wr (pinObj p) 8 1).freeNext
      else if sigKind (s.pinFunc p) = 3 ∧ s.bankOk p = true then
        ((s.setPad p { s.pad p with level := false, driven := decide (s.freeVal 1 = 1) }).wr (pinObj p) 8 1).freeNext
      else (s.setPad p { s.pad p with driven := false }).wr (pinObj p) 8 1

/-- Configured regions that are not gated. -/
def State.powered (s : State) : List Nat :=
  allRegions.filter (fun n => decide (s.regState n ≠ 0) && decide (s.rd (enObj n) 2 ≠ 3))

/-- Lanes go to IDLE in STANDBY and are OFF in STANDBY_GATED (R362, R290). -/
def State.lanesStandby (s : State) (v : Nat) : State :=
  let s1 := s.each (fun t k => if t.rd (laneObj k) 2 = 4 then t else t.laneIdle 2 k) (List.range 16)
  s1.each (fun t k => if t.rd (laneObj k) 2 = 4 ∨ t.rd (laneObj k) 3 = 0 then t else t.wr (laneObj k) 2 (if v = 2 then 0 else 1))
    (List.range 16)

/-- Regions whose GATE_SLOT is slot `k` and which are not gated. -/
def State.gateSet (s : State) (k : Nat) : List Nat := s.powered.filter (fun n => decide (s.rd (enObj n) 6 = k))

/-- Gating begins (R364): the regions of each GATE_SLOT are snapshotted into it as one set. A set that cannot be snapshotted stays
at VF_L. -/
def State.gateStart (s : State) : State :=
  s.each (fun t k =>
    let ms := t.gateSet k
    if t.snapMay k ms then t.snapStart k ms (decide (t.rd (slotObj k) 5 = 1)) true else t) (List.range 64)

/-- A gated region's rail comes back (R364): at VF_L or its floor, from where it hops as the Ledger sets. -/
def State.ungate (s : State) (n : Nat) : State := s.wr (enObj n) 2 (s.floorOf n)

/-- A slot's gated regions are restored (R364): by rollback from the slot, or, where the slot no longer holds a usable image, by a
reset. A gating that has not yet copied goes on as a plain snapshot. -/
def State.gateBack (s : State) (k : Nat) : State :=
  let ms := allRegions.filter (fun n => decide (s.rd (enObj n) 2 = 3) && decide (s.rd (enObj n) 6 = k))
  let s1 := if s.rd (slotObj k) 8 = 2 then s.setSlot k { s.slot k with gate := false } else s
  if ms = [] then s1
  else
    let s2 := s1.meterFold.each State.ungate ms
    if s.rd (slotObj k) 8 = 1 ∧ ms.all (fun n => (s.slot k).held.contains n) = true then s2.rollStart k false true
    else (s2.each State.resetAsk ms).each State.gateOpen ms

/-- The device enters a standby state, or goes from one to the other (R362, R364, R526, R541). -/
def State.standby (s : State) (v : Nat) : State :=
  let old := s.rd 0x3000 0xA
  let s1 := if old = 0 then (s.each (fun t k => t.testCut 6 k) testSlots).each State.padHold allPins else s
  let s2 := (s1.wr 0x3000 0xA v).lanesStandby v
  let s3 := s2.each (fun t n => t.hopAsk (t.floorOf n) 3 n) s2.powered
  if old = v then s else if v = 2 then s3.gateStart else s3.each State.gateBack (List.range 64)

/-- A region's rail at wake (R362: as the Ledger sets): HOME_RAIL, unless its account holds the action HOP or a thermal hop holds it
down; from its floor it then returns step by step (R339, R351). -/
def State.wakeHop (s : State) (n : Nat) : State :=
  if s.rd (accObj (accountOf (s.regOwner n))) 0xC = 1 ∨ s.led.thermal.contains n = true then s
  else s.hopAsk (max (s.rd (enObj n) 1) (s.floorOf n)) 3 n

/-- The device wakes to RUN (R363, R364, R290). -/
def State.wake (s : State) : State :=
  if s.rd 0x3000 0xA = 0 then s
  else
    let s1 := (s.wr 0x3000 0xA 0).each State.gateBack (List.range 64)
    (s1.each State.wakeHop s1.powered).each State.laneGo (List.range 16)

/-- POWER_STATE_STANDBY (R362): a write of 1 to POWER_STATE. -/
def execPowerStateStandby (q : Req) (s : State) : Result := s.writing q 0x3000 0xA 1 1 (fun t => t.standby 1)

/-- POWER_STATE_STANDBY_GATED (R364): a write of 2. -/
def execPowerStateStandbyGated (q : Req) (s : State) : Result := s.writing q 0x3000 0xA 1 2 (fun t => t.standby 2)

/-- POWER_STATE_RUN (R363): a write of 0. -/
def execPowerStateRun (q : Req) (s : State) : Result := s.writing q 0x3000 0xA 1 0 State.wake

/-- DEVICE_WAKE (R363): an edge at AO_WAKE, a Kimbe frame addressed to the device, or the link leaving L1.2 or L2. -/
def execDeviceWake (s : State) : Result := if s.fwUp then .next s.wake else .next s

/-- Objects fused in OTP (R437): they survive every power-on reset. -/
def fusedObj (idx sub : Nat) : Bool :=
  (decide (idx = 0x8000) && (decide (sub = 2) || (decide (4 ≤ sub) && decide (sub ≤ 7)) || decide (sub = 0xC)))
    || (decide (0x8010 ≤ idx) && decide (idx ≤ 0x8013)) || decide (idx = 0x8060)

/-- Objects held in the always-on domain (R554, R466, R197): TAMPER_COUNT, BOOT_IMAGE, the hold latches and the domain's own clock
source. -/
def aoObj (idx sub : Nat) : Bool :=
  (decide (idx = 0x8050) && decide (sub = 5)) || (decide (idx = 0x2000) && decide (sub = 4))
    || (decide (0x6010 ≤ idx) && decide (idx < 0x6038) && decide (sub = 8)) || (decide (idx = 0xA000) && decide (sub = 1))

/-- Power-on reset is asserted (R553): everything is as at reset but OTP and, unless VCCAO is lost, the always-on domain (R554).
What the outside world has sent or received, and the levels that it drives, are not the package's to reset. -/
def State.powerDown (s : State) (vccaoLost : Bool) : State :=
  let od := s.od.dropKeys (fun k => !(fusedObj (k / 256) (k % 256) || (aoObj (k / 256) (k % 256) && !vccaoLost)))
  let pend : SMap Nat := if vccaoLost then ⟨[]⟩ else s.sec.pendingCtr
  let t : State := { State.reset with
    pending := s.pending, od := od,
    out := { log := s.out.log, hostMem := s.out.hostMem, hostEp := s.out.hostEp, msix := s.out.msix },
    dev := { freeCtr := s.dev.freeCtr, tamperLow := s.dev.tamperLow, tamperLatch := s.dev.tamperLatch && !vccaoLost,
             perstLow := s.dev.perstLow, extInitLow := s.dev.extInitLow, shutdown := s.dev.shutdown },
    host := { barReads := s.host.barReads },
    ray := { line := s.ray.line },
    sec := { fused := s.sec.fused, pendingCtr := pend, wroteEc := s.sec.wroteEc, wroteMl := s.sec.wroteMl },
    mgt := { sent := s.mgt.sent },
    pin := { pads := if vccaoLost then ⟨[]⟩ else s.pin.pads, launched := s.pin.launched } }
  (t.each State.ctrSync (List.range 64)).wr 0x8050 2 (!s.dev.tamperLow).toNat

/-- POWER_ON_RESET_ASSERT (R553): a monitored rail fails, or VINF is removed; `vccaoLost` when VCCAO falls below 90%. -/
def execPowerOnResetAssert (vccaoLost : Bool) (s : State) : Result := .next (s.powerDown vccaoLost)

/-- Role of a MODE in the chain (R371, R502). -/
def roleOf (mode : Nat) : Nat := if mode = 2 then 1 else if mode = 3 ∨ mode = 4 then 2 else 0

/-- POWER_ON_RESET_RELEASE (R553): the rails are up, MODE is sampled (R371), held pins are released (R555), the regulators run (R333),
and pending counters are due for a retry (R448). With the tamper latch set TAMPER_STATE is LATCHED; with TAMPER_N low the device is in
the tamper state from the start (R468). A device that has shut down stays down (R562). -/
def execPowerOnResetRelease (mode : Fin 8) (s : State) : Result :=
  if s.dev.por = false ∨ s.dev.shutdown = true then .next s
  else
    let m := mode.val
    let s0 : State := { s with dev := { s.dev with por := false, mode := m } }
    let s1 := (s0.apexAwake 0).apexAwake 1
    let s2 := ((s1.wr 0x2000 2 m).wr 0x1010 1 (roleOf m)).each (fun t p => (t.wr (pinObj p) 8 0).setPad p {}) allPins
    let s3 := s2.each (fun t k => (t.wr (railObj k) 1 (railNominal (k % 4))).wr (railObj k) 5 1) (List.range 8)
    let s4 := if 5 ≤ m then s3.raise 0x0109 3 3 0x2000 [(20, 1, m)] else s3
    .next (if s.dev.tamperLow then
        (if s.dev.tamperLatch then s4.tamperRun 1 else s4.tamperLatch.tamperRun 0)
      else if s.dev.tamperLatch then (s4.wr 0x8050 1 2).raise 0x0902 3 3 0x8050 [(20, 1, 1), (21, 1, s4.rd 0x8000 6)]
      else s4)

/-- THERM_N (R561): the hottest junction sensor reads 100 °C or more, or every one reads below 95 °C. -/
def execThermN (celsius : Int) (s : State) : Result :=
  if s.dev.por then .next s
  else if 100 ≤ celsius ∧ s.dev.thermLow = false then
    .next { s with dev := { s.dev with thermLow := true }, led := { s.led with thermDies := [] } }
  else if celsius < 95 ∧ s.dev.thermLow = true then
    .next { s with dev := { s.dev with thermLow := false }, led := { s.led with thermDies := [] } }
  else .next s

/-- HARD_SHUTDOWN (R562): a junction sensor reads 110 °C: every regulator stops and power-on reset is asserted, with no event. -/
def execHardShutdown (celsius : Int) (s : State) : Result :=
  if s.dev.por ∨ celsius < 110 then .next s
  else .next (({ s with dev := { s.dev with shutdown := true } } : State).powerDown false)

/-- SHUTDOWN_RECOVERY (R562): VINF has been below 85% for 10 ms and has returned. -/
def execShutdownRecovery (s : State) : Result :=
  if s.dev.shutdown then .next { s with dev := { s.dev with shutdown := false } } else .next s

/-- AO_ALERT_N is driven low: by the tamper latch or state, by SPLIT_HOLD, or by the thermal shutdown (R467, R468, R500, R562). -/
def State.alertLow (s : State) : Bool := s.dev.tamperLatch || s.tamperActive || s.split || s.dev.shutdown

end Sys2Proof.Machine
end

