-- ==== Sys2Proof/Machine/Sebex.lean ====
section
/-! DEFINITION. Sebex's commands (R433 to R464, R565): keys, one-time programming, counters, quotes, tokens and random numbers. The
outcomes of derivation, unwrapping, signatures and programming are operands (notes/assumptions/5.md). -/

namespace Sys2Proof.Machine

/-- A value is drawn from the DRBG (R464): `bits` free bits. -/
def State.draw (s : State) (bits : Nat) : Nat × State :=
  (s.freeVal bits, { s.freeNext with sec := { s.sec with drbgRequests := s.sec.drbgRequests + 1 } })

/-- A new challenge of a domain is drawn (R455). -/
def State.newChallenge (s : State) (d : Nat) : State :=
  let p := s.draw 256
  p.2.wr (tokObj d) 1 p.1

/-- The entropy source has passed its start-up test (R464): the DRBG is seeded, and the package key and the challenges are drawn. -/
def State.entropyUp (s : State) : State :=
  if s.rd 0x8000 8 = 0 then
    let s1 : State := { s.wr 0x8000 8 1 with
      sec := { s.sec with drbgLive := true, packageKey := !s.tamperActive, drbgRequests := 0, reseededAt := s.now } }
    s1.each State.newChallenge tokenDomains
  else s

/-- KEY_DERIVATION (R434, R435, R468, R463): device keys come from the PUFs of both dies, once after each power-on reset and not while
TAMPER_N has been low since then; OWNER_CEK is unwrapped, which in RMA it never is. `failing` is a PUF that fails. -/
def execKeyDerivation (failing : Option (Fin 2)) (cekOk : Bool) (s : State) : Result :=
  if s.dev.por ∨ s.dev.keysDue = false ∨ s.dev.tamperLow = true then .next s
  else
    let s1 := ({ s with dev := { s.dev with keysDue := false } } : State).entropyUp
    match failing with
    | some d => .next ((s1.wr 0x8000 3 2).raise 0x090D 3 3 0x8000 [(20, 1, d.val)])
    | none =>
      let s2 := s1.wr 0x8000 3 1
      .next (if s2.rd 0x8000 0xC = 0 then s2 else s2.wr 0x8000 0xC (if cekOk && !s2.isRma then 1 else 2))

/-- Programming of an object's OTP field (R438): the state, the value that the field then has, and whether every bit was programmed.
A field with no bit left to program needs no programming. -/
def State.otpBits (s : State) (field old new : Nat) (r : OtpResult) : State × Nat × Bool :=
  if old ||| new = old then (s, old, true)
  else
    let t := s.vfuseSeen r
    match r with
    | .ok => (t, old ||| new, true)
    | .vfuse => (t.raise 0x0909 3 2 0x8000 [(20, 1, field), (21, 1, 0)], old, false)
    | .temperature => (t.raise 0x0909 3 2 0x8000 [(20, 1, field), (21, 1, 2)], old, false)
    | .mismatch p => (t.raise 0x0909 3 2 0x8000 [(20, 1, field), (21, 1, 1)], old ||| (new &&& p), false)

/-- Answer of a write that programs OTP. -/
def otpAnswer (ok : Bool) : Nat := if ok then 0 else abortState

/-- Both hashes of a slot have been written: VALID is programmed, and OWNED with that of slot 0 of a BLANK device (R439, R565). -/
def State.slotValid (s : State) (k : Nat) : State :=
  if s.sec.wroteEc.contains k && s.sec.wroteMl.contains k then
    let t := s.wr (0x8010 + k) 3 1
    if k = 0 ∧ t.rd 0x8000 2 = 0 then t.wr 0x8000 2 1 else t
  else s

/-- A write of one of a slot's hashes (R565). -/
def State.hashWrite (s : State) (k sub v : Nat) (r : OtpResult) : State × Nat :=
  let o := 0x8010 + k
  let p := s.otpBits 1 (s.rd o sub) v r
  let t := p.1.wr o sub p.2.1
  let t2 := if p.2.2 then
      (({ t with sec := (if sub = 1 then { t.sec with wroteEc := k :: t.sec.wroteEc } else { t.sec with wroteMl := k :: t.sec.wroteMl }) }
        : State).slotValid k)
    else t
  (t2, otpAnswer p.2.2)

/-- EC_HASH_WRITE (R565, R439). -/
def execEcHashWrite (q : Req) (k : Fin 4) (v : BitVec 384) (otp : OtpResult) (s : State) : Result :=
  s.writingTo q (0x8010 + k.val) 1 48 v.toNat (fun t => t.hashWrite k.val 1 v.toNat otp)

/-- ML_HASH_WRITE (R565, R439). -/
def execMlHashWrite (q : Req) (k : Fin 4) (v : BitVec 384) (otp : OtpResult) (s : State) : Result :=
  s.writingTo q (0x8010 + k.val) 2 48 v.toNat (fun t => t.hashWrite k.val 2 v.toNat otp)

/-- REVOKED of a slot is programmed, with event 0x090B (R565). -/
def State.slotRevoke (s : State) (k : Nat) (r : OtpResult) : State × Nat :=
  let p := s.otpBits 1 0 1 r
  (if p.2.2 then (p.1.wr (0x8010 + k) 3 2).raise 0x090B 3 1 (0x8010 + k) [(20, 1, k)] else p.1, otpAnswer p.2.2)

/-- KEY_REVOKED (R565). -/
def execKeyRevoked (q : Req) (k : Fin 4) (v : BitVec 8) (otp : OtpResult) (s : State) : Result :=
  s.writingTo q (0x8010 + k.val) 4 1 v.toNat (fun t => t.slotRevoke k.val otp)

/-- The 1 bits of a value are programmed into a policy or user field (R438, R469). -/
def State.otpField (s : State) (idx sub field v : Nat) (r : OtpResult) : State × Nat :=
  let p := s.otpBits field (s.rd idx sub) v r
  (p.1.wr idx sub p.2.1, otpAnswer p.2.2)

/-- Object, subindex, length and OTP_FAULT field of a policy or user field. -/
def otpPlace : OtpField → Nat × Nat × Nat × Nat
  | .sigPolicy => (0x8000, 4, 1, 2)
  | .debugPolicy => (0x8000, 5, 1, 2)
  | .tamperPolicy => (0x8000, 6, 1, 2)
  | .userOtp n => (0x8060, 1 + n.val, 32, 6)

/-- POLICY_OTP_WRITE (R438, R469): the value's 1 bits are programmed. A policy is one octet, of which the operand gives the low bits. -/
def execPolicyOtpWrite (q : Req) (f : OtpField) (v : BitVec 256) (otp : OtpResult) (s : State) : Result :=
  match otpPlace f with
  | (idx, sub, len, field) =>
    let x := v.toNat % 256 ^ len
    s.writingTo q idx sub len x (fun t => t.otpField idx sub field x otp)

/-- OWNER_CEK is wrapped under KEK and programmed with its VALID bit (R469). -/
def State.cekProgram (s : State) (r : OtpResult) : State × Nat :=
  let p := s.otpBits 3 0 1 r
  (if p.2.2 then p.1.wr 0x8000 0xC 1 else p.1, otpAnswer p.2.2)

/-- OWNER_CEK_BLOB_WRITE (R469). The value checked is 1 for a blob that unwraps. -/
def execOwnerCekBlobWrite (q : Req) (blob : List Byte) (unwrapOk : Bool) (otp : OtpResult) (s : State) : Result :=
  s.writingTo q 0x8000 0xB blob.length unwrapOk.toNat (fun t => t.cekProgram otp)

/-- COUNTER_RETRY (R448): a pending value is programmed again, 1 s after the failure or after power-on reset. One that fails again raises
no event. -/
def execCounterRetry (c : Fin 64) (otp : OtpResult) (s : State) : Result :=
  let k := c.val
  let old := s.ctrFused k
  let v := s.ctrPending k
  if s.dev.por ∨ v ≤ old ∨ s.now < s.sec.retryAt.get (fun _ => 0) k then .next s
  else
    let t := s.vfuseSeen otp
    let again (u : State) : State := { u with sec := { u.sec with retryAt := u.sec.retryAt.put (fun _ => 0) k (s.now + 10 ^ 9) } }
    match otp with
    | .ok => .next ((t.ctrFuse k v).raise 0x0906 3 0 0x8020 [(20, 1, k), (21, 1, old), (22, 1, v)])
    | .mismatch n => .next (again (t.ctrFuse k (min (old + n) (v - 1))))
    | _ => .next (again t)

/-- A domain's present quote is discarded and a new one begun (R453). -/
def State.quoteBegin (s : State) (d v : Nat) : State :=
  s.wrs (quoteObj d) [(1, v), (2, 1), (3, 0), (4, 0), (5, 0), (6, 0), (7, 0)]

/-- NONCE (R453). -/
def execNonce (q : Req) (d : BitVec 4) (v : BitVec 256) (s : State) : Result :=
  s.writing q (quoteObj d.toNat) 1 32 v.toNat (fun t => t.quoteBegin d.toNat v.toNat)

/-- Regions that a domain's quote includes (R454). -/
def State.quoteRegions (s : State) (d : Nat) : List Nat :=
  allRegions.filter (fun n => decide (s.regState n ≠ 0) && (decide (d = 1) || decide (s.regOwner n = d)))

/-- FLAGS of a quote (R453). -/
def State.quoteFlags (s : State) (d : Nat) : Nat :=
  (decide (s.rd 0x8050 1 ≠ 0)).toNat + 2 * (tokenDomains.any (fun t => decide (s.rd (tokObj t) 4 = 1))).toNat
    + 4 * ((s.quoteRegions d).any (fun n => decide (s.rd (intObj n) 3 = 1))).toNat + 8 * s.isRma.toNat

/-- The measurements of a list of regions at their places in a quote (R453, R454). -/
def measurements (at_ : Nat → Nat) : List Nat → Nat
  | [] => 0
  | n :: l => at_ n <<< (384 * n) ||| measurements at_ l

/-- The body of a quote (R453, R454). The digests are those that the committed containers brought. -/
def State.quoteBody (s : State) (d : Nat) : Nat :=
  let rs := s.quoteRegions d
  0x5451345A ||| 1 <<< 32 ||| d <<< 48 ||| s.quoteFlags d <<< 56 ||| (Config.serial % 2 ^ 64) <<< 64 ||| s.rd (quoteObj d) 1 <<< 128
    ||| s.now <<< 384 ||| (s.sec.fwDigest % 2 ^ 384) <<< 448 ||| s.cfg.fullHash <<< 832
    ||| ((List.range 64).foldl (fun m c => m + s.ctrValue c * 256 ^ c) 0) <<< 1216
    ||| (rs.foldl setBit 0) <<< 1728 ||| measurements (s.cfg.measures.get (fun _ => 0)) rs <<< 2048

/-- QUOTE_READY (R453), once Sebex has its device keys (R435): the body and its signatures stand in the quote record. -/
def execQuoteReady (d : BitVec 4) (s : State) : Result :=
  let o := quoteObj d.toNat
  if tokenDomains.contains d.toNat && decide (s.rd o 2 = 1) && s.keysReady then
    .next ((s.wrs o [(2, 2), (3, s.quoteBody d.toNat), (4, s.freeVal 768), (5, s.freeNext.freeVal 16384),
      (6, s.freeNext.freeNext.freeVal 16384), (7, s.freeNext.freeNext.freeNext.freeVal 4248)]).freeNext.freeNext.freeNext.freeNext)
  else .next s

/-- A domain's token buffer (R469). -/
def State.tokBuf (s : State) (d : Nat) : List Byte := s.sec.buffers.get (fun _ => []) d
/-- Set a domain's token buffer. -/
def State.setTokBuf (s : State) (d : Nat) (l : List Byte) : State :=
  { s with sec := { s.sec with buffers := s.sec.buffers.put (fun _ => []) d l } }

/-- TOKEN_APPEND (R469). -/
def execTokenAppend (q : Req) (d : BitVec 4) (bytes : List Byte) (s : State) : Result :=
  s.writing q (tokObj d.toNat) 2 bytes.length 0 (fun t => t.setTokBuf d.toNat (t.tokBuf d.toNat ++ bytes))

/-- A field of the octets of a token. -/
def octField (l : List Byte) (at_ n : Nat) : Nat := ofOctets ((l.drop at_).take n)

/-- The token that octets spell (R456). The digests of its SIGNER keys and the outcomes of its signature checks are those of `x`. -/
def tokenFrom (l : List Byte) (x : DebugToken) : DebugToken :=
  { formOk := decide (l.length = 7476) && decide (octField l 0 4 = 0x4B54345A) && decide (octField l 4 2 = 1) && decide (octField l 7 1 = 0)
      && decide (octField l 60 4 = 0),
    domain := octField l 6 1, serial := octField l 8 8, challenge := octField l 16 32, durationS := octField l 48 4,
    scope := BitVec.ofNat 32 (octField l 52 4), keyId := BitVec.ofNat 32 (octField l 56 4),
    signerHash := x.signerHash, sigEcOk := x.sigEcOk, sigMlOk := x.sigMlOk }

/-- KIND of a KEY_ID (R440). -/
def kindId (k : Nat) : Nat := k / 2 ^ 28

/-- The SIGNER hashes and KEY_ID authorise a token's domain (R457, R458 reason 4, R463). -/
def State.tokenSigner (s : State) (d : Nat) (t : DebugToken) : Bool :=
  let k := t.keyId.toNat
  decide (t.domain = d) && !(s.isRma && decide (kindId k = 1)) &&
    (s.signerOk d k t.signerHash || (decide (d = 1) && decide (k = 0x30000000) && decide (t.signerHash = Config.rmaKey)))

/-- SCOPE is allowed (R457). -/
def State.scopeOk (s : State) (d : Nat) (t : DebugToken) : Bool :=
  let v := t.scope.toNat
  let p := s.rd 0x8000 5
  if kindId t.keyId.toNat = 3 then decide (v = 8) && p.testBit 2
  else decide (v < 8) && (!v.testBit 1 || p.testBit (if d = 1 then 0 else 1))
    && (!v.testBit 2 || (decide (d = 1) && p.testBit 0 && s.noTenant))

/-- The first failing reason of R458; 0 for a token that is accepted. -/
def State.tokenReason (s : State) (d : Nat) (t : DebugToken) : Nat :=
  let m := s.rd 0x8000 4 % 4
  if t.formOk = false then 1
  else if t.serial ≠ Config.serial % 2 ^ 64 then 2
  else if t.challenge ≠ s.rd (tokObj d) 1 then 3
  else if s.tokenSigner d t = false then 4
  else if (m ≠ 2 ∧ t.sigEcOk = false) ∨ (m ≠ 1 ∧ t.sigMlOk = false) then 5
  else if s.scopeOk d t = false then 6
  else if t.durationS < 1 ∨ 86400 < t.durationS then 7
  else if s.tamperActive || !s.keysReady then 8
  else 0

/-- A token is submitted for a domain (R455, R458). -/
def State.tokenSubmit (s : State) (d : Nat) (t : DebugToken) : State :=
  let o := tokObj d
  let r := s.tokenReason d t
  if r ≠ 0 then
    (((({ s with sec := { s.sec with lastReject := r } } : State).bump o 8 4 1).raise 0x0904 3 1 o [(20, 1, d), (21, 1, r)]).newChallenge d)
  else
    let s1 := (s.tokenEnd 2 d).wrs o [(4, 1), (5, t.scope.toNat), (6, s.now + t.durationS * 10 ^ 9)]
    (s1.raise 0x0903 3 1 o [(20, 1, d), (24, 4, t.scope.toNat), (28, 4, t.durationS)]).newChallenge d

/-- A write of TOKEN_SUBMIT (R469): 1 submits the buffer, 2 does not; either empties it. -/
def State.tokenPut (s : State) (d v : Nat) (x : DebugToken) : State :=
  let t := s.setTokBuf d []
  if v = 1 then t.tokenSubmit d (tokenFrom (s.tokBuf d) x) else t

/-- TOKEN_SUBMIT (R458, R469). The token is what the buffer spells; `t` gives the outcomes of its checks. -/
def execTokenSubmit (q : Req) (d : BitVec 4) (v : BitVec 8) (t : DebugToken) (s : State) : Result :=
  s.writing q (tokObj d.toNat) 3 1 v.toNat (fun u => u.tokenPut d.toNat v.toNat t)

/-- What stands for a token whose checks are not asked for. -/
def noToken : DebugToken := ⟨false, 0, 0, 0, 0, 0, 0, 0, false, false⟩

/-- TOKEN_DISCARD (R469): a write of 2 empties the buffer. -/
def execTokenDiscard (q : Req) (d : BitVec 4) (v : BitVec 8) (s : State) : Result :=
  s.writing q (tokObj d.toNat) 3 1 v.toNat (fun u => u.tokenPut d.toNat v.toNat noToken)

/-- TOKEN_REVOKE (R459). -/
def execTokenRevoke (q : Req) (d : BitVec 4) (v : BitVec 8) (s : State) : Result :=
  s.writing q (tokObj d.toNat) 7 1 v.toNat (fun t => t.tokenEnd 1 d.toNat)

/-- TOKEN_EXPIRY (R459). -/
def execTokenExpiry (d : BitVec 4) (s : State) : Result :=
  if tokenDomains.contains d.toNat && decide (s.rd (tokObj d.toNat) 6 ≤ s.now) then .next (s.tokenEnd 0 d.toNat) else .next s

/-- DRBG_RESEED (R464): after 2^20 requests or 10 s. -/
def execDrbgReseed (s : State) : Result :=
  if s.sec.drbgLive && (decide (2 ^ 20 ≤ s.sec.drbgRequests) || decide (s.sec.reseededAt + 10 ^ 10 ≤ s.now)) then
    .next { s with sec := { s.sec with drbgRequests := 0, reseededAt := s.now } }
  else .next s

/-- ENTROPY_FAIL (R464): a health test fails; the start-up test only before it has passed. -/
def execEntropyFail (test : Fin 3) (s : State) : Result :=
  if s.dev.por ∨ s.rd 0x8000 8 = 2 ∨ (test.val = 0 ∧ s.rd 0x8000 8 ≠ 0) then .next s
  else .next ((s.wr 0x8000 8 2).raise 0x090A 3 3 0x8000 [(20, 1, test.val)])

end Sys2Proof.Machine
end

