-- ==== Sys2Proof/Machine/Jtag.lean ====
section
/-! DEFINITION. The JTAG instructions (R460 to R463, R563). `DevSt.ir` holds the instruction in force and `DevSt.dr` what its data
register captures. -/

namespace Sys2Proof.Machine

/-- What the instruction register captures (R461): 0x05 while a token with one of the scope bits 1 to 3 is active, else 0x01. -/
def State.irCapture (s : State) : Nat := if tokenDomains.any (fun d => [1, 2, 3].any (s.tokenScope d)) then 5 else 1

/-- An instruction takes its place, after the register's capture has been shifted out. Pins that JTAG held return to their FUNC on any instruction that does not hold them (R527). -/
def State.jtagIr (s : State) (code dr : Nat) : State :=
  let hold := s.pin.jtag && (decide (code = 3) || decide (code = 4) || decide (code = 6))
  { s with dev := { s.dev with ir := code, irOut := s.irCapture, dr := dr }, pin := { s.pin with jtag := hold } }

/-- The one-bit bypass register is selected. -/
def State.jtagBypass (s : State) : State := s.jtagIr 0xFF 0

/-- A gated instruction is available: a token with the scope bit is active for the domain, or LIFECYCLE is RMA (R461, R463). -/
def State.jtagMay (s : State) (d bit : Nat) : Bool := s.isRma || s.tokenScope d bit

/-- Configuration STATE is WAIT_DONE, STARTING or RUNNING (R462). -/
def State.pinsLive (s : State) : Bool := decide (2 ≤ s.rd 0x2000 1) && decide (s.rd 0x2000 1 ≤ 4)

/-- JTAG takes the pins from their FUNC (R462), with event 0x090C while they have one; under JTAG_EXTEST_LOCK the instruction selects
BYPASS instead. Edges that JTAG makes on the pins are not followed. -/
def State.jtagPins (s : State) (code dr : Nat) (cells : BitVec 120) : State :=
  if s.pinsLive && (s.rd 0x8000 5).testBit 3 then s.jtagBypass
  else
    let s1 := s.each (fun t p => t.setPad p { t.pad p with wave := true }) allPins
    let s2 : State := { s1 with dev := { s1.dev with ir := code, irOut := s.irCapture, dr := dr, bscan := cells }, pin := { s1.pin with jtag := true } }
    if s.pinsLive then s2.raise 0x090C 3 1 0x8000 [(20, 1, code)] else s2

/-- SAMPLE_PRELOAD (R461): the boundary-scan register captures the pins. -/
def execSamplePreload (capture : BitVec 120) (s : State) : Result :=
  .next (({ s with dev := { s.dev with bscan := capture } } : State).jtagIr 1 capture.toNat)

/-- IDCODE (R461, R563): the identity of stepping B0. -/
def execIdcode (s : State) : Result := .next (s.jtagIr 2 0x14096357)

/-- HIGHZ (R462). -/
def execHighz (s : State) : Result := .next (s.jtagPins 3 0 s.dev.bscan)

/-- CLAMP (R462): the pins hold the boundary values. -/
def execClamp (s : State) : Result := .next (s.jtagPins 4 0 s.dev.bscan)

/-- EXTEST (R462): the pins are driven from the boundary-scan register. -/
def execExtest (cells : BitVec 120) (s : State) : Result := .next (s.jtagPins 6 cells.toNat cells)

/-- DBG_CHALLENGE (R461): an owner code in, its challenge out; a code of no token record has none. -/
def execDbgChallenge (owner : BitVec 8) (s : State) : Result :=
  .next (s.jtagIr 0x10 (owner.toNat + 256 * (if tokenDomains.contains owner.toNat then s.rd (tokObj owner.toNat) 1 else 0)))

/-- DBG_TOKEN (R461, R458): a token is submitted for the domain that it names; a DOMAIN of no token record fails the first check. -/
def execDbgToken (t : DebugToken) (s : State) : Result :=
  let u := s.jtagIr 0x11 0
  let d := t.domain % 256
  if s.dev.por then .next u
  else if tokenDomains.contains d then .next (u.tokenSubmit d t)
  else .next (({ u with sec := { u.sec with lastReject := 1 } } : State).raise 0x0904 3 1 (0x8040 + d) [(20, 1, d), (21, 1, 1)])

/-- DBG_STATUS (R461): one bit for each owner code with an active token, and LAST_REJECT. -/
def execDbgStatus (s : State) : Result :=
  .next (s.jtagIr 0x12 ((tokenDomains.filter (fun d => decide (s.rd (tokObj d) 4 = 1))).foldl setBit 0 + s.sec.lastReject * 65536))

/-- STATE_READ (R460): state frames and Pool contents of a FENCED region, whose layout is open. -/
def execStateRead (r : Region) (s : State) : Result :=
  if s.jtagMay (s.regOwner (rn r)) 1 = false then .next s.jtagBypass
  else if s.fenced (rn r) then .next (s.jtagIr 0x20 (s.freeVal 4096)).freeNext
  else .next (s.jtagIr 0x20 0)

/-- APEX_ACCESS (R461): the debug port of Apex is selected. -/
def execApexAccess (s : State) : Result := .next (if s.jtagMay 1 2 then s.jtagIr 0x21 0 else s.jtagBypass)

/-- RMA_ENTER (R463): LIFECYCLE RMA, the tamper response with zeroing, event 0x090E. -/
def execRmaEnter (s : State) : Result :=
  if s.dev.por = true ∨ s.jtagMay 1 3 = false then .next s.jtagBypass
  else
    let s1 := (s.jtagIr 0x30 0).wr 0x8000 2 2
    let s2 : State := { s1 with dev := { s1.dev with tamperLatch := true, keysDue := false } }
    .next ((s2.tamperSeq 0 true).raise 0x090E 3 3 0x8000 [])

/-- BYPASS (R461). -/
def execBypass (s : State) : Result := .next s.jtagBypass

end Sys2Proof.Machine
end

