-- ==== Sys2Proof/Machine/Perimeter.lean ====
section
/-! DEFINITION. The Perimeter's commands (R505 to R527): banks, pins, fabric perimeter channels, the serial, PWM and time-stamp capture
peripherals, interrupt lines and held pins. -/

namespace Sys2Proof.Machine

/-- VCCIO lies within a percentage of what VCCIO_SEL declares. -/
def vccioWithin (pct sel mv : Nat) : Bool :=
  let n := vccioNominal sel
  decide (n * (100 - pct) ≤ mv * 100) && decide (mv * 100 ≤ n * (100 + pct))

/-- A bank's VCCIO watch. -/
def State.bank (s : State) (b : Nat) : BankSt := s.pin.banks.get (fun _ => {}) b

/-- A time since when a condition has held. -/
def sinceWhen (holds : Bool) (now : Nat) (old : Option Nat) : Option Nat := if holds then some (old.getD now) else none

/-- A condition has held for a time. -/
def heldFor (since : Option Nat) (now d : Nat) : Bool := match since with | some t => decide (t + d ≤ now) | none => false

/-- VCCIO_MEASUREMENT (R505, R527, R537): the bank's state follows VCCIO; each change raises event 0x0703, and a bank that leaves OK
ends the pad tests of its pins. -/
def execVccioMeasurement (bank : Fin 4) (mv : BitVec 16) (s : State) : Result :=
  if s.dev.por then .next s
  else
    let b := bank.val
    let v := mv.toNat
    let sel := s.rd (bankObj b) 1
    let x : BankSt := { outFrom := sinceWhen (!vccioWithin 10 sel v) s.now (s.bank b).outFrom,
                        inFrom := sinceWhen (vccioWithin 5 sel v) s.now (s.bank b).inFrom }
    let old := s.rd (bankObj b) 3
    let st := if v < 500 then 0 else if heldFor x.outFrom s.now 100000 then 2 else if heldFor x.inFrom s.now 1000000 then 1 else old
    let s1 := ({ s with pin := { s.pin with banks := s.pin.banks.put (fun _ => {}) b x } } : State).wr (bankObj b) 2 v
    if st = old then .next s1
    else
      let s2 := (s1.wr (bankObj b) 3 st).raise 0x0703 3 1 (bankObj b) [(20, 1, st), (22, 2, v)]
      .next (if old = 1 then s2.each (fun t p => t.unitRequest (unitKey 10 p)) (allPins.filter (fun p => decide (p / 10 = b))) else s2)

/-- FUNC_WRITE (R510, R512, R517). -/
def execFuncWrite (q : Req) (p : Fin 40) (v : BitVec 16) (s : State) : Result :=
  s.writing q (pinObj p.val) 2 2 v.toNat (fun t => t.pinSwitch p.val v.toNat)

/-- Subindex of a pin's setting. -/
def settingSub : PinSetting → Nat
  | .drive => 3
  | .pull => 4
  | .outValue => 6

/-- A pin's setting changes (R518). -/
def State.pinSetting (s : State) (p sub v : Nat) : State := (s.wr (pinObj p) sub v).countEdge s p

/-- PIN_SETTING_WRITE (R518). -/
def execPinSettingWrite (q : Req) (p : Fin 40) (setting : PinSetting) (v : BitVec 8) (s : State) : Result :=
  s.writing q (pinObj p.val) (settingSub setting) 1 v.toNat (fun t => t.pinSetting p.val (settingSub setting) v.toNat)

/-- FABRIC_OUT (R514): bit [0] of the word becomes the channel's value. -/
def execFabricOut (c : Fin 40) (w : Word) (s : State) : Result := .next ((s.valueTake (.pin c) w).countEdges s)

/-- FABRIC_IN (R514, R516): a request is answered with the synchronised level, logged as SITE_VALUE. -/
def execFabricIn (c : Fin 40) (w : Word) (s : State) : Result := .next (s.valueAsk (.pin c) w)

/-- Bits of a peripheral's STATUS set and cleared. -/
def State.statusBit (s : State) (k bit : Nat) (v : Bool) : State :=
  let o := serialObj k
  s.wr o 6 (if v then setBit (s.rd o 6) bit else clrBit (s.rd o 6) bit)

/-- Bytes written to XFER (R519). A UART queues them; I2C and SPI begin a transfer, of which RLEN, or as many bytes, are to be received.
BUSY stands while bytes wait or the transfer runs. -/
def State.serialPut (s : State) (k : Nat) (bytes : List Byte) : State :=
  let x := s.serial k
  if k < 2 then
    (s.setSerial k { x with tx := x.tx ++ bytes, byteAt := if x.tx = [] then s.now else x.byteAt }).statusBit k 0 true
  else
    let want := if k = 4 then bytes.length else (bytes.getD 1 0).toNat
    (s.setSerial k { tx := bytes, rx := [], wantRx := want, byteAt := s.now }).statusBit k 0 true

/-- UART_XFER (R519). -/
def execUartXfer (q : Req) (k : Fin 2) (bytes : List Byte) (s : State) : Result :=
  s.writing q (serialObj k.val) 4 bytes.length (ofOctets bytes) (fun t => t.serialPut k.val bytes)

/-- I2C_XFER (R519). -/
def execI2cXfer (q : Req) (k : Fin 2) (bytes : List Byte) (s : State) : Result :=
  s.writing q (serialObj (2 + k.val)) 4 bytes.length (ofOctets bytes) (fun t => t.serialPut (2 + k.val) bytes)

/-- SPI_XFER (R519). -/
def execSpiXfer (q : Req) (bytes : List Byte) (s : State) : Result :=
  s.writing q (serialObj 4) 4 bytes.length (ofOctets bytes) (fun t => t.serialPut 4 bytes)

/-- Received bytes are read: a UART's are removed as read (R519). -/
def State.serialGet (s : State) (k : Nat) : State :=
  let x := s.serial k
  let t := s.answer 0 x.rx
  if k < 2 then t.setSerial k { x with rx := [] } else t

/-- UART_RX_READ (R519). -/
def execUartRxRead (q : Req) (k : Fin 2) (s : State) : Result :=
  let a := s.readAbort q (serialObj k.val) 5
  .next (if a = 0 then s.serialGet k.val else s.answer a [])

/-- An input signal of a claimed peripheral is fed: exactly one pin names it, of a bank that is OK (R509, R512). -/
def State.fed (s : State) (o c : Nat) : Bool :=
  decide (s.rd o 1 = 1) && s.sigFed c

/-- UART_BYTE_RECEIVED (R519): held, or dropped with OVERRUN while 256 are held. A UART that no domain holds, or whose RX no pin feeds,
receives nothing. -/
def execUartByteReceived (k : Fin 2) (b : Byte) (s : State) : Result :=
  let x := s.serial k.val
  if s.fed (serialObj k.val) (0x1C1 + 4 * k.val) = false then .next s
  else if x.rx.length < 256 then .next (s.setSerial k.val { x with rx := x.rx ++ [b] })
  else .next (s.statusBit k.val 2 true)

/-- SERIAL_TRANSFER_COMPLETE (R519): an I2C or SPI transfer ends with its received bytes, or an I2C transfer with a NACK. -/
def execSerialTransferComplete (k : Fin 3) (nack : Bool) (rx : List Byte) (s : State) : Result :=
  let j := 2 + k.val
  let x := s.serial j
  if (s.rd (serialObj j) 6).testBit 0 = false then .next s
  else if nack ∧ j < 4 then .next (((s.setSerial j {}).statusBit j 0 false).statusBit j 1 true)
  else if rx.length = x.wantRx then .next ((s.setSerial j { rx := rx }).statusBit j 0 false)
  else .next s

/-- The prime's transfers end ABORTED at a takeover (R499, under Apex peripherals). -/
def State.serialAbort (s : State) : State :=
  s.each (fun t k =>
    if (t.rd (serialObj k) 6).testBit 0 then ((t.setSerial k { t.serial k with tx := [], wantRx := 0 }).statusBit k 0 false).statusBit k 3 true
    else t) (List.range 5)

/-- PWM_PERIOD_START (R520): a period begins, with PERIOD_NS and HIGH_NS as they stand. -/
def execPwmPeriodStart (k : Fin 4) (s : State) : Result :=
  let o := pwmObj k.val
  let x := s.pwm k.val
  if s.rd o 1 = 1 ∧ s.rd o 5 = 1 ∧ (x.period = 0 ∨ x.start + x.period ≤ s.now) then
    .next ((s.setPwm k.val { start := if x.period = 0 then s.now else x.start + x.period,
                             period := s.rd o 3 / 5 * 5, high := s.rd o 4 / 5 * 5 }).countEdges s)
  else .next s

/-- TSCAP_EDGE (R521): a selected edge is recorded. With TIME_SOURCE 0 the stamp lies within 5 ns of the pad edge; otherwise nothing
bounds it. -/
def execTscapEdge (k : Fin 4) (rising : Bool) (s : State) : Result :=
  let o := tscapObj k.val
  let e := s.rd o 3
  if s.fed o (0x1D7 + k.val) = true ∧ (e = 3 ∨ (e = 1 ∧ rising = true) ∨ (e = 2 ∧ rising = false)) then
    let v := if s.rd 0xA200 2 = 0 then (s.now + s.freeVal 64 % 11 - 5) % 2 ^ 64 else s.freeVal 64
    .next ((s.freeNext.wr o 4 v).bump o 5 4 1)
  else .next s

/-- An interrupt line's window. -/
def State.line (s : State) (n : Nat) : LineSt := s.pin.lines.get (fun _ => {}) n
/-- Set an interrupt line's window. -/
def State.setLine (s : State) (n : Nat) (x : LineSt) : State :=
  { s with pin := { s.pin with lines := s.pin.lines.put (fun _ => {}) n x } }

/-- The pin that a line samples (R522). -/
def State.linePin (s : State) (n : Nat) : Nat := 10 * s.rd (lineObj n) 3 + n

/-- The prime Apex is awake (R471), which raises the lines' events. -/
def State.apexUp (s : State) : Bool := s.dev.awake.contains (s.rd 0x1030 1)

/-- Event 0x0701 of a line (R523, R530). -/
def State.lineEvent (s : State) (n : Nat) (level : Bool) (count : Nat) : State :=
  s.raise 0x0701 3 0 (lineObj n) [(20, 1, n), (21, 1, level.toNat), (24, 4, count)]

/-- A line's level is active under its level trigger. -/
def lineActive (trigger : Nat) (level : Bool) : Bool := (decide (trigger = 4) && level) || (decide (trigger = 5) && !level)

/-- A level selects an event of a line: an edge of its TRIGGER, or entry to the active level. -/
def lineHits (trigger : Nat) (old level : Bool) : Bool :=
  match trigger with
  | 1 => level
  | 2 => !level
  | 3 => true
  | _ => lineActive trigger level && !lineActive trigger old

/-- A line's window closes (R523): counted edges give one further event; a level that is still active gives one and a new window. -/
def State.lineClose (s : State) (n : Nat) (level : Bool) : State :=
  let x := s.line n
  let e := x.from_ + 1000 * s.rd (lineObj n) 5
  if lineActive (s.rd (lineObj n) 4) level then (s.setLine n { x with from_ := e, edges := 0, level := level }).lineEvent n level 1
  else
    let t := s.setLine n { x with open_ := false, edges := 0, level := level }
    if x.edges = 0 then t else t.lineEvent n level x.edges

/-- A line's window is over (R36). -/
def State.lineOver (s : State) (n : Nat) : Bool :=
  (s.line n).open_ && decide ((s.line n).from_ + 1000 * s.rd (lineObj n) 5 ≤ s.now)

/-- A trigger of a line: at once with a window, counted within one, or kept until Apex wakes. -/
def State.lineHit (s : State) (n : Nat) (level : Bool) : State :=
  let x := s.line n
  let t := s.bump (lineObj n) 6 4 1
  if s.apexUp = false then t.setLine n { x with edges := x.edges + 1, level := level, due := true }
  else if x.open_ then t.setLine n { x with edges := x.edges + 1, level := level }
  else (t.setLine n { x with open_ := decide (s.rd (lineObj n) 5 ≠ 0), from_ := s.now, edges := 0, level := level }).lineEvent n level 1

/-- PIN_INTERRUPT (R522, R523): a claimed line samples `level` at its pin, which its holder owns. -/
def execPinInterrupt (n : Fin 10) (level : Bool) (s : State) : Result :=
  let o := lineObj n.val
  if s.rd o 1 = 1 ∧ s.rd (pinObj (s.linePin n.val)) 1 = s.rd o 2 then
    let old := (s.line n.val).level
    let t := if s.lineOver n.val ∧ s.apexUp = true then s.lineClose n.val old else s
    if lineHits (s.rd o 4) old level then .next (t.lineHit n.val level)
    else .next (t.setLine n.val { t.line n.val with level := level })
  else .next s

/-- COALESCE_WINDOW_CLOSE (R523). -/
def execCoalesceWindowClose (n : Fin 10) (level : Bool) (s : State) : Result :=
  if s.lineOver n.val ∧ s.apexUp = true then .next (s.lineClose n.val level) else .next s

/-- Events of lines that waited for Apex to wake (R523). -/
def State.linesWake (s : State) : State :=
  s.each (fun t n =>
    let x := t.line n
    if x.due then
      (t.setLine n { x with due := false, edges := 0, open_ := decide (t.rd (lineObj n) 5 ≠ 0), from_ := t.now }).lineEvent n x.level x.edges
    else t) (List.range 10)

/-- The source of a held pin's signal runs (R526). -/
def State.sourceRuns (s : State) (p : Nat) : Bool :=
  let c := s.rd (pinObj p) 2
  match sigPeriph c with
  | some o => decide (s.rd o 1 = 1)
  | none =>
    if 0x010 ≤ c ∧ c < 0x038 then decide (s.regState (32 * ((c - 0x010) / 20) + (c - 0x010) % 20) = 2)
    else if 0x080 ≤ c ∧ c < 0x120 then decide (s.rd (islObj ((c - 0x080) / 80) ((c - 0x080) % 80 / 20)) 2 = 2)
    else true

/-- A held pin is released. -/
def State.padRelease (s : State) (p : Nat) : State := (s.wr (pinObj p) 8 0).countEdge s p

/-- Held pins are released (R526): one event 0x0702 for each owner that has any. -/
def State.padsRelease (s : State) (cause : Nat) (ps : List Nat) : State :=
  (s.each State.padRelease ps).each (fun t d =>
    let k := (ps.filter (fun p => decide (s.rd (pinObj p) 1 = d))).length
    if k = 0 then t else t.raise 0x0702 3 0 0x6000 [(20, 1, cause), (21, 1, d), (24, 4, k)]) (List.range 16)

/-- Held pins. -/
def State.heldPins (s : State) : List Nat := allPins.filter (fun p => decide (s.rd (pinObj p) 8 = 1))

/-- HOLD_RELEASED (R526): on wake with WAKE_RELEASE 0, the held pins whose source runs; on a write of 1 to RELEASE, the writer's. -/
def execHoldReleased (q : Option Req) (s : State) : Result :=
  match q with
  | none =>
    if s.dev.por = false ∧ s.rd 0x3000 0xA = 0 ∧ s.rd 0x6000 2 = 0 then .next (s.padsRelease 0 (s.heldPins.filter s.sourceRuns)) else .next s
  | some r =>
    s.writing r 0x6000 3 1 1 (fun t => t.padsRelease 1 (t.heldPins.filter (fun p => decide (t.rd (pinObj p) 1 = t.reqDomain r))))

end Sys2Proof.Machine
end

