-- ==== Sys2Proof/Machine/SelfTest.lean ====
section
/-! DEFINITION. The self-test controller's commands (R531 to R543): posting, starting, and the ends of a test. What a test measures is an
operand of the command (notes/assumptions/5.md). -/

namespace Sys2Proof.Machine

/-- A quotient rounded up. -/
def ceilDiv (a b : Nat) : Nat := (a + b - 1) / b

/-- Longest duration of a slot's test, ns (R532). -/
def State.testMax (s : State) (k : Nat) : Nat :=
  let test := s.rd (testObj k) 3
  let u := s.rd (testObj k) 4
  let n := s.effCount k
  let line (bits : Nat) : Nat := ceilDiv (n * bits * 10 ^ 6) (s.laneRate u)
  match test with
  | 1 => 2000000 + line 128
  | 2 => 100000000 + line 128
  | 3 => 2000000 + line (2 ^ 20)
  | 4 => 1000000 + n
  | 5 => 200000 + 10 * n
  | 6 => 30000 + ceilDiv (n * 10 ^ 9) (s.rd (0xA010 + u) 5)
  | 7 => 1000 * n
  | 8 => 100000 * n
  | 9 => 10000 * n
  | _ => 1000 + 400 * n

/-- Results of a slot before its test. -/
def noResults : List (Nat × Nat) :=
  [(9, 0), (0xA, 0), (0xB, 0), (0xC, 0), (0xD, 0), (0xE, 0), (0xF, 0), (0x10, 0), (0x11, 0), (0x12, 0)]

/-- A SELF_TEST item is posted (R535); a lane rate for which R291 has no figure leaves the cost estimate open. A full planner takes no
post. -/
def State.testGo (s : State) (k : Nat) : State × Nat :=
  let r := testObj k
  let ns := s.testMax k
  let s1 := if (s.testPower k).isSome then s else s.freeNext
  let cost := match s.testPower k with | some p => ceilDiv (p * ns) (10 ^ 6) | none => s.freeVal 32
  match s1.planPost 4 (accountOf (s.rd r 2)) cost (ceilDiv ns 1000) s.now (s.now + 1000000 * s.rd r 6) k with
  | none => (s, abortBusy)
  | some (i, t) =>
    ({ (t.wrs r ((8, 1) :: noResults)) with tst := { t.tst with slots := t.tst.slots.put (fun _ => {}) k { item := i } } }, 0)

/-- An accepted write of GO (R535): 2 withdraws a posted test and has no effect on any other. -/
def State.testWrite (s : State) (k v : Nat) : State × Nat :=
  if v = 1 then s.testGo k else (if s.rd (testObj k) 8 = 1 then s.testWithdraw k else s, 0)

/-- TEST_POST (R534, R535): a write of 1 to GO. -/
def execTestPost (q : Req) (k : Fin 16) (v : BitVec 8) (s : State) : Result :=
  s.writingTo q (testObj k.val) 7 1 v.toNat (fun t => t.testWrite k.val v.toNat)

/-- TEST_WITHDRAW (R535): a write of 2 to GO. -/
def execTestWithdraw (q : Req) (k : Fin 16) (v : BitVec 8) (s : State) : Result :=
  s.writingTo q (testObj k.val) 7 1 v.toNat (fun t => t.testWrite k.val v.toNat)

/-- A test is refused at its start (R536): the unit is not touched. -/
def State.testRefuse (s : State) (k reason : Nat) : State :=
  let r := testObj k
  let test := s.rd r 3
  let d := testDie test (s.rd r 4)
  (((s.wrs r [(8, 3), (9, 4), (0xA, reason), (0x12, s.now)]).wr 0x7000 (1 + d) 0xFF).bump 0x7000 3 4 1).raise 0x0801 3 1 r
    [(20, 1, test), (21, 1, 4), (22, 1, reason), (24, 2, s.rd r 4)]

/-- The unit of a test is isolated (R537). -/
def State.unitIsolate (s : State) (test u : Nat) : State :=
  if test ≤ 3 then s.wr (laneObj u) 2 4
  else if test = 6 then
    let l : Loop := ⟨Fin.ofNat 2 (u / 16), Fin.ofNat 9 (u % 16)⟩
    (s.setLoop l { s.loop l with startedAt := s.now, retried := false, idleSince := none }).wr (loopObj l) 2 1
  else if test = 10 then s.wr (pinObj u) 8 0
  else s

/-- TEST_START (R536, R537): the planner has started the item of a posted test. -/
def execTestStart (k : Fin 16) (s : State) : Result :=
  let r := testObj k.val
  let test := s.rd r 3
  let u := s.rd r 4
  if s.rd r 8 = 1 ∧ s.rd 0x7000 (1 + testDie test u) = k.val then
    let reason := s.testPre test u
    if reason ≠ 0 then .next (s.testRefuse k.val reason)
    else .next ((s.wrs r [(8, 2), (0x11, s.now)]).unitIsolate test u)
  else .next s

/-- RESULT and REASON of a test that the sequencer ended (R540). The reason of a sealed test that falls short of its count is open. -/
def testResult (test count : Nat) (o : TestOutcome) (open_ : Nat) : Nat × Nat :=
  if o.sealedRun = false ∨ o.doneCount < count then (3, open_)
  else if o.doneCount = count ∧ o.signature = o.expected ∧ o.errors = 0 then (1, 0)
  else (2, if patternTest test then 1 else 2)

/-- TEST_DONE (R538 to R540). -/
def execTestDone (k : Fin 16) (o : TestOutcome) (s : State) : Result :=
  if s.testRuns k.val then
    let test := s.rd (testObj k.val) 3
    let x := trimOutcome test o
    let r := testResult test (s.effCount k.val) x (s.freeVal 8)
    .next (s.freeNext.testFinish k.val r.1 r.2 x)
  else .next s

/-- A test of this kind can be ended by a request (R537). -/
def testEndable (test : Nat) : Bool :=
  decide (test = 4) || decide (test = 5) || decide (test = 6) || decide (test = 9) || decide (test = 10)

/-- A running test is cut short with what it has measured (R540). -/
def State.testShort (s : State) (k reason : Nat) (o : TestOutcome) : State :=
  s.testFinish k 3 reason { trimOutcome (s.rd (testObj k) 3) o with sealedRun := false }

/-- TEST_ENDING_REQUEST (R537): a request of R537 ends the test. -/
def execTestEndingRequest (k : Fin 16) (o : TestOutcome) (s : State) : Result :=
  if s.testRuns k.val ∧ testEndable (s.rd (testObj k.val) 3) = true then .next (s.testShort k.val 1 o) else .next s

/-- TEST_DURATION_EXPIRY (R540): twice the maximum duration has passed. -/
def execTestDurationExpiry (k : Fin 16) (o : TestOutcome) (s : State) : Result :=
  if s.testRuns k.val ∧ s.rd (testObj k.val) 0x11 + 2 * s.testMax k.val ≤ s.now then .next (s.testShort k.val 4 o) else .next s

/-- RAY_FAR_NO_LOCK (R540): a RAY_FAR test has no lock within 100 ms. -/
def execRayFarNoLock (k : Fin 16) (o : TestOutcome) (s : State) : Result :=
  if s.testRuns k.val ∧ s.rd (testObj k.val) 3 = 2 ∧ s.rd (testObj k.val) 0x11 + 100000000 ≤ s.now then .next (s.testShort k.val 5 o)
  else .next s

end Sys2Proof.Machine
end

