-- ==== Sys2Proof/Machine/Paths.lean ====
section
/-! DEFINITION. The paths to the object dictionary (R483 to R487): where an answer goes, and the requests in progress at the prime. -/

namespace Sys2Proof.Machine

/-- A frame of this device's own leaves, if KM_OUT is up (R489). -/
def State.kmOut (s : State) (f : KFrame) : State := if (s.rd 0x1010 5).testBit 1 then s.kmSend f else s

/-- A window's request is complete (R302): the response and MB_ABORT stand, BUSY is clear, DONE is set and MB_VECTOR is sent. -/
def State.boxFinish (s : State) (f abort : Nat) (data : List Byte) : State :=
  let x := s.box f
  let t := (s.setBox f { x with busy := false, away := false, done := true, abort := abort, resp := data, buf := overlay data x.buf }).answer abort data
  if x.vector = 0xFFFF then t else { t with out := t.out.interrupt (256 * f) (x.vector % 2 ^ 11) }

/-- The OD_RESP that answers a segment (R491, R492): MORE while the object holds further bytes. -/
def State.odAnswer (s : State) (dest tag idx sub offset len abort : Nat) (data : List Byte) : State :=
  let part := (data.drop offset).take len
  let more := decide (offset + len < data.length)
  let head := octets 2 tag ++ octets 2 idx ++ octets 1 sub ++ octets 1 more.toNat ++ octets 4 abort ++ octets 4 data.length
  s.kmOut (s.kmFrame dest 4 (head ++ part))

/-- Words of an item of a user-object channel (R486): the header, then data in whole words, LAST on the final word. -/
def itemOf (header : Nat) (data : List Byte) : List Word :=
  ⟨BitVec.ofNat 128 header, data.isEmpty, false, false, false⟩ :: packWords [] true false false 0 (cut16 (data.length + 15) data)

/-- An answer goes back (R302, R492, R486). A window that was reset meanwhile takes none. -/
def State.goBack (s : State) (r : UserReq) (abort : Nat) (data : List Byte) : State :=
  let l := if abort = 0 ∧ r.write = false then data else []
  match r.back with
  | .window f => if (s.box f).away then s.boxFinish f abort l else s
  | .chain dest tag offset len => (s.answer abort l).odAnswer dest tag r.idx r.sub offset len abort l
  | .channel d tag =>
    let t := s.answer abort l
    { t with fab := t.fab.give (32 * d) 6 (itemOf (tag * 2 ^ 48 + l.length * 2 ^ 32 + abort) l) }
  | .direct => s.answer abort l

/-- A server channel takes the next waiting request (R485 to R487): its item leaves Apex under a fresh TAG. -/
def State.serverNext (s : State) (d : Nat) : State :=
  match s.mgt.userReqs.get (fun _ => none) d, s.mgt.userWait.find? (fun w => decide (w.1 = d)) with
  | none, some w =>
    let r := w.2
    let l := if r.write then r.data else []
    let tag := s.mgt.userTag
    let header := tag * 2 ^ 48 + r.dom * 2 ^ 44 + l.length * 2 ^ 32 + (if r.write then 2 else 1) * 2 ^ 24 + r.sub * 2 ^ 16 + r.idx
    { s with
      mgt := { s.mgt with userReqs := s.mgt.userReqs.put (fun _ => none) d (some (r, tag, s.now)),
                          userWait := s.mgt.userWait.erase w, userTag := (tag + 1) % 2 ^ 16 },
      fab := s.fab.give (32 * d + 1) 6 (itemOf header l) }
  | _, _ => s

/-- A server channel's outstanding request is answered, and the next one goes. -/
def State.serverDone (s : State) (d abort : Nat) (data : List Byte) : State :=
  match s.mgt.userReqs.get (fun _ => none) d with
  | none => s
  | some (r, _, _) =>
    (({ s with mgt := { s.mgt with userReqs := s.mgt.userReqs.put (fun _ => none) d none } } : State).goBack r abort data).serverNext d

/-- Die whose server channel serves a user object; none for a block that no channel serves (R487, R502). -/
def State.serverOf (s : State) (idx : Nat) : Option Nat :=
  let b := s.rd 0x1040 (1 + (idx - 0x9000) / 256)
  if b < 2 then some b else none

/-- Steps 1 to 7 of R482 for a user object (R487), and the length that an item can carry (R486); 0 for a request that goes to the
design. -/
def State.userAbort (s : State) (q : Req) (idx : Nat) (write : Bool) (len : Nat) : Nat :=
  let dom := s.reqDomain q
  let owner := s.ownerOfIdx idx
  firstAbort [
    (!s.served q idx, abortState),
    (write && s.split, 0x00050002),
    ((s.serverOf idx).isNone, 0x00010001),
    (decide (dom ≠ 1) && decide (dom ≠ owner) && (write || !decide (owner ≤ 1)), abortDomain),
    (decide (256 < len), 0x00030001)]

/-- A request for a user object: answered at once with its abort, or sent to its server channel when that is free. -/
def State.userRequest (s : State) (q : Req) (r : UserReq) : State :=
  let a := s.userAbort q r.idx r.write r.data.length
  match s.serverOf r.idx with
  | some d =>
    if a = 0 then
      (({ s with mgt := { s.mgt with userWait := s.mgt.userWait ++ [(d, r)] } } : State).apexActs (s.rd 0x1030 1)).serverNext d
    else s.goBack r a []
  | none => s.goBack r a []

/-- Every request in progress at the prime receives abort 0x0006_0001 (R472): the windows', the waiting and the outstanding ones. -/
def State.requestsAbort (s : State) : State :=
  let s1 := s.each (fun t f => if (t.box f).busy && !(t.box f).away then t.boxFinish f abortState [] else t) (List.range 9)
  let wait := s1.mgt.userWait.map (fun w => w.2)
  let out := [0, 1].filterMap (fun d => (s1.mgt.userReqs.get (fun _ => none) d).map (fun p => p.1))
  let s2 : State := { s1 with mgt := { s1.mgt with userWait := [], userReqs := ⟨[]⟩, assembly := ⟨[]⟩ } }
  (out ++ wait).foldl (fun t r => t.goBack r abortState []) s2

end Sys2Proof.Machine
end

