-- ==== Sys2Proof/Machine/Firmware.lean ====
section
/-! DEFINITION. Apex boot, wake, idle and watchdog (R471 to R476), and the check of firmware images (R446). -/

namespace Sys2Proof.Machine

/-- The reason of event 0x0901 for an image (R446, R470); 0 for one that is accepted. -/
def State.fwReason (s : State) (f : FwImage) : Nat :=
  if f.headerOk = false ∨ f.svn.val < f.minSvn.val then 1
  else if f.sigOk = false then 2
  else if f.svn.val < s.rd 0x8000 7 then 3
  else if f.gcmOk = false then 4
  else 0

/-- What programming meets where no command says it: an open outcome (notes/assumptions/5.md). -/
def State.otpFree (s : State) : OtpResult × State :=
  let r : OtpResult := match s.freeVal 2 with
    | 0 => .ok
    | 1 => .vfuse
    | 2 => .temperature
    | _ => .mismatch (s.freeNext.freeVal 384)
  (r, s.freeNext.freeNext)

/-- FW_SVN is raised to MIN_SVN if that is higher (R446); a programming that fails leaves the bits programmed so far (R438). -/
def State.fwSvnRaise (s : State) (v : Nat) : State :=
  let old := s.rd 0x8000 7
  if v ≤ old then s
  else
    let p := s.otpFree
    let t := p.2.vfuseSeen p.1
    match p.1 with
    | .ok => t.wr 0x8000 7 v
    | .vfuse => t.raise 0x0909 3 2 0x8000 [(20, 1, 4), (21, 1, 0)]
    | .temperature => t.raise 0x0909 3 2 0x8000 [(20, 1, 4), (21, 1, 2)]
    | .mismatch n => (t.wr 0x8000 7 (min (old + n) (v - 1))).raise 0x0909 3 2 0x8000 [(20, 1, 4), (21, 1, 1)]

/-- Verified firmware runs on both dies (R474 step 5). Refusals that were kept are raised, then event 0x0A01; the lease and the first
window of the Ledger begin. -/
def State.fwRun (s : State) (f : FwImage) (src : Nat) : State :=
  let now := s.now
  let s1 := (s.wrs 0x1020 [(1, 3), (2, src), (6, now / 1000 % 2 ^ 32)]).wrs 0x1000 [(7, f.version.toNat), (8, f.svn.val)]
  let s2 : State := { s1 with
    sec := { s1.sec with fwDigest := f.codeDigest },
    led := { s1.led with windowStart := now },
    mgt := { s1.mgt with lastLease := now, lastAck := now, leaseSentAt := now, served := [now, now], idleFrom := [now, now], refusals := [] } }
  let s3 := (s.mgt.refusals.foldl (fun t r => t.raise 0x0901 3 2 0x8000 [(20, 1, r)]) s2)
  (s3.raise 0x0A01 3 0 0x1020 [(20, 1, src), (21, 1, f.svn.val), (24, 4, now / 1000)]).fwSvnRaise f.minSvn.val

/-- Firmware images are tried in order (R474 steps 3 and 4): an absent one is passed over, a refused one kept for its event; where none
is left FW_STATE is FAILED (R475). -/
def State.fwTry (s : State) : List (Nat × Option FwImage) → State
  | [] => s.wr 0x1020 1 4
  | (_, none) :: l => s.fwTry l
  | (src, some f) :: l =>
    if s.fwReason f = 0 then s.fwRun f src
    else ({ s with mgt := { s.mgt with refusals := s.mgt.refusals ++ [s.fwReason f] } } : State).fwTry l

/-- APEX_BOOT (R474, R475): with the keys derived, the ROM takes the flash images or, in host modes, waits for the host. -/
def execApexBoot (img0 img1 : Option FwImage) (s : State) : Result :=
  if s.dev.por ∨ s.rd 0x1020 1 ≠ 0 ∨ s.rd 0x8000 3 = 0 then .next s
  else if s.fromHost then .next (s.wr 0x1020 1 1)
  else .next (s.fwTry [(0, img0), (1, img1)])

/-- FW_GO (R474, R475, R502): the image is fetched from host memory and verified. -/
def execFwGo (q : Req) (v : BitVec 8) (img : FwImage) (s : State) : Result :=
  s.writing q 0x1020 5 1 v.toNat (fun t => t.fwTry [(2, some img)])

/-- Apex of a die has work: requests of a window or of a user-object channel, at the prime (R471). -/
def State.apexBusy (s : State) (d : Nat) : Bool :=
  decide (s.rd 0x1030 1 = d) && ((List.range 9).any (fun f => (s.box f).busy) || !s.mgt.userReqs.cells.isEmpty || !s.mgt.userWait.isEmpty)

/-- APEX_WAKE (R471): interrupt lines that waited for the prime raise their events (R523), at one that a frame has woken too. -/
def execApexWake (die : Fin 2) (s : State) : Result :=
  let d := die.val
  if s.dev.por then .next s
  else
    let t := if s.dev.awake.contains d then s else (s.apexAwake d).apexActs d
    .next (if s.rd 0x1030 1 = d then t.linesWake else t)

/-- APEX_IDLE (R471): after 1 ms without work. -/
def execApexIdle (die : Fin 2) (s : State) : Result :=
  let d := die.val
  if s.fwUp && s.dev.awake.contains d && !s.apexBusy d && decide (s.mgt.idleFrom.getD d 0 + 1000000 ≤ s.now) then .next (s.apexSleep d)
  else .next s

/-- The prime's tie line is released by hardware (R498): the die stays standby from then on. -/
def State.tieRelease (s : State) (d : Nat) : State :=
  { s with mgt := { s.mgt with tieLow := false, released := s.mgt.released ++ [d] } }

/-- APEX_WATCHDOG (R476, R472, R498): 100 ms after its firmware last served it, a die's Apex restarts from its verified image. -/
def execApexWatchdog (die : Fin 2) (s : State) : Result :=
  let d := die.val
  let prime := decide (s.rd 0x1030 1 = d)
  if s.fwUp && s.dev.awake.contains d && decide (s.mgt.served.getD d 0 + 100000000 ≤ s.now) then
    let s1 := if prime then s.requestsAbort.tieRelease d else s
    .next (((s1.bump 0x1030 6 4 1).apexActs d).raise 0x0A0D 3 2 0x1030 [(20, 1, d), (21, 1, prime.toNat)])
  else .next s

end Sys2Proof.Machine
end

