-- ==== Sys2Proof/Machine/Prime.lean ====
section
/-! DEFINITION. The prime die, its lease and SPLIT-HOLD (R498 to R501). -/

namespace Sys2Proof.Machine

/-- The prime's number (object 0x1030.01). -/
def State.primeDie (s : State) : Nat := s.rd 0x1030 1

/-- SPLIT-HOLD begins (R500): MGMT_STATE 2 and event 0x0A04 with both epochs, that of the prime and `e` of the other die. -/
def State.splitEnter (s : State) (e : Nat) : State :=
  let p := s.primeDie
  let own := s.rd 0x1030 2
  let s1 := s.wr 0x1030 3 2
  let s2 : State := { s1 with mgt := { s1.mgt with epochs := if p = 0 then [own, e] else [e, own] } }
  s2.raise 0x0A04 3 3 0x1030 [(24, 4, if p = 0 then own else e), (28, 4, if p = 0 then e else own)]

/-- LEASE_SEND (R498): every 1 ms, while the prime's tie line has not been released. -/
def execLeaseSend (s : State) : Result :=
  if s.fwUp && !s.split && !s.mgt.released.contains s.primeDie && decide (s.mgt.leaseSentAt + 1000000 ≤ s.now) then
    .next { s with mgt := { s.mgt with leaseSentAt := s.now, served := s.mgt.served.set s.primeDie s.now } }
  else .next s

/-- LEASE (R498 to R500): a message of `fromDie` arrives at the other die. From the prime it is acknowledged, and the two dies exchange
again: MGMT_STATE returns to NORMAL and a die that had lost its tie line has rejoined. A claim of a die that is not prime begins
SPLIT-HOLD. -/
def execLease (fromDie : Fin 2) (epoch : BitVec 32) (primeClaim : Bool) (s : State) : Result :=
  let p := s.primeDie
  if s.fwUp = false ∨ s.split = true then .next s
  else if fromDie.val = p then
    if s.mgt.released.contains p then .next s
    else
      let other := 1 - p
      let s1 : State := { s with mgt := { s.mgt with
        lastLease := s.now, lastAck := s.now, ackLapsed := false, epochs := s.mgt.epochs.set other epoch.toNat,
        served := s.mgt.served.set other s.now, released := s.mgt.released.filter (fun d => decide (d ≠ other)) } }
      .next (if s1.rd 0x1030 3 = 1 then s1.wr 0x1030 3 0 else s1)
  else if primeClaim then .next (s.splitEnter epoch.toNat)
  else .next s

/-- TIE_LINE_RELEASE (R498): the prime has sent no LEASE for 2 ms, or its die has lost VCL. The watchdog's case is APEX_WATCHDOG's. -/
def execTieLineRelease (die : Fin 2) (s : State) : Result :=
  let d := die.val
  if s.fwUp && decide (s.primeDie = d) && s.mgt.tieLow && !s.split
      && (decide (s.mgt.leaseSentAt + 2000000 ≤ s.now) || decide (s.rd (railObj (4 * d + 3)) 5 ≠ 1)) then .next (s.tieRelease d)
  else .next s

/-- The standby takes over (R499): it drives the tie line, takes EPOCH + 1 and becomes prime. Requests in progress at the former prime
are aborted and its serial transfers end (R472, R519). -/
def State.takeover (s : State) (d : Nat) : State :=
  let e := (s.rd 0x1030 2 + 1) % 2 ^ 32
  let s1 := s.requestsAbort.serialAbort.wrs 0x1030 [(1, d), (2, e), (3, 1)]
  let s2 : State := { s1 with mgt := { s1.mgt with
    tieLow := true, epochs := s1.mgt.epochs.set d e, lastLease := s1.now, lastAck := s1.now, leaseSentAt := s1.now,
    ackLapsed := false } }
  (s2.apexActs d).raise 0x0A02 3 1 0x1030 [(20, 1, d), (24, 4, e)]

/-- LEASE_LAPSED (R499): 3 ms without a LEASE at the standby, which samples the tie line then and every 1 ms; or without an
acknowledgement at the prime. A die whose tie line was released, and which has not rejoined, does not take over. -/
def execLeaseLapsed (die : Fin 2) (s : State) : Result :=
  let d := die.val
  let report (t : State) (kind : Nat) : State := (t.bump 0x1030 5 4 1).raise 0x0A03 3 1 0x1030 [(20, 1, d), (21, 1, kind)]
  if s.fwUp = false ∨ s.split = true then .next s
  else if s.primeDie = d then
    if s.mgt.ackLapsed = false ∧ s.mgt.lastAck + 3000000 ≤ s.now then
      .next (report { s with mgt := { s.mgt with ackLapsed := true } } 1)
    else .next s
  else if s.mgt.lastLease + 3000000 ≤ s.now ∧ (s.mgt.lapsedAt ≤ s.mgt.lastLease ∨ s.mgt.lapsedAt + 1000000 ≤ s.now) then
    if s.mgt.tieLow ∨ s.mgt.released.contains d = true then .next (report { s with mgt := { s.mgt with lapsedAt := s.now } } 0)
    else .next (s.takeover d)
  else .next s

/-- SPLIT_HOLD (R500): a die that believes itself prime receives the other's claim. -/
def execSplitHold (epochOther : BitVec 32) (s : State) : Result :=
  if s.fwUp = false ∨ s.split = true then .next s else .next (s.splitEnter epochOther.toNat)

/-- PRIME_SELECT ends SPLIT-HOLD (R501): the named die is prime with EPOCH one above the larger; the account actions that waited
follow (R500). `kimbe` says by which path. -/
def State.splitResolve (s : State) (d : Nat) (kimbe : Bool) : State :=
  let e := (max (s.mgt.epochs.getD 0 0) (s.mgt.epochs.getD 1 0) + 1) % 2 ^ 32
  let s1 := s.wrs 0x1030 [(1, d), (2, e), (3, 0)]
  let s2 : State := { s1 with mgt := { s1.mgt with
    tieLow := true, released := [], epochs := [e, e], lastLease := s1.now, lastAck := s1.now, leaseSentAt := s1.now,
    ackLapsed := false } }
  (s2.raise 0x0A06 3 0 0x1030 [(20, 1, d), (21, 1, kimbe.toNat), (24, 4, e)]).waitedActs

/-- A write of PRIME_SELECT: it fails where the other die does not acknowledge within 10 ms. -/
def State.primeWrite (s : State) (q : Req) (v : Nat) (otherAcks : Bool) : State × Nat :=
  if otherAcks then (s.splitResolve v (decide (q = .kimbe)), 0) else (s, abortState)

/-- PRIME_SELECT (R501). -/
def execPrimeSelect (q : Req) (v : BitVec 8) (otherAcks : Bool) (s : State) : Result :=
  s.writingTo q 0x1030 4 1 v.toNat (fun t => t.primeWrite q v.toNat otherAcks)

end Sys2Proof.Machine
end

