-- ==== Sys2Proof/Machine/ObjRead.lean ====
section
/-! DEFINITION. What a read of the object dictionary answers (R478 to R482): the values that follow the block's state, those that are
kept in the register file, and the reads that have an effect of their own. -/

namespace Sys2Proof.Machine

/-- A mask of the positions of a list that satisfy a condition. -/
def maskOf (l : List Nat) (p : Nat → Bool) : Nat := (l.filter p).foldl setBit 0

/-- Positions that a region drives towards the Bisector (R100, R110): fixed in silicon. -/
def bisDrive (n side : Nat) (far : Bool) : Nat :=
  if (n < 32 ∧ n % 8 = 7 ∧ side = 1) ∨ (32 ≤ n ∧ n % 8 = 0 ∧ side = 3) then
    (if decide (n < 32) = far then 0xFFFF0000 else 0xFFFF)
  else 0

/-- DRIVE and FAR_DRIVE of an Arc record (R110). -/
def State.driveVal (s : State) (n sub : Nat) : Nat :=
  (if sub < 5 then s.fab.driveOf n (sub - 1) else s.fab.farDrive n (sub - 5)) ||| bisDrive n ((sub - 1) % 4) (decide (5 ≤ sub))

/-- Some Span word select of a region names a position of one of its sides (R90). -/
def State.posSelected (s : State) (n side seg : Nat) : Bool :=
  let code := 0x100 + 32 * side + seg
  !(s.fab.spanWordIn.keysWhere (fun k c => decide (k / 256 = n) && decide (c = code))).isEmpty
    || !(s.fab.spanWordArc.keysWhere (fun k c => decide (k / 128 = n) && decide (c = code) && s.fab.drives k)).isEmpty
    || !(s.fab.spanWordSite.keysWhere (fun k c => decide (k / 16 = n) && decide (c = code))).isEmpty

/-- A Bisector channel is selected at both ends (R110): its sending position has a select, and a Span select of the receiving region names
its receiving position. -/
def State.bisUsed (s : State) (east : Bool) (ch : Nat) : Bool :=
  let (n, side, seg) := bisSender east ch
  let (m, side2, seg2) := bisReceiver east ch
  decide (s.fab.spanWordArc.get (fun _ => 0x1FF) (n * 128 + side * 32 + seg) ≠ 0x1FF)
    && s.posSelected m side2 seg2

/-- STATE of a user site (R203, R189): HELD while its island does not run or its region is held (R183, R173; notes/assumptions/174.md). -/
def State.siteState (s : State) (d k : Nat) : Nat :=
  let cfg := s.rd (siteObj d k) 1
  let i := islandObj d cfg
  if cfg.testBit 15 = false then 0
  else if s.rd i 3 = 0 then 4
  else if s.rd i 2 = 4 then 3
  else if s.rd i 2 = 2 ∧ s.siteOpen (32 * d + k / 2) = true then 1
  else 2

/-- STATE of a Locus port (R226): STALLED by R217 or R218 within an item, or at the tag, or first word, of one. -/
def State.lportState (s : State) (d p : Nat) : Nat :=
  if s.po d p 1 = 0 then 0
  else if (s.lport d p).drop.isSome then 3
  else match s.portItem d p with
    | some q => if s.wordRoom d q 1 || decide ((s.q d q).part.map (fun y => y.1.length) = some 16) then 1 else 2
    | none =>
      let stalls (q : Nat) : Bool := !s.itemRoom d q || (decide (s.qo d q 0xB = 1) && (s.q d q).high)
      if s.po d p 1 = 2 then (if stalls (s.po d p 2 % 512) || !s.wordRoom d (s.po d p 2 % 512) 1 then 2 else 1)
      else match s.fab.offered (sinkSite (portRegion d p) (portSlot p)) with
        | some (_, w) =>
          let q := w.data.toNat % 512
          if s.tagReason d p q w.poison = 0 ∧ stalls q = true then 2 else 1
        | none => 1

/-- FREQ_HZ of a fixed loop of a die (R190, R191, R296). -/
def State.fixedFreq (s : State) (d n : Nat) : Nat :=
  match n with
  | 0 => 1000000000
  | 2 => if s.rd 0x4000 1 = 1 then 1150000000 else 1000000000
  | 3 => 200000000
  | 4 => 500000000
  | _ => Config.rayFreq d % 2 ^ 32

/-- AO_SOURCE (R197): the source that the board gives AO_XI, or 2 while no edge is seen on it. -/
def State.aoSource (s : State) : Nat := if s.rd 0xA000 1 = 2 then 2 else if Config.aoExternal then 1 else 0

/-- Values of objects of the fabric, of clocks and of Locus that follow the state. -/
def State.valFabric (s : State) (idx sub : Nat) : Option Nat :=
  if 0xC140 ≤ idx ∧ idx < 0xC180 ∧ 1 ≤ sub then some (s.driveVal (idx - 0xC140) sub)
  else if idx = 0xC200 ∧ (sub = 1 ∨ sub = 2) then some (maskOf (List.range 64) (s.bisUsed (decide (sub = 1))))
  else if 0xA010 ≤ idx ∧ idx < 0xA029 ∧ idx % 16 < 5 ∧ sub = 5 then some (s.fixedFreq ((idx - 0xA010) / 16) (idx % 16))
  else if idx = 0xA000 ∧ sub = 1 then some (s.aoSource)
  else if 0xA100 ≤ idx ∧ idx < 0xA180 ∧ sub = 3 then some (s.siteState ((idx - 0xA100) / 64) (idx % 64))
  else if (idx = 0xB000 ∨ idx = 0xB001) ∧ sub = 4 then
    some (((List.range 512).map (fun q => (s.q (idx - 0xB000) q).spilled)).foldl (· + ·) 0)
  else if 0xB100 ≤ idx ∧ idx < 0xB500 then
    let d := (idx - 0xB100) / 512
    let q := (idx - 0xB100) % 512
    if sub = 2 then some (s.qState d q)
    else if sub = 0xC then some (s.q d q).words
    else if sub = 0xD then some (s.q d q).level
    else none
  else if 0xB800 ≤ idx ∧ idx < 0xB900 ∧ sub = 6 then some (s.lportState ((idx - 0xB800) / 128) (idx % 128))
  else none

/-- Values of objects of Annulus, of Ray and of the Host Port that follow the state. What an adapted receiver holds is open (R286). -/
def State.valPorts (s : State) (idx sub : Nat) : Option Nat :=
  if (idx = 0x4010 ∨ idx = 0x4011) ∧ sub = 0xE then
    some (((pcsOf (idx - 0x4010)).map (fun c => (s.pc c).queue.length)).foldl (· + ·) 0)
  else if 0x4100 ≤ idx ∧ idx < 0x4164 ∧ sub = 2 then some (s.portOwner (idx - 0x4100))
  else if 0x4100 ≤ idx ∧ idx < 0x4164 ∧ sub = 6 then some (s.rtLevel (idx - 0x4100))
  else if 0x4300 ≤ idx ∧ idx < 0x4340 ∧ sub = 2 then some (s.intervals ((idx - 0x4300) / 32) (s.debtNow (idx - 0x4300)))
  else if 0x4300 ≤ idx ∧ idx < 0x4340 ∧ sub = 3 then
    some (max (s.rd idx 3) (s.intervals ((idx - 0x4300) / 32) (s.debtNow (idx - 0x4300))))
  else if 0x5840 ≤ idx ∧ idx < 0x5850 ∧ sub = 0x11 then some (s.rport (idx - 0x5840)).stamps.length
  else if 0x5810 ≤ idx ∧ idx < 0x5820 ∧ sub = 4 then some (s.laneRate (idx - 0x5810))
  else if 0x5880 ≤ idx ∧ idx < 0x5890 ∧ s.laneRuns (idx - 0x5880) = true ∧ (sub = 9 ∨ sub = 10 ∨ ((sub = 7 ∨ sub = 8) ∧ s.rd idx 6 = 1)) then
    some (s.freeVal 192)
  else if idx = 0x5000 ∧ sub = 6 then some s.host.tags.cells.length
  else if 0x5200 ≤ idx ∧ idx < 0x5300 ∧ sub = 4 then some (s.out.ring (idx - 0x5200)).records
  else if 0x5200 ≤ idx ∧ idx < 0x5300 ∧ sub = 5 then some (s.out.ring (idx - 0x5200)).lostClaim
  else if 0x5300 ≤ idx ∧ idx < 0x5340 ∧ sub = 1 then some (s.regOwner (idx % 32))
  else none

/-- Values of the other objects that follow the state. Current and efficiency of a rail are measured (R365); edges of a pin whose
waveform is not followed are open. -/
def State.valOther (s : State) (idx sub : Nat) : Option Nat :=
  if idx = 0x1010 ∧ sub = 0xB then some s.out.kimbeLost
  else if 0x3200 ≤ idx ∧ idx < 0x3208 ∧ (sub = 2 ∨ sub = 4) then some (s.freeVal 32)
  else if 0x6010 ≤ idx ∧ idx < 0x6038 ∧ sub = 9 ∧ (s.pad (idx - 0x6010)).wave = true then some (s.freeVal 64)
  else if idx = 0x8000 ∧ sub = 0xB then some 0
  else if 0x8010 ≤ idx ∧ idx < 0x8014 ∧ sub = 4 then some 0
  else none

/-- The value of an object now. -/
def State.objVal (s : State) (idx sub : Nat) : Nat :=
  match s.valFabric idx sub with
  | some v => v
  | none => match s.valPorts idx sub with
    | some v => v
    | none => match s.valOther idx sub with
      | some v => v
      | none => s.rd idx sub

/-- Octets of an object: the third part of an ML-DSA signature is shorter than the other two (R436, R469). -/
def objBytes (r : ObjRow) (idx sub : Nat) : Nat :=
  if (idx = 0x8001 ∧ sub = 5) ∨ (0x8030 ≤ idx ∧ idx < 0x8040 ∧ sub = 7) then 531 else r.bytes

/-- A read of an object: its abort, the octets, and the state that the read leaves. A read of RANDOM draws (R464), one of a UART's RX
removes what it returns and one of STATUS clears the flags (R519); an open value is drawn anew by each read. -/
def State.getObj (s : State) (q : Req) (idx sub : Nat) : Nat × List Byte × State :=
  let a := s.readAbort q idx sub
  if a ≠ 0 then (a, [], s)
  else match findRow idx sub with
    | none => (0x00010002, [], s)
    | some r =>
      if idx = 0x8000 ∧ sub = 9 then
        let p := s.draw 256
        (0, octets 32 p.1, p.2)
      else if 0x6100 ≤ idx ∧ idx < 0x6105 ∧ sub = 5 then (0, (s.serial (idx - 0x6100)).rx, s.serialGet (idx - 0x6100))
      else if 0x6100 ≤ idx ∧ idx < 0x6105 ∧ sub = 6 then (0, octets 1 (s.rd idx 6), s.wr idx 6 (s.rd idx 6 % 2))
      else (0, octets (objBytes r idx sub) (s.objVal idx sub), s.freeNext)

end Sys2Proof.Machine
end

