-- ==== Sys2Proof/Machine/ObjWrite.lean ====
section
/-! DEFINITION. The effect of a write of any object of the dictionary (R478 to R482), by chapter, over the same operations that the
commands use; claims (R33 to R35). What the physical world answers to a write without a command of its own is an open value. -/

namespace Sys2Proof.Machine

/-- An open Boolean outcome. -/
def State.freeBool (s : State) : Bool := decide (s.freeVal 1 = 1)

/-- A token's checks where no command says their outcome. -/
def State.tokenFree (s : State) : DebugToken × State :=
  ({ noToken with signerHash := s.freeVal 768, sigEcOk := s.freeNext.freeBool, sigMlOk := s.freeNext.freeNext.freeBool },
    s.freeNext.freeNext.freeNext)

/-- A firmware image where no command says what the host sends. -/
def State.fwFree (s : State) : FwImage × State :=
  let a := s.freeNext
  let b := a.freeNext
  let c := b.freeNext
  ({ headerOk := (s.freeVal 3).testBit 0, sigOk := (s.freeVal 3).testBit 1, gcmOk := (s.freeVal 3).testBit 2,
     svn := Fin.ofNat 32 (a.freeVal 5), minSvn := Fin.ofNat 32 (a.freeVal 10 / 32), codeDigest := b.freeVal 384,
     version := BitVec.ofNat 32 (c.freeVal 32) }, c.freeNext)

/-- HOME_RAIL of a region takes a value (R365, R339). While an action HOP or a thermal hop holds the region down it is not raised, and
returns step by step (R351). -/
def State.homeRail (s : State) (n v : Nat) : State :=
  let t := s.wr (enObj n) 1 v
  if (s.rd (accObj (accountOf (s.regOwner n))) 0xC = 1 ∨ s.led.thermal.contains n = true) ∧ s.railGoal n ≤ v then t
  else t.hopAsk v 5 n

/-- A claimed resource whose record holds CLAIM at 1 and HOLDER, an owner code, at 2. -/
def claimObj (idx : Nat) : Bool :=
  (decide (0x2A00 ≤ idx) && decide (idx < 0x2A40)) || (decide (0x6100 ≤ idx) && decide (idx < 0x613A))
    || (decide (0x7010 ≤ idx) && decide (idx < 0x7020))

/-- A free resource is claimed by a domain (R33, R331); an interrupt line counts its triggers afresh (R529), and a test slot has no test
posted since (R531, R540). -/
def State.claimPut (s : State) (idx dom : Nat) : State :=
  let t := s.wrs idx [(1, 1), (2, dom)]
  (if 0x6130 ≤ idx ∧ idx < 0x6140 then (t.setLine (idx - 0x6130) {}).wr idx 6 0
   else if 0x7010 ≤ idx ∧ idx < 0x7020 then t.wrs idx ((8, 0) :: noResults) else t).debugCheck

/-- A held resource is released by its holder (R35). A slot whose operation runs goes on without a holder. -/
def State.claimDrop (s : State) (idx : Nat) : State :=
  if idx < 0x3000 then (if s.slotBusy (idx - 0x2A00) then s.wrs idx [(1, 0), (2, 0xFF)] else s.slotRelease (idx - 0x2A00))
  else if idx < 0x7000 then s.periphRelease idx
  else s.testRelease (idx - 0x7010)

/-- Writes of fabric and determinism objects (R78, R166, R169). -/
def State.putFabric (s : State) (idx sub v : Nat) : State :=
  let n := idx % 64
  if 0xC100 ≤ idx ∧ idx < 0xC140 then
    (if sub = 3 then s.fenceCtrl n v else if sub = 6 then s.resetAsk n else s.wr idx sub v)
  else if 0xC400 ≤ idx ∧ idx < 0xC440 then
    (if sub = 2 then s.bindReplay n idx 2 v
     else if sub = 9 then s.marginCleared n
     else s.wr idx sub v)
  else s.wr idx sub v

/-- SYNC_ENABLE takes a value (R202): from 1 the four intervals count; with 0 the device runs free. -/
def State.syncEnable (s : State) (v : Nat) : State :=
  if v = 0 then (s.wr 0xA200 7 0).wr 0xA200 9 0
  else if s.rd 0xA200 7 = 1 then s
  else { s.wr 0xA200 7 v with cell := { s.cell with lastSync := s.now, synced := 0 } }

/-- Writes of clock, island, site and time objects (R203). -/
def State.putClock (s : State) (idx sub v : Nat) : State :=
  if 0xA040 ≤ idx ∧ idx < 0xA048 then
    let i : Island := ⟨Fin.ofNat 2 ((idx - 0xA040) / 4), Fin.ofNat 4 (idx % 4)⟩
    if sub = 3 then (if v = 1 then s.islandOn i else s.islandOff i 2)
    else if sub = 5 then s.islandReset i 0
    else s.wr idx sub v
  else if idx = 0xA200 ∧ sub = 5 then s.correctTime s.dev.slew (toSigned 64 v)
  else if idx = 0xA200 ∧ sub = 7 then s.syncEnable v
  else s.wr idx sub v

/-- Writes of Locus objects (R222, R226): the watermarks follow their settings (R218); a stream that is enabled starts its epoch
(R154). -/
def State.putLocus (s : State) (idx sub v : Nat) : State :=
  if 0xB100 ≤ idx ∧ idx < 0xB500 then
    let d := (idx - 0xB100) / 512
    let q := (idx - 0xB100) % 512
    let k := 64 + 512 * d + q
    if sub = 9 ∨ sub = 0xA then (s.wr idx sub v).watermark d q
    else if sub = 0x11 then (if v = 0 then s.wr idx sub v else (s.wr idx sub v).epoch k)
    else if sub = 0x13 then s.bindReplay k idx sub v
    else if sub = 0x14 then s.flushStart d q 0
    else s.wr idx sub v
  else s.wr idx sub v

/-- Writes of Annulus objects (R245, R242). -/
def State.putMemory (s : State) (idx sub v : Nat) : State :=
  if 0x4100 ≤ idx ∧ idx < 0x4164 then (s.wr idx sub v).panicCheck (idx - 0x4100)
  else if 0x4200 ≤ idx ∧ idx < 0x4240 then
    let k := 1088 + (idx - 0x4200)
    if sub = 7 then (if v = 0 then s.wr idx sub v else (s.wr idx sub v).epoch k)
    else if sub = 9 then s.bindReplay k idx sub v
    else s.wr idx sub v
  else s.wr idx sub v

/-- Writes of Host Port and Ray objects (R281, R287, R288, R322, R331). -/
def State.putHost (s : State) (dom idx sub v : Nat) : State :=
  if 0x5010 ≤ idx ∧ idx < 0x5019 ∧ sub = 3 then (s.wr idx sub v).tagGrant
  else if 0x5010 ≤ idx ∧ idx < 0x5019 ∧ sub = 5 then s.domainAsk (idx - 0x5010)
  else if 0x5100 ≤ idx ∧ idx < 0x5140 then
    let e := idx - 0x5100
    if sub = 1 then (if v = 1 then (s.engClaim e (pfCode dom / 256)).debugCheck else s.engRelease e)
    else if sub = 4 ∨ sub = 5 then s.setChan e sub v
    else s.wr idx sub v
  else if 0x5200 ≤ idx ∧ idx < 0x5300 ∧ sub = 1 then
    (if v = 1 then (s.ringClaim (idx - 0x5200) (pfCode dom / 256)).debugCheck else s.ringRelease (idx - 0x5200))
  else if 0x5810 ≤ idx ∧ idx < 0x5820 ∧ sub = 3 then s.laneEnable (idx - 0x5810) v
  else if 0x5810 ≤ idx ∧ idx < 0x5820 ∧ sub = 9 then s.laneSlip (idx - 0x5810) v
  else if 0x5880 ≤ idx ∧ idx < 0x5890 ∧ sub = 6 then s.eqAdapt (idx - 0x5880) v
  else if 0x58C0 ≤ idx ∧ idx < 0x58C2 then (s.wr idx sub v).recUpdate (idx - 0x58C0)
  else s.wr idx sub v

/-- Writes of energy objects (R346, R349, R351, R355, R362, R363, R365). -/
def State.putEnergy (s : State) (idx sub v : Nat) : State :=
  if idx = 0x3000 then
    (if sub = 1 then { s with led := { s.led with nextWindow := some v } }
     else if sub = 5 then s.reserveSet v
     else if sub = 0xA then (if v = 0 then s.wake else s.standby v)
     else if sub = 0xB then s.wr idx sub v
     else (s.wr idx sub v).limitUpdate)
  else if 0x3010 ≤ idx ∧ idx < 0x301A then
    let a := idx - 0x3010
    if sub = 1 then { s with led := { s.led with nextBudget := s.led.nextBudget.put (fun _ => none) a (some v) } }
    else if sub = 2 then { s with led := { s.led with nextCarry := s.led.nextCarry.put (fun _ => none) a (some v) } }
    else if sub = 8 then s.resumeHalt a
    else s.wr idx sub v
  else if 0x3100 ≤ idx ∧ idx < 0x3140 ∧ sub = 1 then s.homeRail (idx - 0x3100) v
  else s.wr idx sub v

/-- Writes of configuration and snapshot objects (R396, R398, R400, R431). -/
def State.putLoads (s : State) (q : Req) (idx sub v : Nat) : State :=
  if idx = 0x2000 ∧ sub = 5 then
    let p := s.otpFree
    p.2.acceptLoad p.1
  else if idx = 0x2000 ∧ sub = 9 then s.reconfigAsk 1
  else if 0x2010 ≤ idx ∧ idx < 0x2012 ∧ sub = 4 then s.loadGo q (idx - 0x2010)
  else if 0x2A00 ≤ idx ∧ idx < 0x2A40 ∧ sub = 7 then s.slotOp (idx - 0x2A00) v
  else s.wr idx sub v

/-- Writes of Perimeter objects (R512, R517 to R520, R526). -/
def State.putPins (s : State) (dom idx sub v : Nat) (data : List Byte) : State :=
  if idx = 0x6000 ∧ sub = 3 then s.padsRelease 1 (s.heldPins.filter (fun p => decide (s.rd (pinObj p) 1 = dom)))
  else if 0x6010 ≤ idx ∧ idx < 0x6038 then
    let p := idx - 0x6010
    if sub = 2 then s.pinSwitch p v else if sub = 5 then s.wr idx sub v else s.pinSetting p sub v
  else if 0x6100 ≤ idx ∧ idx < 0x6105 ∧ sub = 4 then s.serialPut (idx - 0x6100) data
  else if 0x6110 ≤ idx ∧ idx < 0x6114 ∧ sub = 5 then
    (if v = 0 then ((s.setPwm (idx - 0x6110) {}).wr idx 5 0).countEdges s else s.wr idx sub v)
  else s.wr idx sub v

/-- Writes of Sebex objects (R438, R453, R464 to R469, R565); the answer is an abort where the programming fails. -/
def State.putSebex (s : State) (idx sub v : Nat) (data : List Byte) : State × Nat :=
  if idx = 0x8000 ∧ 4 ≤ sub ∧ sub ≤ 6 then
    let p := s.otpFree
    p.2.otpField idx sub 2 v p.1
  else if idx = 0x8000 ∧ sub = 0xB then
    let p := s.otpFree
    p.2.cekProgram p.1
  else if 0x8010 ≤ idx ∧ idx < 0x8014 then
    let p := s.otpFree
    if sub = 4 then p.2.slotRevoke (idx - 0x8010) p.1 else p.2.hashWrite (idx - 0x8010) sub v p.1
  else if 0x8030 ≤ idx ∧ idx < 0x8040 ∧ sub = 1 then (s.quoteBegin (idx - 0x8030) v, 0)
  else if 0x8040 ≤ idx ∧ idx < 0x8050 then
    let d := idx - 0x8040
    if sub = 2 then (s.setTokBuf d (s.tokBuf d ++ data), 0)
    else if sub = 3 then
      let p := s.tokenFree
      (p.2.tokenPut d v p.1, 0)
    else if sub = 7 then (s.tokenEnd 1 d, 0)
    else (s.wr idx sub v, 0)
  else if idx = 0x8050 ∧ sub = 4 then (s.tamperClear, 0)
  else if idx = 0x8060 then
    let p := s.otpFree
    p.2.otpField idx sub 6 v p.1
  else (s.wr idx sub v, 0)

/-- A leader's ASSIGN with CLEAR leaves for the chain (R495); a leader that has met another one acts as a follower (R496). -/
def State.sendAssign (s : State) : State :=
  if s.mgt.follower then s
  else
  let t : State := { s.wr 0x1010 2 1 with mgt := { s.mgt with assignAt := some s.now } }
  t.kmOut (t.kmFrame 0 1 (octets 4 0x0102 ++ octets 8 Config.serial))

/-- Writes of objects 0x1xxx (R475, R495, R501, R502). -/
def State.putComms (s : State) (q : Req) (idx sub v : Nat) : State × Nat :=
  if idx = 0x1010 ∧ sub = 0xC then (s.sendAssign, 0)
  else if idx = 0x1020 ∧ sub = 5 then
    let p := s.fwFree
    (p.2.fwTry [(2, some p.1)], 0)
  else if idx = 0x1030 ∧ sub = 4 then s.freeNext.primeWrite q v s.freeBool
  else (s.wr idx sub v, 0)

/-- The effect of an accepted write of an object, and its answer. -/
def State.putObj (s : State) (q : Req) (idx sub v : Nat) (data : List Byte) : State × Nat :=
  let dom := s.reqDomain q
  if claimObj idx = true ∧ sub = 1 then (if v = 1 then s.claimPut idx dom else s.claimDrop idx, 0)
  else match idx / 4096 with
    | 0x1 => s.putComms q idx sub v
    | 0x2 => (s.putLoads q idx sub v, 0)
    | 0x3 => (s.putEnergy idx sub v, 0)
    | 0x4 => (s.putMemory idx sub v, 0)
    | 0x5 => (s.putHost dom idx sub v, 0)
    | 0x6 => (s.putPins dom idx sub v data, 0)
    | 0x7 => if 0x7010 ≤ idx ∧ idx < 0x7020 ∧ sub = 7 then s.testWrite (idx - 0x7010) v else (s.wr idx sub v, 0)
    | 0x8 => s.putSebex idx sub v data
    | 0xA => (s.putClock idx sub v, 0)
    | 0xB => (s.putLocus idx sub v, 0)
    | 0xC => (s.putFabric idx sub v, 0)
    | _ => (s.wr idx sub v, 0)

/-- The held resource for which a write is refused (R33, R34): its record and its holder. A write of CLAIM asks for the record's own
resource, an OP of a slot for the snapshot port of each member, a LOAD_GO for the configuration sectors of its die. -/
def State.heldResource (s : State) (idx sub v : Nat) : Option (Nat × Nat) :=
  let claimed := claimObj idx || (decide (0x5100 ≤ idx) && decide (idx < 0x5300))
  if claimed && decide (sub = 1) && decide (v = 1) then some (idx, s.ownerOfIdx idx)
  else if 0x2A00 ≤ idx ∧ idx < 0x2A40 ∧ sub = 7 then
    match (s.slotSet (idx - 0x2A00)).find? (fun n => s.slotRuns n || s.loadOn n) with
    | some n =>
      match (List.range 64).find? (fun k => s.slotBusy k && (s.slot k).members.contains n) with
      | some k => some (intObj n, s.ownerOfIdx (slotObj k))
      | none => some (cfgObj n, match [0, 1].find? (fun d => (s.load d).targets.contains n) with
          | some d => (s.load d).owner
          | none => s.regOwner n)
    | none => none
  else if 0x2010 ≤ idx ∧ idx < 0x2012 ∧ sub = 4 then
    let d := idx - 0x2010
    match [d, 1 - d].find? (fun e => decide (1 ≤ s.loadState e) && decide (s.loadState e ≤ 3)) with
    | some e => some (loadObj e, (s.load e).owner)
    | none => none
  else none

/-- A request of the fabric for a resource that is held raises event 0x0A05 (R34). -/
def State.claimRefused (s : State) (q : Req) (idx sub v abort : Nat) : State :=
  match q, s.heldResource idx sub v with
  | .client _, some (o, holder) => if abort = abortBusy then s.raise 0x0A05 3 1 o [(20, 1, s.reqDomain q), (21, 1, holder)] else s
  | _, _ => s

/-- The value that a write carries; whether a wrapped key unwraps is open (R469). -/
def State.writeValue (s : State) (idx sub : Nat) (data : List Byte) : Nat × State :=
  if idx = 0x8000 ∧ sub = 0xB then (s.freeVal 1, s.freeNext) else (ofOctets data, s)

/-- A write of an object: its abort code and the state after it (R482). -/
def State.writeObj (s : State) (q : Req) (idx sub : Nat) (data : List Byte) : Nat × State :=
  let (v, t) := s.writeValue idx sub data
  let a := t.writeAbort q idx sub data.length v
  if a = 0 then
    let p := t.putObj q idx sub v data
    (p.2, p.1)
  else (a, t.claimRefused q idx sub v a)

/-- An index of a user object (R477). -/
def userIdx (idx : Nat) : Bool := decide (0x9000 ≤ idx) && decide (idx < 0xA000)

/-- OBJECT_WRITE (R475 to R484): a write of any object by one of the paths of R483. -/
def execObjectWrite (q : Req) (idx : BitVec 16) (sub : BitVec 8) (data : List Byte) (s : State) : Result :=
  if userIdx idx.toNat then
    .next (s.userRequest q { dom := s.reqDomain q, write := true, idx := idx.toNat, sub := sub.toNat, data := data, back := .direct })
  else
    let p := s.writeObj q idx.toNat sub.toNat data
    .next (p.2.answer p.1 [])

/-- Object index of a claimed resource's record. -/
def resourceObj : Resource → Nat
  | .engine e => 0x5100 + e.val
  | .ring r => 0x5200 + r.val
  | .slot k => 0x2A00 + k.val
  | .serial k => 0x6100 + k.val
  | .pwm k => 0x6110 + k.val
  | .tscap k => 0x6120 + k.val
  | .line n => 0x6130 + n.val
  | .testSlot k => 0x7010 + k.val

/-- RESOURCE_CLAIM (R33, R34): a write of 1 to CLAIM. -/
def execResourceClaim (q : Req) (r : Resource) (s : State) : Result :=
  let p := s.writeObj q (resourceObj r) 1 (octets 1 1)
  .next (p.2.answer p.1 [])

/-- RESOURCE_RELEASE (R35): a write of 0 to CLAIM. -/
def execResourceRelease (q : Req) (r : Resource) (s : State) : Result :=
  let p := s.writeObj q (resourceObj r) 1 (octets 1 0)
  .next (p.2.answer p.1 [])

end Sys2Proof.Machine
end

