-- ==== Sys2Proof/Machine/Requests.lean ====
section
/-! DEFINITION. Requests of the mailboxes and of the user-object channels (R302, R475, R483 to R488). -/

namespace Sys2Proof.Machine

/-- A request of a path is served (R482 to R487): a user object's goes to its server channel, any other is answered here. -/
def State.serve (s : State) (q : Req) (r : UserReq) : State :=
  if userIdx r.idx then s.userRequest q r
  else if r.write then
    let p := s.writeObj q r.idx r.sub r.data
    p.2.goBack r p.1 []
  else
    let p := s.getObj q r.idx r.sub
    p.2.2.goBack r p.1 p.2.1

/-- MAILBOX_DONE (R302): the prime Apex, awake, carries out a window's request. -/
def execMailboxDone (f : Fin 9) (s : State) : Result :=
  let x := s.box f.val
  match x.req with
  | some (write, idx, sub, data) =>
    if x.busy && !x.away && s.apexUp then
      .next ((s.setBox f.val { x with away := true }).serve (.pf f)
        { dom := s.reqDomain (.pf f), write := write, idx := idx, sub := sub, data := data, back := .window f.val })
    else .next s
  | none => .next s

/-- Fields of an item's header (R486): TAG, LEN, OP, SUB, INDEX and, of a response, ABORT. -/
def hdrTag (h : Nat) : Nat := fieldAt h 48 16
/-- LEN of a header. -/
def hdrLen (h : Nat) : Nat := fieldAt h 32 12
/-- OP of a request header. -/
def hdrOp (h : Nat) : Nat := fieldAt h 24 2

/-- An item holds the LEN bytes that its header names (R486). -/
def itemOk (header : Word) (data : List Byte) : Bool := decide (hdrLen header.data.toNat = data.length)

/-- The words of an item whose header is a given word (R486). -/
def itemWords (header : Word) (data : List Byte) : List Word := { header with last := data.isEmpty } :: (itemOf 0 data).drop 1

/-- A request item is answered on its client channel: one of a reserved OP with an open abort code, one longer than 256 bytes with that
of order 8. -/
def State.clientServe (s : State) (d : Fin 2) (h : Nat) (data : List Byte) : State :=
  let r : UserReq := { dom := s.reqDomain (.client d), write := decide (hdrOp h = 2), idx := fieldAt h 0 16, sub := fieldAt h 16 8,
                       data := data, back := .channel d.val (hdrTag h) }
  if hdrOp h = 0 ∨ hdrOp h = 3 then s.freeNext.goBack r (s.freeVal 32) []
  else if 256 < hdrLen h then s.goBack r 0x00030001 []
  else s.serve (.client d) r

/-- USER_OBJECT_CLIENT_REQUEST (R485, R486): a request item of a die's client channel. `data` holds the LEN bytes of the item. -/
def execUserObjectClientRequest (die : Fin 2) (header : Word) (data : List Byte) (s : State) : Result :=
  let h := header.data.toNat
  if itemOk header data = false then .refused (.illFormed "USER_OBJECT_CLIENT_REQUEST")
  else if s.dev.por ∨ s.apexUp = false then .next s
  else match s.siteWords (.object die false) (itemWords header data) with
    | none => .next s
    | some t => .next (t.clientServe die h data)

/-- Abort codes that a design may return (R482, R487); any other becomes that of order 8. -/
def userAnswer (a : Nat) : Nat :=
  if a ∈ ([0, 0x00060001, 0x00050002, 0x00010001, 0x00010002, 0x00020001, 0x00020002, 0x00040001, 0x00040002, 0x00030001, 0x00030002,
    0x00050001] : List Nat) then a else 0x00030001

/-- USER_OBJECT_SERVER_RESPONSE (R486, R487): a response item of a die's server channel; one whose TAG is not that of the outstanding
request is discarded. -/
def execUserObjectServerResponse (die : Fin 2) (header : Word) (data : List Byte) (s : State) : Result :=
  let h := header.data.toNat
  if itemOk header data = false then .refused (.illFormed "USER_OBJECT_SERVER_RESPONSE")
  else if s.dev.por ∨ s.apexUp = false then .next s
  else match s.siteWords (.object die true) (itemWords header data) with
    | none => .next s
    | some t =>
      match t.mgt.userReqs.get (fun _ => none) die.val with
      | some (_, tag, _) => .next (if tag = hdrTag h then t.serverDone die.val (userAnswer (h % 2 ^ 32)) data else t)
      | none => .next t

/-- USER_TIMEOUT (R487): no response within USER_TIMEOUT. -/
def execUserTimeout (die : Fin 2) (s : State) : Result :=
  match s.mgt.userReqs.get (fun _ => none) die.val with
  | some (r, _, issued) =>
    if issued + 1000 * s.rd 0x1040 0x11 ≤ s.now then
      .next ((s.raise 0x0A0B 3 1 0x1040 [(20, 1, die.val), (22, 2, r.idx), (24, 1, r.sub), (25, 1, r.dom)]).serverDone die.val abortState [])
    else .next s
  | none => .next s

end Sys2Proof.Machine
end

