-- ==== Sys2Proof/Machine/Kimbe.lean ====
section
/-! DEFINITION. The Kimbe chain (R489 to R497, R202): addresses and topology, object requests in segments, events, PING and time sync. -/

namespace Sys2Proof.Machine

/-- A leader that acts as leader for addressing (R495, R496). -/
def State.actingLeader (s : State) : Bool := decide (s.rd 0x1010 1 = 2) && !s.mgt.follower

/-- An ASSIGN with another NEXT. -/
def assignNext (f : KFrame) (n : Nat) : KFrame := { f with payload := BitVec.ofNat 8 n :: f.payload.drop 1 }

/-- A device that is no acting leader handles an ASSIGN (R495). -/
def State.assignFollow (s : State) (f : KFrame) : State :=
  let next := octField f.payload 0 1
  let t := if (octField f.payload 1 1).testBit 0 then s.wr 0x1010 2 0 else s
  if t.rd 0x1010 2 ≠ 0 then t.kmForward f
  else if next ≤ 62 then ((t.wr 0x1010 2 next).raise 0x0A07 4 0 next [(20, 1, next)]).kmForward (assignNext f (next + 1))
  else if next = 63 then (t.raise 0x0A0C 3 2 0x1010 [(20, 1, f.hops)]).kmForward f
  else t.kmForward f

/-- An ASSIGN is handled (R495, R496): at an acting leader its own has gone round the ring, and another's makes it a follower for
addressing. -/
def State.assignTake (s : State) (f : KFrame) : State :=
  let serial := octField f.payload 4 8
  if f.payload.length ≠ 12 then s
  else if s.actingLeader then
    if serial = Config.serial % 2 ^ 64 then
      { s.wrs 0x1010 [(4, (octField f.payload 0 1 + 255) % 256), (3, 2)] with mgt := { s.mgt with assignAt := none } }
    else (({ s with mgt := { s.mgt with follower := true, assignAt := none } } : State).raise 0x0A08 3 2 0x1010
      [(24, 8, serial)]).assignFollow f
  else s.assignFollow f

/-- ASSIGN (R493, R495, R496). -/
def execAssign (f : KFrame) (s : State) : Result := .next (s.kmTake f 1 (fun t => t.assignTake f))

/-- ASSIGN_GO (R495, R502). -/
def execAssignGo (q : Req) (v : BitVec 8) (s : State) : Result := s.writing q 0x1010 0xC 1 v.toNat State.sendAssign

/-- RING_DETECT_TIMEOUT (R496): 1 ms after a leader's ASSIGN the chain is a line. -/
def execRingDetectTimeout (s : State) : Result :=
  match s.mgt.assignAt with
  | some t => if t + 1000000 ≤ s.now then .next { s.wrs 0x1010 [(3, 1), (4, 0)] with mgt := { s.mgt with assignAt := none } } else .next s
  | none => .next s

/-- KIMBE_LINK (R489, R495, R503): the receiver gains or loses sync, or KM_OUT comes up or goes down. The transmitter needs SYS_REFCLK. A
leader whose KM_OUT comes up sends ASSIGN. -/
def execKimbeLink (inSync outUp : Bool) (s : State) : Result :=
  let up := outUp && decide (s.rd 0xA000 2 = 1)
  let v := inSync.toNat + 2 * up.toNat
  let old := s.rd 0x1010 5
  if s.dev.por ∨ v = old then .next s
  else
    let t := (s.wr 0x1010 5 v).raise 0x0A09 3 1 0x1010 [(20, 1, v)]
    .next (if up && !old.testBit 1 && t.actingLeader then t.sendAssign else t)

/-- The request that an object frame carries, answered on the chain to its SRC (R491, R492). -/
def chainReq (f : KFrame) (write : Bool) (data : List Byte) : UserReq :=
  let p := f.payload
  { dom := 1, write := write, idx := octField p 2 2, sub := octField p 4 1, data := data,
    back := .chain f.src.val (octField p 0 2) (if write then 0 else octField p 6 4) (if write then 0 else octField p 10 2) }

/-- An OD_READ is served (R491, R492): LEN lies in 1 to 240. -/
def State.odReadServe (s : State) (f : KFrame) : State :=
  let len := octField f.payload 10 2
  let r := chainReq f false []
  if f.payload.length ≠ 12 then s
  else if len = 0 ∨ 240 < len then s.goBack r 0x00030001 []
  else s.serve .kimbe r

/-- OD_READ (R492). -/
def execOdRead (f : KFrame) (s : State) : Result := .next (s.kmTake f 2 (fun t => t.kmRoute f (fun u => u.odReadServe f)))

/-- Set the assembly of a SRC. -/
def State.setAssembly (s : State) (src : Nat) (x : Option (Nat × Nat × List Byte)) : State :=
  { s with mgt := { s.mgt with assembly := s.mgt.assembly.put (fun _ => none) src x } }

/-- The octets of a write with a segment laid on; none for a segment that does not follow (R492). -/
def State.segment (s : State) (f : KFrame) : Option (List Byte) :=
  let p := f.payload
  let len := octField p 10 2
  let offset := octField p 6 4
  let data := p.drop 12
  if 240 < len ∨ p.length ≠ 12 + len then none
  else match s.mgt.assembly.get (fun _ => none) f.src.val with
    | none => if offset = 0 then some data else none
    | some (idx, sub, l) =>
      if offset ≠ 0 ∧ offset = l.length ∧ idx = octField p 2 2 ∧ sub = octField p 4 1 then some (l ++ data) else none

/-- A segment of an OD_WRITE (R491, R492): kept until FINAL, at which the write takes effect; a gap or a new OFFSET 0 discards what was
assembled. -/
def State.odWriteServe (s : State) (f : KFrame) : State :=
  let p := f.payload
  let src := f.src.val
  if p.length < 12 then s
  else match s.segment f with
    | none => (s.setAssembly src none).goBack (chainReq f true []) 0x00030001 []
    | some l =>
      if (octField p 5 1).testBit 0 then (s.setAssembly src none).serve .kimbe (chainReq f true l)
      else (s.setAssembly src (some (octField p 2 2, octField p 4 1, l))).goBack (chainReq f true []) 0 []

/-- OD_WRITE (R492). -/
def execOdWrite (f : KFrame) (s : State) : Result := .next (s.kmTake f 3 (fun t => t.kmRoute f (fun u => u.odWriteServe f)))

/-- OD_RESP (R491, R493): the requester consumes it; the device sends no request of its own, so nothing waits for it. -/
def execOdResp (f : KFrame) (s : State) : Result := .next (s.kmTake f 4 (fun t => t.kmRoute f id))

/-- EVENT_FRAME (R491, R493): its destination consumes the record. -/
def execEventFrame (f : KFrame) (s : State) : Result := .next (s.kmTake f 7 (fun t => t.kmRoute f id))

/-- PING (R491): returned to its SRC unchanged with REPLY set. A reply is consumed. -/
def execPing (f : KFrame) (s : State) : Result :=
  .next (s.kmTake f 8 (fun t => t.kmRoute f (fun u =>
    if f.reply then u else u.kmOut { u.kmFrame f.src.val 8 f.payload with reply := true })))

/-- TIME_SYNC_SEND (R202, R497): the chain leader sends its device time every SYNC_INTERVAL. -/
def execTimeSyncSend (s : State) : Result :=
  if s.rd 0x1010 1 = 2 ∧ s.rd 0xA200 7 = 1 ∧ (s.rd 0x1010 5).testBit 1 = true ∧ s.cell.lastSent + 1000000 * s.rd 0xA200 8 ≤ s.now then
    let t : State := { s with cell := { s.cell with lastSent := s.now, syncSeq := (s.cell.syncSeq + 1) % 2 ^ 32 } }
    .next (t.kmSend (t.kmFrame 63 6 (octets 8 s.now ++ octets 8 0 ++ octets 4 s.cell.syncSeq)))
  else .next s

/-- A TIME_SYNC as a forwarder sends it on (R497): CORRECTION, in units of 2^-16 ns, with the residence and line delays added. -/
def syncForward (f : KFrame) (residence delay : Nat) : KFrame :=
  let p := f.payload
  { f with payload := p.take 8 ++ octets 8 ((octField p 8 8 + residence + 65536 * delay) % 2 ^ 64) ++ p.drop 16 }

/-- A follower corrects its device time by a TIME_SYNC (R202, R497): what is left of the slew for an earlier frame gives way to the new
offset. LAST_OFFSET is its own time less the leader's. -/
def State.syncTake (s : State) (f : KFrame) : State :=
  let p := f.payload
  if s.rd 0x1010 1 ≠ 1 ∨ s.rd 0xA200 7 = 0 then s
  else
    let leader : Int := ((octField p 0 8 + octField p 8 8 / 65536 + s.rd 0x1010 6 : Nat) : Int)
    let c := leader - (s.now : Int)
    let hops := f.hops + 1
    let n := s.cell.synced + 1
    let near := decide (c ≤ (20 * hops : Nat)) && decide (-(20 * hops : Nat) ≤ c)
    let t := s.correctTime 0 c
    let u := t.wrs 0xA200 [(9, if 3 ≤ n ∧ near = true then 2 else 1), (0xA, ofSigned 64 (-c)), (0xB, hops % 256)]
    { u with cell := { u.cell with lastSync := u.now, synced := n } }

/-- TIME_SYNC (R497). `residence` is in units of 2^-16 ns. -/
def execTimeSync (f : KFrame) (residence : Nat) (s : State) : Result :=
  .next (s.kmTake f 6 (fun t =>
    if f.payload.length = 20 then t.kmRouteAs f (syncForward f residence (t.rd 0x1010 6)) (fun u => u.syncTake f)
    else t.kmRoute f id))

/-- TIME_SYNC_LOST (R202): a follower has had no frame for four intervals. -/
def execTimeSyncLost (s : State) : Result :=
  if s.dev.por = false ∧ s.rd 0x1010 1 = 1 ∧ s.rd 0xA200 7 = 1 ∧ s.rd 0xA200 9 ≠ 3 ∧ s.cell.lastSync + 4000000 * s.rd 0xA200 8 ≤ s.now then
    let t : State := { s.wr 0xA200 9 3 with cell := { s.cell with synced := 0 } }
    .next (t.raise 0x0B09 1 1 (locDie 0) [(20, 1, s.rd 0xA200 0xB), (24, 8, s.rd 0xA200 0xA)])
  else .next s

end Sys2Proof.Machine
end

