-- ==== Sys2Proof/Machine/Tick.lean ====
section
/-! DEFINITION. What happens at a tick of the time base (R199): device time advances, and everything that runs by it moves on. -/

namespace Sys2Proof.Machine

/-- Time on the line of one octet of a UART, ns (R519, R529): start, eight data bits, parity where selected, one or two stop bits. -/
def uartTime (config : Nat) : Nat :=
  (10 + (if fieldAt config 24 2 = 0 then 0 else 1) + fieldAt config 26 1) * 10 ^ 9 / (config % 2 ^ 24)

/-- Queued octets of a UART whose time on the line is over have left it; BUSY clears with the last. -/
def State.uartDrain (s : State) (k : Nat) : Nat → State
  | 0 => s
  | fuel + 1 =>
    let x := s.serial k
    let e := x.byteAt + uartTime (s.rd (serialObj k) 3)
    match x.tx with
    | [] => s
    | _ :: rest =>
      if e ≤ s.now then
        let t := s.setSerial k { x with tx := rest, byteAt := e }
        (if rest = [] then t.statusBit k 0 false else t).uartDrain k fuel
      else s

/-- Time passes for a UART. Without a RATE nothing is sent; with FLOW the far end may hold the line at any time, which is open. -/
def State.uartTick (s : State) (k : Nat) : State :=
  let c := s.rd (serialObj k) 3
  let x := s.serial k
  if x.tx = [] ∨ c % 2 ^ 24 = 0 then s
  else if c.testBit 27 then
    let t := s.freeNext
    if s.freeVal 1 = 1 then t.setSerial k { x with byteAt := s.now } else t.uartDrain k x.tx.length
  else s.uartDrain k x.tx.length

/-- Annulus as device time moves on: alert windows end (R252), each memory port moves its responses on (R239), and accesses of the Host Port that
waited are served (R261). -/
def State.memTick (s : State) : State :=
  let t := s.confirmAll.drainPorts
  if t.host.barWait = [] then t else t.barGo t.host.barWait

/-- One tick of the time base (R199): device time advances, islands run, Annulus moves on, windows of 1 s
that are over report their events (R36), lanes and UARTs send, pulse-width outputs fall, streams write the EPOCH records that they owe (R154), waiting TIME requests capture, and what draws power by time is charged (R340). -/
def State.tick (s : State) : State :=
  let t0 := s.now
  let s0 := s.timeAdvance
  let s1 := (((s0.timePass t0 s0.now).islandsCycles t0 islands).resetsSettle.memTick).loopsIdle fixedLoops
  let s2 := s1.winTick s1.out.wins.cells
  let s3 := (s2.each (fun t k => t.laneTick t0 k) (List.range 16)).each State.uartTick [0, 1]
  let s4 := (s3.countEdges s).epochsFlush
  s4.each State.timeAnswer s4.dev.timeWaiters

/-- Several ticks. -/
def State.ticks (s : State) : Nat → State
  | 0 => s
  | k + 1 => (s.tick).ticks k

/-- TIME_BASE_TICK (R199): successive ticks of the time base, which stands still under power-on reset. -/
def execTimeBaseTick (k : Nat) (s : State) : Result := .next (if s.dev.por then s else s.ticks k)

end Sys2Proof.Machine
end

