-- ==== Sys2Proof/Machine/Dispatch.lean ====
section
/-! DEFINITION. The dispatch: one arm for each constructor of `Instr`, each a direct call of that command's meaning. -/

namespace Sys2Proof.Machine

/-- The effect of a command on everything but the queue. -/
def exec (i : Instr) (s : State) : Host.Outcome State Fault Refusal :=
  match i with
  | .drCapture u => Sys2Proof.Machine.execDrCapture u s
  | .drEmpty u => Sys2Proof.Machine.execDrEmpty u s
  | .joinedRequestRise u => Sys2Proof.Machine.execJoinedRequestRise u s
  | .bdCapture u => Sys2Proof.Machine.execBdCapture u s
  | .bdEmpty u => Sys2Proof.Machine.execBdEmpty u s
  | .ceOutputChange u => Sys2Proof.Machine.execCeOutputChange u s
  | .mxGrant u => Sys2Proof.Machine.execMxGrant u s
  | .mxGrantRelease u => Sys2Proof.Machine.execMxGrantRelease u s
  | .resetCtrlWrite q r v => Sys2Proof.Machine.execResetCtrlWrite q r v s
  | .regionResetStart r => Sys2Proof.Machine.execRegionResetStart r s
  | .regionResetReload r => Sys2Proof.Machine.execRegionResetReload r s
  | .fenceSetUser q r force => Sys2Proof.Machine.execFenceSetUser q r force s
  | .fenceClearUser q r force => Sys2Proof.Machine.execFenceClearUser q r force s
  | .borderChannelClose r ch => Sys2Proof.Machine.execBorderChannelClose r ch s
  | .regionSettled r => Sys2Proof.Machine.execRegionSettled r s
  | .quiesceTimeoutExpiry r => Sys2Proof.Machine.execQuiesceTimeoutExpiry r s
  | .relayStationTransfer r side seg receiving => Sys2Proof.Machine.execRelayStationTransfer r side seg receiving s
  | .bisectorSend east ch => Sys2Proof.Machine.execBisectorSend east ch s
  | .bisectorReceive east ch ecc asReceived => Sys2Proof.Machine.execBisectorReceive east ch ecc asReceived s
  | .bisectorCreditReturn east ch => Sys2Proof.Machine.execBisectorCreditReturn east ch s
  | .prismOperation c => Sys2Proof.Machine.execPrismOperation c s
  | .poolCmdRead c p ecc => Sys2Proof.Machine.execPoolCmdRead c p ecc s
  | .poolCmdWrite c p => Sys2Proof.Machine.execPoolCmdWrite c p s
  | .poolSeqWrite c p => Sys2Proof.Machine.execPoolSeqWrite c p s
  | .poolSeqRead c p ecc => Sys2Proof.Machine.execPoolSeqRead c p ecc s
  | .poolFifoWrite c => Sys2Proof.Machine.execPoolFifoWrite c s
  | .poolFifoRead c ecc => Sys2Proof.Machine.execPoolFifoRead c ecc s
  | .poolPair c ecc0 ecc1 => Sys2Proof.Machine.execPoolPair c ecc0 ecc1 s
  | .logStalled st => Sys2Proof.Machine.execLogStalled st s
  | .replayDecision st => Sys2Proof.Machine.execReplayDecision st s
  | .replayStalled st => Sys2Proof.Machine.execReplayStalled st s
  | .marginCheck r stepPs pathPs bundleOk => Sys2Proof.Machine.execMarginCheck r stepPs pathPs bundleOk s
  | .marginClear q r v => Sys2Proof.Machine.execMarginClear q r v s
  | .logQueueWrite q r v => Sys2Proof.Machine.execLogQueueWrite q r v s
  | .replayQueueWrite q st v => Sys2Proof.Machine.execReplayQueueWrite q st v s
  | .siteModeWrite q r v => Sys2Proof.Machine.execSiteModeWrite q r v s
  | .wordFifoFabricWrite site w => Sys2Proof.Machine.execWordFifoFabricWrite site w s
  | .wordFifoIslandWrite site w => Sys2Proof.Machine.execWordFifoIslandWrite site w s
  | .valueFabricWrite site w => Sys2Proof.Machine.execValueFabricWrite site w s
  | .valueReadRequest site w => Sys2Proof.Machine.execValueReadRequest site w s
  | .valueIslandWrite site v => Sys2Proof.Machine.execValueIslandWrite site v s
  | .islandPulse site => Sys2Proof.Machine.execIslandPulse site s
  | .pulseReturnToggle site => Sys2Proof.Machine.execPulseReturnToggle site s
  | .fabricPulse site => Sys2Proof.Machine.execFabricPulse site s
  | .countIslandEvent site => Sys2Proof.Machine.execCountIslandEvent site s
  | .countFabricToken site => Sys2Proof.Machine.execCountFabricToken site s
  | .skew site islandHalf => Sys2Proof.Machine.execSkew site islandHalf s
  | .timeSiteRequest r => Sys2Proof.Machine.execTimeSiteRequest r s
  | .pllStart l => Sys2Proof.Machine.execPllStart l s
  | .pllLock l => Sys2Proof.Machine.execPllLock l s
  | .pllLockTimeout l => Sys2Proof.Machine.execPllLockTimeout l s
  | .pllIdleStop l => Sys2Proof.Machine.execPllIdleStop l s
  | .pllLockLost l => Sys2Proof.Machine.execPllLockLost l s
  | .pllHoldoverExpiry l => Sys2Proof.Machine.execPllHoldoverExpiry l s
  | .islandWake l => Sys2Proof.Machine.execIslandWake l s
  | .islandEnable q a v => Sys2Proof.Machine.execIslandEnable q a v s
  | .islandReset q a v => Sys2Proof.Machine.execIslandReset q a v s
  | .aoClockFail => Sys2Proof.Machine.execAoClockFail s
  | .rcTrim => Sys2Proof.Machine.execRcTrim s
  | .refclkLost => Sys2Proof.Machine.execRefclkLost s
  | .refclkRestored => Sys2Proof.Machine.execRefclkRestored s
  | .offsetAdjust q v => Sys2Proof.Machine.execOffsetAdjust q v s
  | .timeSyncSend => Sys2Proof.Machine.execTimeSyncSend s
  | .timeSync f residence => Sys2Proof.Machine.execTimeSync f residence s
  | .timeSyncLost => Sys2Proof.Machine.execTimeSyncLost s
  | .locusTagWord die p w => Sys2Proof.Machine.execLocusTagWord die p w s
  | .locusItemWord die p w => Sys2Proof.Machine.execLocusItemWord die p w s
  | .locusRead die p => Sys2Proof.Machine.execLocusRead die p s
  | .spillReturn die q => Sys2Proof.Machine.execSpillReturn die q s
  | .idleTimeout die q => Sys2Proof.Machine.execIdleTimeout die q s
  | .handoff die q => Sys2Proof.Machine.execHandoff die q s
  | .flush q die n v => Sys2Proof.Machine.execFlush q die n v s
  | .flushed die q => Sys2Proof.Machine.execFlushed die q s
  | .memoryRead die p w => Sys2Proof.Machine.execMemoryRead die p w s
  | .memoryWrite die p w data => Sys2Proof.Machine.execMemoryWrite die p w data s
  | .memoryWriteAck die p w data => Sys2Proof.Machine.execMemoryWriteAck die p w data s
  | .memoryOpReserved die p w => Sys2Proof.Machine.execMemoryOpReserved die p w s
  | .requestAdmission die p => Sys2Proof.Machine.execRequestAdmission die p s
  | .pcCommandIssue die pc ecc => Sys2Proof.Machine.execPcCommandIssue die pc ecc s
  | .ageExceeded die pc => Sys2Proof.Machine.execAgeExceeded die pc s
  | .perBankRefreshDue die pc => Sys2Proof.Machine.execPerBankRefreshDue die pc s
  | .refreshComplete die pc => Sys2Proof.Machine.execRefreshComplete die pc s
  | .refreshDebtLimit die pc => Sys2Proof.Machine.execRefreshDebtLimit die pc s
  | .stackTempSample die celsius => Sys2Proof.Machine.execStackTempSample die celsius s
  | .parityAlert die channel => Sys2Proof.Machine.execParityAlert die channel s
  | .parityReplay die channel => Sys2Proof.Machine.execParityReplay die channel s
  | .stackTraining die failing => Sys2Proof.Machine.execStackTraining die failing s
  | .powerDownEntry die pc => Sys2Proof.Machine.execPowerDownEntry die pc s
  | .selfRefreshEntry die => Sys2Proof.Machine.execSelfRefreshEntry die s
  | .selfRefreshExit die => Sys2Proof.Machine.execSelfRefreshExit die s
  | .windowZeroing w => Sys2Proof.Machine.execWindowZeroing w s
  | .laneUp l => Sys2Proof.Machine.execLaneUp l s
  | .laneDown l lockLost => Sys2Proof.Machine.execLaneDown l lockLost s
  | .portUp l => Sys2Proof.Machine.execPortUp l s
  | .portDown l => Sys2Proof.Machine.execPortDown l s
  | .remoteFault l => Sys2Proof.Machine.execRemoteFault l s
  | .refclkLostRay die => Sys2Proof.Machine.execRefclkLostRay die s
  | .rxFrame l f => Sys2Proof.Machine.execRxFrame l f s
  | .txFrameStart l subNs => Sys2Proof.Machine.execTxFrameStart l subNs s
  | .txUnderrunError l => Sys2Proof.Machine.execTxUnderrunError l s
  | .rawRxWord l bits => Sys2Proof.Machine.execRawRxWord l bits s
  | .rawFill l => Sys2Proof.Machine.execRawFill l s
  | .rxSlip q l v => Sys2Proof.Machine.execRxSlip q l v s
  | .transmitStampRequest l w => Sys2Proof.Machine.execTransmitStampRequest l w s
  | .txTapWrite q l tap v => Sys2Proof.Machine.execTxTapWrite q l tap v s
  | .configurationRequest f a => Sys2Proof.Machine.execConfigurationRequest f a s
  | .mailboxRead f idx sub vector => Sys2Proof.Machine.execMailboxRead f idx sub vector s
  | .mailboxWrite f idx sub data vector => Sys2Proof.Machine.execMailboxWrite f idx sub data vector s
  | .mailboxOverlap f => Sys2Proof.Machine.execMailboxOverlap f s
  | .mailboxDone f => Sys2Proof.Machine.execMailboxDone f s
  | .apertureAccess f offset write len inStream => Sys2Proof.Machine.execApertureAccess f offset write len inStream s
  | .completionArrival tag => Sys2Proof.Machine.execCompletionArrival tag s
  | .completionTimeout tag => Sys2Proof.Machine.execCompletionTimeout tag s
  | .dmaTail f e v => Sys2Proof.Machine.execDmaTail f e v s
  | .dmaRun f e base log2 => Sys2Proof.Machine.execDmaRun f e base log2 s
  | .dmaStop f e => Sys2Proof.Machine.execDmaStop f e s
  | .dmaRestart f e => Sys2Proof.Machine.execDmaRestart f e s
  | .dmaDescriptorComplete e d data poisoned hostError => Sys2Proof.Machine.execDmaDescriptorComplete e d data poisoned hostError s
  | .ringEnable f r base cfg moderation filter => Sys2Proof.Machine.execRingEnable f r base cfg moderation filter s
  | .ringHead f r v => Sys2Proof.Machine.execRingHead f r v s
  | .moderationWindowClose r => Sys2Proof.Machine.execModerationWindowClose r s
  | .functionLevelResetPf n => Sys2Proof.Machine.execFunctionLevelResetPf n s
  | .domainReset q f v => Sys2Proof.Machine.execDomainReset q f v s
  | .flrDone f => Sys2Proof.Machine.execFlrDone f s
  | .functionLevelResetVf f v => Sys2Proof.Machine.execFunctionLevelResetVf f v s
  | .functionLevelResetPf0 => Sys2Proof.Machine.execFunctionLevelResetPf0 s
  | .perstN => Sys2Proof.Machine.execPerstN s
  | .hotReset => Sys2Proof.Machine.execHotReset s
  | .linkLoss => Sys2Proof.Machine.execLinkLoss s
  | .spdmMessage f startsSession => Sys2Proof.Machine.execSpdmMessage f startsSession s
  | .ideKm f stream => Sys2Proof.Machine.execIdeKm f stream s
  | .ideFailure stream => Sys2Proof.Machine.execIdeFailure stream s
  | .tdispMessage f op stream => Sys2Proof.Machine.execTdispMessage f op stream s
  | .setSlotPowerLimit value scaleMw => Sys2Proof.Machine.execSetSlotPowerLimit value scaleMw s
  | .resourceClaim q res => Sys2Proof.Machine.execResourceClaim q res s
  | .resourceRelease q res => Sys2Proof.Machine.execResourceRelease q res s
  | .railTrim die rail mv => Sys2Proof.Machine.execRailTrim die rail mv s
  | .regulatorFault die rail mv => Sys2Proof.Machine.execRegulatorFault die rail mv s
  | .overLimit ma => Sys2Proof.Machine.execOverLimit ma s
  | .railHop r target cause => Sys2Proof.Machine.execRailHop r target cause s
  | .railHopDone r => Sys2Proof.Machine.execRailHopDone r s
  | .thermalHop die => Sys2Proof.Machine.execThermalHop die s
  | .meterCollection temps faults => Sys2Proof.Machine.execMeterCollection temps faults s
  | .windowBoundary temps loss vinfUj => Sys2Proof.Machine.execWindowBoundary temps loss vinfUj s
  | .calibration measured rings => Sys2Proof.Machine.execCalibration measured rings s
  | .resume q a v => Sys2Proof.Machine.execResume q a v s
  | .reserveUjWrite q v => Sys2Proof.Machine.execReserveUjWrite q v s
  | .plannerItemPost item => Sys2Proof.Machine.execPlannerItemPost item s
  | .plannerForced k faults => Sys2Proof.Machine.execPlannerForced k faults s
  | .deadlineMissed k => Sys2Proof.Machine.execDeadlineMissed k s
  | .plannerItemComplete k measured corrected uncorrectable => Sys2Proof.Machine.execPlannerItemComplete k measured corrected uncorrectable s
  | .powerStateStandby q => Sys2Proof.Machine.execPowerStateStandby q s
  | .powerStateStandbyGated q => Sys2Proof.Machine.execPowerStateStandbyGated q s
  | .powerStateRun q => Sys2Proof.Machine.execPowerStateRun q s
  | .deviceWake => Sys2Proof.Machine.execDeviceWake s
  | .powerOnResetRelease mode => Sys2Proof.Machine.execPowerOnResetRelease mode s
  | .powerOnResetAssert vccaoLost => Sys2Proof.Machine.execPowerOnResetAssert vccaoLost s
  | .apexBoot img0 img1 => Sys2Proof.Machine.execApexBoot img0 img1 s
  | .fwGo q v img => Sys2Proof.Machine.execFwGo q v img s
  | .annulusRunning table initHeldLow => Sys2Proof.Machine.execAnnulusRunning table initHeldLow s
  | .fullLoadCommit c readbackOk => Sys2Proof.Machine.execFullLoadCommit c readbackOk s
  | .fetchLost die manifestFa offset => Sys2Proof.Machine.execFetchLost die manifestFa offset s
  | .startup => Sys2Proof.Machine.execStartup s
  | .doneTimeout => Sys2Proof.Machine.execDoneTimeout s
  | .accept q v otp => Sys2Proof.Machine.execAccept q v otp s
  | .acceptTimeout => Sys2Proof.Machine.execAcceptTimeout s
  | .cfgProgN => Sys2Proof.Machine.execCfgProgN s
  | .restart q v => Sys2Proof.Machine.execRestart q v s
  | .cfgStream f first => Sys2Proof.Machine.execCfgStream f first s
  | .loadGo q die v => Sys2Proof.Machine.execLoadGo q die v s
  | .partialStaging die c => Sys2Proof.Machine.execPartialStaging die c s
  | .partialCommit die badFrame otp => Sys2Proof.Machine.execPartialCommit die badFrame otp s
  | .scrubPassEnd die => Sys2Proof.Machine.execScrubPassEnd die s
  | .snapshot q x v => Sys2Proof.Machine.execSnapshot q x v s
  | .snapshotCopy x faults poison => Sys2Proof.Machine.execSnapshotCopy x faults poison s
  | .rollback q x v => Sys2Proof.Machine.execRollback q x v s
  | .rollbackRestore x faults badImage => Sys2Proof.Machine.execRollbackRestore x faults badImage s
  | .keyDerivation failing cekOk => Sys2Proof.Machine.execKeyDerivation failing cekOk s
  | .ecHashWrite q x v otp => Sys2Proof.Machine.execEcHashWrite q x v otp s
  | .mlHashWrite q x v otp => Sys2Proof.Machine.execMlHashWrite q x v otp s
  | .keyRevoked q x v otp => Sys2Proof.Machine.execKeyRevoked q x v otp s
  | .policyOtpWrite q f v otp => Sys2Proof.Machine.execPolicyOtpWrite q f v otp s
  | .ownerCekBlobWrite q blob unwrapOk otp => Sys2Proof.Machine.execOwnerCekBlobWrite q blob unwrapOk otp s
  | .counterRetry c otp => Sys2Proof.Machine.execCounterRetry c otp s
  | .nonce q d v => Sys2Proof.Machine.execNonce q d v s
  | .quoteReady d => Sys2Proof.Machine.execQuoteReady d s
  | .tokenAppend q d bytes => Sys2Proof.Machine.execTokenAppend q d bytes s
  | .tokenSubmit q d v t => Sys2Proof.Machine.execTokenSubmit q d v t s
  | .tokenDiscard q d v => Sys2Proof.Machine.execTokenDiscard q d v s
  | .tokenRevoke q d v => Sys2Proof.Machine.execTokenRevoke q d v s
  | .tokenExpiry d => Sys2Proof.Machine.execTokenExpiry d s
  | .samplePreload capture => Sys2Proof.Machine.execSamplePreload capture s
  | .idcode => Sys2Proof.Machine.execIdcode s
  | .highz => Sys2Proof.Machine.execHighz s
  | .clamp => Sys2Proof.Machine.execClamp s
  | .extest cells => Sys2Proof.Machine.execExtest cells s
  | .dbgChallenge owner => Sys2Proof.Machine.execDbgChallenge owner s
  | .dbgToken t => Sys2Proof.Machine.execDbgToken t s
  | .dbgStatus => Sys2Proof.Machine.execDbgStatus s
  | .stateRead r => Sys2Proof.Machine.execStateRead r s
  | .apexAccess => Sys2Proof.Machine.execApexAccess s
  | .rmaEnter => Sys2Proof.Machine.execRmaEnter s
  | .bypass => Sys2Proof.Machine.execBypass s
  | .drbgReseed => Sys2Proof.Machine.execDrbgReseed s
  | .entropyFail test => Sys2Proof.Machine.execEntropyFail test s
  | .tamper => Sys2Proof.Machine.execTamper s
  | .tamperAck q v => Sys2Proof.Machine.execTamperAck q v s
  | .apexWake die => Sys2Proof.Machine.execApexWake die s
  | .apexIdle die => Sys2Proof.Machine.execApexIdle die s
  | .apexWatchdog die => Sys2Proof.Machine.execApexWatchdog die s
  | .objectWrite q idx sub data => Sys2Proof.Machine.execObjectWrite q idx sub data s
  | .userObjectClientRequest die header data => Sys2Proof.Machine.execUserObjectClientRequest die header data s
  | .userObjectServerResponse die header data => Sys2Proof.Machine.execUserObjectServerResponse die header data s
  | .userTimeout die => Sys2Proof.Machine.execUserTimeout die s
  | .assign f => Sys2Proof.Machine.execAssign f s
  | .assignGo q v => Sys2Proof.Machine.execAssignGo q v s
  | .ringDetectTimeout => Sys2Proof.Machine.execRingDetectTimeout s
  | .kimbeLink inSync outUp => Sys2Proof.Machine.execKimbeLink inSync outUp s
  | .odRead f => Sys2Proof.Machine.execOdRead f s
  | .odWrite f => Sys2Proof.Machine.execOdWrite f s
  | .odResp f => Sys2Proof.Machine.execOdResp f s
  | .eventFrame f => Sys2Proof.Machine.execEventFrame f s
  | .ping f => Sys2Proof.Machine.execPing f s
  | .kimbeFrameForward => Sys2Proof.Machine.execKimbeFrameForward s
  | .leaseSend => Sys2Proof.Machine.execLeaseSend s
  | .lease fromDie epoch primeClaim => Sys2Proof.Machine.execLease fromDie epoch primeClaim s
  | .tieLineRelease die => Sys2Proof.Machine.execTieLineRelease die s
  | .leaseLapsed die => Sys2Proof.Machine.execLeaseLapsed die s
  | .splitHold epochOther => Sys2Proof.Machine.execSplitHold epochOther s
  | .primeSelect q v otherAcks => Sys2Proof.Machine.execPrimeSelect q v otherAcks s
  | .vccioMeasurement bank mv => Sys2Proof.Machine.execVccioMeasurement bank mv s
  | .funcWrite q p v => Sys2Proof.Machine.execFuncWrite q p v s
  | .pinSettingWrite q p setting v => Sys2Proof.Machine.execPinSettingWrite q p setting v s
  | .fabricOut c w => Sys2Proof.Machine.execFabricOut c w s
  | .fabricIn c w => Sys2Proof.Machine.execFabricIn c w s
  | .uartXfer q k bytes => Sys2Proof.Machine.execUartXfer q k bytes s
  | .uartRxRead q k => Sys2Proof.Machine.execUartRxRead q k s
  | .uartByteReceived k b => Sys2Proof.Machine.execUartByteReceived k b s
  | .i2cXfer q k bytes => Sys2Proof.Machine.execI2cXfer q k bytes s
  | .spiXfer q bytes => Sys2Proof.Machine.execSpiXfer q bytes s
  | .serialTransferComplete k nack rx => Sys2Proof.Machine.execSerialTransferComplete k nack rx s
  | .pwmPeriodStart k => Sys2Proof.Machine.execPwmPeriodStart k s
  | .tscapEdge k rising => Sys2Proof.Machine.execTscapEdge k rising s
  | .pinInterrupt n level => Sys2Proof.Machine.execPinInterrupt n level s
  | .coalesceWindowClose n level => Sys2Proof.Machine.execCoalesceWindowClose n level s
  | .holdReleased q => Sys2Proof.Machine.execHoldReleased q s
  | .testPost q x v => Sys2Proof.Machine.execTestPost q x v s
  | .testWithdraw q x v => Sys2Proof.Machine.execTestWithdraw q x v s
  | .testStart x => Sys2Proof.Machine.execTestStart x s
  | .testDone x o => Sys2Proof.Machine.execTestDone x o s
  | .testEndingRequest x o => Sys2Proof.Machine.execTestEndingRequest x o s
  | .testDurationExpiry x o => Sys2Proof.Machine.execTestDurationExpiry x o s
  | .thermN celsius => Sys2Proof.Machine.execThermN celsius s
  | .hardShutdown celsius => Sys2Proof.Machine.execHardShutdown celsius s
  | .shutdownRecovery => Sys2Proof.Machine.execShutdownRecovery s
  | .pllRelock l => Sys2Proof.Machine.execPllRelock l s
  | .aoCrystalReturn => Sys2Proof.Machine.execAoCrystalReturn s
  | .timeBaseTick ticks => Sys2Proof.Machine.execTimeBaseTick ticks s
  | .rayRefclkPresent die => Sys2Proof.Machine.execRayRefclkPresent die s
  | .remoteFaultCleared l => Sys2Proof.Machine.execRemoteFaultCleared l s
  | .perstNRelease => Sys2Proof.Machine.execPerstNRelease s
  | .linkTrainingDone width rate flit => Sys2Proof.Machine.execLinkTrainingDone width rate flit s
  | .linkPowerStateChange st => Sys2Proof.Machine.execLinkPowerStateChange st s
  | .cfgInitNRelease => Sys2Proof.Machine.execCfgInitNRelease s
  | .tamperNRelease => Sys2Proof.Machine.execTamperNRelease s
  | .rayFarNoLock x o => Sys2Proof.Machine.execRayFarNoLock x o s

end Sys2Proof.Machine
end

