-- ==== Sys2Proof/Safety.lean ====
section
/-! DEFINITION. What counts as a safe step and a safe run of the block, in the terms that claims use. -/

namespace Sys2Proof

/-- The step answers a next state: no fault and no refusal. -/
def StepSafe (s : Machine.State) : Prop := ∃ t, Machine.step s = .next t

/-- Every one of the next `k` steps answers a next state. -/
def RunSafe : Nat → Machine.State → Prop
  | 0, _ => True
  | k + 1, s => ∃ t, Machine.step s = .next t ∧ RunSafe k t

/-- Between two states the block has raised an event of this code, source class, severity and source index (R316). -/
def Raises (s t : Machine.State) (code cls sev idx : Nat) : Prop :=
  ∃ l e, t.out.log = l ++ s.out.log ∧ e ∈ l ∧ e.code = code ∧ e.cls = cls ∧ e.sev = sev ∧ e.idx = idx

/-- A command has its effect: the block answers a next state, and that state satisfies `P`. -/
def Completes (i : Instr) (s : Machine.State) (P : Machine.State → Prop) : Prop := ∃ t, Machine.exec i s = .next t ∧ P t

/-- Whatever next state a command answers, `P` relates the state before to it. -/
def Relates (i : Instr) (s : Machine.State) (P : Machine.State → Machine.State → Prop) : Prop := ∀ t, Machine.exec i s = .next t → P s t

/-- An LU is as it was, but for a joined request that has fallen with its requests, and the matched delay with it (R50). -/
def LuFalls (x y : Machine.LuSt) : Prop := y = x ∨ y = { x with joined := false, delay := false }

/-- LUs other than `u` are as they were, but for joined requests that have fallen (R50). -/
def LusKept (s t : Machine.State) (u : Nat) : Prop := ∀ v, v ≠ u → LuFalls (s.fab.lu v) (t.fab.lu v)

/-- A Kimbe frame of a CMD is taken (R493): the device runs and its receiver is synchronised, the frame has a good CRC, was not cut off and
has not passed 63 forwarders. -/
def FrameTaken (s : Machine.State) (f : KFrame) (code : Nat) : Prop :=
  s.dev.por = false ∧ (s.rd 0x1010 5).testBit 0 = true ∧ f.cmd = code ∧ f.crcOk = true ∧ f.cut = false ∧ f.hops < 63

/-- A Kimbe frame ends at this device (R493): it did not come round the ring, and DEST is the device's address. -/
def FrameEnds (s : Machine.State) (f : KFrame) : Prop :=
  (f.src.val ≠ s.rd 0x1010 2 ∨ s.rd 0x1010 2 = 0) ∧ f.dest.val = s.rd 0x1010 2

/-- Every object keeps its value but those whose place satisfies `P` (R481). -/
def ObjectsKept (P : Nat → Prop) (s t : Machine.State) : Prop := ∀ i k, ¬ P (Machine.oa i k) → t.rd i k = s.rd i k

/-- A fabric with the LUs, the acknowledges, the flag, status and site bit tokens and the meters of another: all that settling moves (R50,
R83, R109). -/
def withAcks (f g : Machine.FabSt) : Machine.FabSt :=
  { f with lus := g.lus, acks := g.acks, gAck := g.gAck, prisms := g.prisms, pools := g.pools, siteBit := g.siteBit, meter := g.meter }

/-- A fabric with the acknowledges and the tokens of another: all that taking a token moves (R85). -/
def withTokens (f g : Machine.FabSt) : Machine.FabSt :=
  { withAcks f g with arcRx := g.arcRx, bis := g.bis, siteOut := g.siteOut, taken := g.taken }

/-- As `withAcks`, and words that stand on site outputs may have been dropped (R182). -/
def withDrops (f g : Machine.FabSt) : Machine.FabSt := { withAcks f g with siteOut := g.siteOut, taken := g.taken }

/-- Prisms and Pools keep everything but the flag and status tokens they present: all that settling moves of them (R83). -/
def UnitsSettled (f g : Machine.FabSt) : Prop :=
  ∀ k, g.prism k = { f.prism k with flags := (g.prism k).flags } ∧ g.pool k = { f.pool k with status := (g.pool k).status }

/-- Where tokens are taken LUs keep everything but joined requests that fall, Prisms, but those of `P`, everything but the tokens they present,
and Pools, but those of `Q`, everything but these and what follows a read token that is taken (R50, R83, R85, R131). -/
def UnitsKept (P Q : Nat → Prop) (f g : Machine.FabSt) : Prop :=
  (∀ u, LuFalls (f.lu u) (g.lu u)) ∧ ∀ k,
    (¬ P k → g.prism k = { f.prism k with flags := (g.prism k).flags, result := (g.prism k).result, extra := (g.prism k).extra }) ∧
    (¬ Q k → g.pool k = { f.pool k with status := (g.pool k).status, read0 := (g.pool k).read0, read1 := (g.pool k).read1,
                                        ptr0 := (g.pool k).ptr0, ptr1 := (g.pool k).ptr1,
                                        fifoHead := (g.pool k).fifoHead, fifoLen := (g.pool k).fifoLen })

/-- The command has no unit of its own. -/
def noUnit (_ : Nat) : Prop := False

/-- Streams other than `k` keep everything but the count of reads of their queue (R159). -/
def StreamsKept (k : Nat) (s t : Machine.State) : Prop := ∀ j, j ≠ k → t.stream j = { s.stream j with reads := (t.stream j).reads }

/-- Queue contents and the count of what was written and read (R340) may differ. -/
def withQueues (f g : Machine.LocSt) : Machine.LocSt := { f with queues := g.queues, meter := g.meter }

/-- What columns of memory touch may differ: the rows open in each pseudo-channel, the count (R262), and the count of errors in the present
second (R254). -/
def withColumns (m n : Machine.MemSt) : Machine.MemSt :=
  { m with pcs := n.pcs, meter := n.meter, ceStart := n.ceStart, ceCount := n.ceCount, ceRaised := n.ceRaised }

/-- As `withColumns`, and the contents of memory may differ. -/
def withSpill (m n : Machine.MemSt) : Machine.MemSt := { withColumns m n with bytes := n.bytes, poison := n.poison, errs := n.errs }

/-- The meters of every unit and the charges of the Ledger (R340) may differ. -/
def withMeters (s t : Machine.State) : Machine.State :=
  { s with fab := { s.fab with meter := t.fab.meter }, loc := { s.loc with meter := t.loc.meter },
           mem := { s.mem with meter := t.mem.meter }, host := { s.host with meter := t.host.meter },
           pin := { s.pin with meter := t.pin.meter }, led := { s.led with m := t.led.m } }

/-- What a frame of the chain touches at a device that it wakes or passes (R471, R493, R494). -/
def withForward (m n : Machine.MgtSt) : Machine.MgtSt :=
  { m with held := n.held, heldCfg := n.heldCfg, lastCfg := n.lastCfg, sent := n.sent, served := n.served, idleFrom := n.idleFrom }

/-- The management state with the answer to an object request of another, and what serving one leaves (R472, R482). -/
def withAnswer (m n : Machine.MgtSt) : Machine.MgtSt := { m with resp := n.resp, served := n.served, idleFrom := n.idleFrom }

/-- Octet `a` of memory, by where it is stored (R230), reads as before. -/
def OctetKept (s t : Machine.State) (a : Nat) : Prop := t.mem.bytes.get (fun _ => 0) a = s.mem.bytes.get (fun _ => 0) a

/-- POISON and the error of the word under a key are as before (R237, R254). -/
def TagsKept (s t : Machine.State) (k : Nat) : Prop :=
  t.mem.poison.get (fun _ => false) k = s.mem.poison.get (fun _ => false) k ∧ t.mem.errs.get (fun _ => 0) k = s.mem.errs.get (fun _ => 0) k

/-- Memory outside the words at the physical addresses that satisfy `W` reads as before. -/
def KeptOutside (W : Nat → Prop) (s t : Machine.State) : Prop :=
  (∀ a, (∀ p, W p → ¬ (s.memKey p ≤ a ∧ a < s.memKey p + 16)) → OctetKept s t a) ∧
  ∀ k, (∀ p, W p → s.memKey p / 16 ≠ k) → TagsKept s t k

/-- The word at a physical address is one of `n` from another on. -/
def WordOf (p0 n p : Nat) : Prop := ∃ i, i < n ∧ p = p0 + 16 * i

/-- The word at a physical address lies in the spill part of a Locus queue that `Q` names, by die and number (R215). -/
def SpillWord (Q : Nat → Nat → Prop) (s : Machine.State) (p : Nat) : Prop := ∃ d q i, Q d q ∧ p = s.spillAddr d q i

/-- The word at a physical address holds one of `n` bytes from an address on. -/
def BytesWord (p0 n p : Nat) : Prop := WordOf (p0 / 16 * 16) ((p0 % 16 + n + 15) / 16) p

/-- Memory outside `n` words stored from a physical address on reads as before. -/
def BytesOutside (p n : Nat) (s t : Machine.State) : Prop := KeptOutside (WordOf p n) s t

/-- Memory outside the spill parts of the Locus queues that `Q` names reads as before. -/
def SpillOnly (Q : Nat → Nat → Prop) (s t : Machine.State) : Prop := KeptOutside (SpillWord Q s) s t

/-- Memory outside the keys that satisfy `K` reads as before. -/
def KeysKept (K : Nat → Prop) (s t : Machine.State) : Prop := (∀ a, ¬ K a → OctetKept s t a) ∧ ∀ k, ¬ K (16 * k) → TagsKept s t k

/-- Queue `q` of die `d` is the log queue of stream `k`. -/
def IsLog (k : Nat) (s : Machine.State) (d q : Nat) : Prop := d = s.streamDie k ∧ q = s.logQueue k

/-- Queue `q` of its die is the one that a Locus write port is at, or that DIRECT mode names (R209, R210). -/
def AtQueue (d p : Nat) (s : Machine.State) (q : Nat) : Prop := s.portItem d p = some q ∨ q = s.po d p 2 % 512

/-- Snapshot slots keep everything but what their images hold. -/
def SlotsKept (s t : Machine.State) : Prop := ∀ k, t.slot k = { s.slot k with images := (t.slot k).images }

/-- Objects that a change of a fence writes: STATE, FENCE_REASON and LAST_CLOSE of a region, and the masks of fenced regions (R78). -/
def FenceKeys (a : Nat) : Prop :=
  ∃ m, m < 64 ∧ (a = Machine.oa (Machine.regObj m) 2 ∨ a = Machine.oa (Machine.regObj m) 4 ∨ a = Machine.oa (Machine.regObj m) 0xA
    ∨ a = Machine.oa 0xC001 (1 + m / 32))

/-- Objects that columns of memory write: STATE of a pseudo-channel that wakes (R257), and the counts and the last address of the errors that
a controller finds (R254). -/
def ColumnKeys (a : Nat) : Prop :=
  (∃ c, c < 64 ∧ a = Machine.oa (0x4300 + c) 1) ∨
  ∃ d, d < 2 ∧ (a = Machine.oa (Machine.ctlObj d) 8 ∨ a = Machine.oa (Machine.ctlObj d) 0xA ∨ a = Machine.oa (Machine.ctlObj d) 0xB)

/-- Counters of the Locus records that items written to, read from or returned to a queue bump (R226), and what their words in spill touch. -/
def QueueKeys (a : Nat) : Prop :=
  ColumnKeys a ∨ ∃ d q, d < 2 ∧ q < 512 ∧
    (a = Machine.oa (0xB000 + d) 5 ∨ a = Machine.oa (Machine.queueObj d q) 0x15 ∨ a = Machine.oa (Machine.queueObj d q) 0x16)

/-- Objects that a logged or replayed decision of a stream bumps: its region's counts, and those of its queues (R169, R226). -/
def LogKeys (k a : Nat) : Prop :=
  QueueKeys a ∨ k < 64 ∧ (a = Machine.oa (Machine.detObj k) 4 ∨ a = Machine.oa (Machine.detObj k) 5)

/-- Objects that the end of a self-test writes (R538 to R541): its slot's results, the controller's slots and counts, and the state and the
adaptation of the unit that it hands back. -/
def TestKeys (a : Nat) : Prop :=
  (∃ k j, k < 16 ∧ 8 ≤ j ∧ j ≤ 0x12 ∧ a = Machine.oa (Machine.testObj k) j) ∨ (∃ j, 1 ≤ j ∧ j ≤ 4 ∧ a = Machine.oa 0x7000 j) ∨
  (∃ k, k < 16 ∧ (a = Machine.oa (Machine.laneObj k) 2 ∨ a = Machine.oa (0x5880 + k) 7 ∨ a = Machine.oa (0x5880 + k) 8)) ∨
  ∃ k, k < 32 ∧ a = Machine.oa (0xA010 + k) 2

/-- Objects that the commands of a loop write: STATE, HOLDER, REF_SEL, LOCK_TIME and LOST of it, and STATE and CYCLES of the island that it
drives (R203). -/
def LoopKeys (l : Loop) (a : Nat) : Prop :=
  (∃ j, j ∈ [2, 3, 4, 7, 8] ∧ a = Machine.oa (Machine.loopObj l) j) ∨
  ∃ i, Machine.loopIsland l = some i ∧ (a = Machine.oa (Machine.islObj i.die.val i.i.val) 2 ∨ a = Machine.oa (Machine.islObj i.die.val i.i.val) 6)

/-- Counts of the words that a reset of Tangent cells discards (R182, R203, R313). -/
def CellKeys (a : Nat) : Prop :=
  (∃ k, k < 128 ∧ a = Machine.oa (0xA100 + k) 7) ∨ ∃ h, h < 32 ∧ (a = Machine.oa (0x5300 + h) 4 ∨ a = Machine.oa (0x5320 + h) 4)

/-- Objects that an access which wakes a stack writes (R258, R537): STATE of a controller and of its pseudo-channels, its Annulus loop, and
what ended self-tests of its channels leave. -/
def WakeKeys (a : Nat) : Prop :=
  (∃ d, d < 2 ∧ a = Machine.oa (Machine.ctlObj d) 1) ∨ (∃ c, c < 64 ∧ a = Machine.oa (Machine.pcRec c) 1) ∨
  LoopKeys ⟨0, 2⟩ a ∨ LoopKeys ⟨1, 2⟩ a ∨ TestKeys a

/-- Tags in use, but those of `K`, stay with their requests, and engines, but those of `E`, keep everything but that their request has been
issued (R305). -/
def TagsMove (K E : Nat → Prop) (s t : Machine.State) : Prop :=
  (∀ k x, ¬ K k → s.host.tags.get (fun _ => none) k = some x → t.host.tags.get (fun _ => none) k = some x) ∧
  ∀ e, ¬ E e → t.eng e = { s.eng e with asked := (t.eng e).asked }

/-- The rails of an LU (R45, R55, R56): in DR mode exactly one rail is high while the latch holds a token and none while it holds none, the
outputs of a Muller cell are complements, and an MX LU never raises both grants. -/
def RailsOk (x : Machine.LuSt) : Prop :=
  match x.cfg with
  | none => True
  | some c =>
    (c.mode = 0 → (x.oF && x.oG) = false ∧ (x.oF || x.oG) = x.full) ∧
    (c.mode = 2 → x.oG = !x.oF) ∧
    (c.mode = 3 → (x.oF && x.oG) = false)

/-- The rails of every LU of the fabric, and of every LU of a snapshot image (R422). -/
def AllRailsOk (s : Machine.State) : Prop :=
  (∀ p ∈ s.fab.lus.cells, RailsOk p.2) ∧ ∀ c ∈ s.cfg.slots.cells, ∀ i ∈ c.2.images, ∀ p ∈ i.2.lus, RailsOk p.2

end Sys2Proof
end

