-- ==== Sys2Proof/WellFormed.lean ====
section
/-! DEFINITION. Which commands are well formed: those whose operands are what the protocol that carries them can carry. Operands that
their types already bound need no check; those that hold a list of words or octets are checked here. -/

namespace Sys2Proof

/-- A command's operands fit together: a write request has LEN + 1 data words (R235), a mailbox request at most 4,096 bytes (R301), a
host-to-device descriptor the LENGTH bytes it asks for (R309), an item the LEN bytes of its header (R486), a frame a byte at least, and a
trained link a width and a rate it can have (R294). -/
def Instr.wellFormed (i : Instr) : Bool :=
  match i with
  | .memoryWrite _ _ w data => Machine.dataWordsOk w data
  | .memoryWriteAck _ _ w data => Machine.dataWordsOk w data
  | .rxFrame _ f => !f.bytes.isEmpty
  | .mailboxWrite _ _ _ data _ => decide (data.length ≤ 4096)
  | .dmaDescriptorComplete _ d data _ _ => d.dataOk data
  | .linkTrainingDone width rate _ => Machine.linkOk width rate
  | .userObjectClientRequest _ header data => Machine.itemOk header data
  | .userObjectServerResponse _ header data => Machine.itemOk header data
  | .drCapture _ | .drEmpty _ | .joinedRequestRise _ | .bdCapture _ | .bdEmpty _ | .ceOutputChange _ | .mxGrant _
  | .mxGrantRelease _ | .resetCtrlWrite _ _ _ | .regionResetStart _ | .regionResetReload _ | .fenceSetUser _ _ _
  | .fenceClearUser _ _ _ | .borderChannelClose _ _ | .regionSettled _ | .quiesceTimeoutExpiry _
  | .relayStationTransfer _ _ _ _ | .bisectorSend _ _ | .bisectorReceive _ _ _ _ | .bisectorCreditReturn _ _
  | .prismOperation _ | .poolCmdRead _ _ _ | .poolCmdWrite _ _ | .poolSeqWrite _ _ | .poolSeqRead _ _ _ | .poolFifoWrite _
  | .poolFifoRead _ _ | .poolPair _ _ _ | .logStalled _ | .replayDecision _ | .replayStalled _ | .marginCheck _ _ _ _
  | .marginClear _ _ _ | .logQueueWrite _ _ _ | .replayQueueWrite _ _ _ | .siteModeWrite _ _ _ | .wordFifoFabricWrite _ _
  | .wordFifoIslandWrite _ _ | .valueFabricWrite _ _ | .valueReadRequest _ _ | .valueIslandWrite _ _ | .islandPulse _
  | .pulseReturnToggle _ | .fabricPulse _ | .countIslandEvent _ | .countFabricToken _ | .skew _ _ | .timeSiteRequest _
  | .pllStart _ | .pllLock _ | .pllLockTimeout _ | .pllIdleStop _ | .pllLockLost _ | .pllHoldoverExpiry _ | .islandWake _
  | .islandEnable _ _ _ | .islandReset _ _ _ | .aoClockFail | .rcTrim | .refclkLost | .refclkRestored | .offsetAdjust _ _
  | .timeSyncSend | .timeSync _ _ | .timeSyncLost | .locusTagWord _ _ _ | .locusItemWord _ _ _ | .locusRead _ _
  | .spillReturn _ _ | .idleTimeout _ _ | .handoff _ _ | .flush _ _ _ _ | .flushed _ _ | .memoryRead _ _ _
  | .memoryOpReserved _ _ _ | .requestAdmission _ _ | .pcCommandIssue _ _ _ | .ageExceeded _ _ | .perBankRefreshDue _ _
  | .refreshComplete _ _ | .refreshDebtLimit _ _ | .stackTempSample _ _ | .parityAlert _ _ | .parityReplay _ _
  | .stackTraining _ _ | .powerDownEntry _ _ | .selfRefreshEntry _ | .selfRefreshExit _ | .windowZeroing _ | .laneUp _
  | .laneDown _ _ | .portUp _ | .portDown _ | .remoteFault _ | .refclkLostRay _ | .txFrameStart _ _ | .txUnderrunError _
  | .rawRxWord _ _ | .rawFill _ | .rxSlip _ _ _ | .transmitStampRequest _ _ | .txTapWrite _ _ _ _ | .configurationRequest _ _
  | .mailboxRead _ _ _ _ | .mailboxOverlap _ | .mailboxDone _ | .apertureAccess _ _ _ _ _ | .completionArrival _
  | .completionTimeout _ | .dmaTail _ _ _ | .dmaRun _ _ _ _ | .dmaStop _ _ | .dmaRestart _ _ | .ringEnable _ _ _ _ _ _
  | .ringHead _ _ _ | .moderationWindowClose _ | .functionLevelResetPf _ | .domainReset _ _ _ | .flrDone _
  | .functionLevelResetVf _ _ | .functionLevelResetPf0 | .perstN | .hotReset | .linkLoss | .spdmMessage _ _ | .ideKm _ _
  | .ideFailure _ | .tdispMessage _ _ _ | .setSlotPowerLimit _ _ | .resourceClaim _ _ | .resourceRelease _ _
  | .railTrim _ _ _ | .regulatorFault _ _ _ | .overLimit _ | .railHop _ _ _ | .railHopDone _ | .thermalHop _
  | .meterCollection _ _ | .windowBoundary _ _ _ | .calibration _ _ | .resume _ _ _ | .reserveUjWrite _ _ | .plannerItemPost _
  | .plannerForced _ _ | .deadlineMissed _ | .plannerItemComplete _ _ _ _ | .powerStateStandby _ | .powerStateStandbyGated _
  | .powerStateRun _ | .deviceWake | .powerOnResetRelease _ | .powerOnResetAssert _ | .apexBoot _ _ | .fwGo _ _ _
  | .annulusRunning _ _ | .fullLoadCommit _ _ | .fetchLost _ _ _ | .startup | .doneTimeout | .accept _ _ _ | .acceptTimeout
  | .cfgProgN | .restart _ _ | .cfgStream _ _ | .loadGo _ _ _ | .partialStaging _ _ | .partialCommit _ _ _ | .scrubPassEnd _
  | .snapshot _ _ _ | .snapshotCopy _ _ _ | .rollback _ _ _ | .rollbackRestore _ _ _ | .keyDerivation _ _
  | .ecHashWrite _ _ _ _ | .mlHashWrite _ _ _ _ | .keyRevoked _ _ _ _ | .policyOtpWrite _ _ _ _ | .ownerCekBlobWrite _ _ _ _
  | .counterRetry _ _ | .nonce _ _ _ | .quoteReady _ | .tokenAppend _ _ _ | .tokenSubmit _ _ _ _ | .tokenDiscard _ _ _
  | .tokenRevoke _ _ _ | .tokenExpiry _ | .samplePreload _ | .idcode | .highz | .clamp | .extest _ | .dbgChallenge _
  | .dbgToken _ | .dbgStatus | .stateRead _ | .apexAccess | .rmaEnter | .bypass | .drbgReseed | .entropyFail _ | .tamper
  | .tamperAck _ _ | .apexWake _ | .apexIdle _ | .apexWatchdog _ | .objectWrite _ _ _ _ | .userTimeout _ | .assign _
  | .assignGo _ _ | .ringDetectTimeout | .kimbeLink _ _ | .odRead _ | .odWrite _ | .odResp _ | .eventFrame _ | .ping _
  | .kimbeFrameForward | .leaseSend | .lease _ _ _ | .tieLineRelease _ | .leaseLapsed _ | .splitHold _ | .primeSelect _ _ _
  | .vccioMeasurement _ _ | .funcWrite _ _ _ | .pinSettingWrite _ _ _ _ | .fabricOut _ _ | .fabricIn _ _ | .uartXfer _ _ _
  | .uartRxRead _ _ | .uartByteReceived _ _ | .i2cXfer _ _ _ | .spiXfer _ _ | .serialTransferComplete _ _ _
  | .pwmPeriodStart _ | .tscapEdge _ _ | .pinInterrupt _ _ | .coalesceWindowClose _ _ | .holdReleased _ | .testPost _ _ _
  | .testWithdraw _ _ _ | .testStart _ | .testDone _ _ | .testEndingRequest _ _ | .testDurationExpiry _ _ | .thermN _
  | .hardShutdown _ | .shutdownRecovery | .pllRelock _ | .aoCrystalReturn | .timeBaseTick _ | .rayRefclkPresent _
  | .remoteFaultCleared _ | .perstNRelease | .linkPowerStateChange _ | .cfgInitNRelease | .tamperNRelease | .rayFarNoLock _ _ => true

end Sys2Proof
end

