-- ==== Sys2Proof/Certificates/Slice0/Obligations.lean ====
section
/-! DEFINITION. Statements about the block for the provers: what each command does where its conditions hold, what it leaves unchanged,
and rules of the whole block. -/

open Sys2Proof Sys2Proof.Machine

/-! ### Logic Units, regions and fences -/

/-- R46 to R49, R51, R55: an LU whose conditions hold captures, empties, starts its matched delay or changes its output, and no other LU
changes. -/
def Obligations.LuCommandsComplete : Prop :=
  ∀ (u : LuLoc) (s : State) (c : LuCfg), (s.fab.lu (un u)).cfg = some c →
    (c.mode = 0 → s.canStart (rn ⟨u.die, u.region⟩) = true → (s.fab.lu (un u)).full = false → s.fab.ack (.lu (un u)) = false →
      s.fab.drValid (un u) c = true →
      Completes (.drCapture u) s (fun t =>
        let one := c.f.getLsbD (s.fab.index (un u) c) && !c.g.getLsbD (s.fab.index (un u) c)
        (t.fab.lu (un u)).full = true ∧ (t.fab.lu (un u)).oF = one ∧ (t.fab.lu (un u)).oG = !one
          ∧ LusKept s t (un u))) ∧
    (c.mode = 0 → s.active (rn ⟨u.die, u.region⟩) = true → (s.fab.lu (un u)).full = true → s.fab.ack (.lu (un u)) = true →
      s.fab.drRest (un u) c = true →
      Completes (.drEmpty u) s (fun t =>
        (t.fab.lu (un u)).full = false ∧ (t.fab.lu (un u)).oF = false ∧ (t.fab.lu (un u)).oG = false
          ∧ LusKept s t (un u))) ∧
    (c.mode = 1 → s.active (rn ⟨u.die, u.region⟩) = true → (s.fab.lu (un u)).joined = false → s.fab.requests (un u) c ≠ [] →
      (∀ b, b ∈ s.fab.requests (un u) c → b = true) →
      Completes (.joinedRequestRise u) s (fun t =>
        (t.fab.lu (un u)).joined = true ∧ (t.fab.lu (un u)).delay = true ∧ LusKept s t (un u))) ∧
    (c.mode = 1 → s.canStart (rn ⟨u.die, u.region⟩) = true → (s.fab.lu (un u)).joined = true → (s.fab.lu (un u)).delay = true →
      (s.fab.lu (un u)).full = false → s.fab.ack (.lu (un u)) = false →
      Completes (.bdCapture u) s (fun t =>
        (t.fab.lu (un u)).full = true ∧ (t.fab.lu (un u)).oF = c.f.getLsbD (s.fab.index (un u) c)
          ∧ (t.fab.lu (un u)).oG = c.g.getLsbD (s.fab.index (un u) c) ∧ LusKept s t (un u))) ∧
    (c.mode = 1 → s.active (rn ⟨u.die, u.region⟩) = true → (s.fab.lu (un u)).full = true → (s.fab.lu (un u)).joined = false →
      s.fab.ack (.lu (un u)) = true → (∀ b, b ∈ s.fab.requests (un u) c → b = false) →
      Completes (.bdEmpty u) s (fun t =>
        (t.fab.lu (un u)).full = false ∧ (t.fab.lu (un u)).joined = false ∧ (t.fab.lu (un u)).oF = (s.fab.lu (un u)).oF
          ∧ (t.fab.lu (un u)).oG = (s.fab.lu (un u)).oG ∧ LusKept s t (un u))) ∧
    (c.mode = 2 → s.active (rn ⟨u.die, u.region⟩) = true → ∀ b : Bool,
      c.f.getLsbD (s.fab.index (un u) c) = b → c.g.getLsbD (s.fab.index (un u) c) = !b → (s.fab.lu (un u)).oF = !b →
      Completes (.ceOutputChange u) s (fun t =>
        (t.fab.lu (un u)).oF = b ∧ (t.fab.lu (un u)).oG = !b ∧ LusKept s t (un u)))

/-- R56: an MX LU without a log grants a request that is high, alone or contested, never both; a grant falls with its request, and a
request pending at that moment is granted next. -/
def Obligations.MxCommandsComplete : Prop :=
  ∀ (u : LuLoc) (s : State) (c : LuCfg), (s.fab.lu (un u)).cfg = some c → c.mode = 3 →
    (c.arb = 0 → s.canStart (rn ⟨u.die, u.region⟩) = true → (s.fab.lu (un u)).oF = false → (s.fab.lu (un u)).oG = false →
      (s.fab.mxReq (un u) c 0 || s.fab.mxReq (un u) c 1) = true →
      Completes (.mxGrant u) s (fun t =>
        (t.fab.lu (un u)).oG = (!(t.fab.lu (un u)).oF)
          ∧ (s.fab.mxReq (un u) c 0 = false → (t.fab.lu (un u)).oG = true)
          ∧ (s.fab.mxReq (un u) c 1 = false → (t.fab.lu (un u)).oF = true)
          ∧ (∀ b, s.fab.mxReq (un u) c 0 = true → s.fab.mxReq (un u) c 1 = true → (s.fab.lu (un u)).turn = some b →
              (t.fab.lu (un u)).oG = b)
          ∧ LusKept s t (un u))) ∧
    (s.active (rn ⟨u.die, u.region⟩) = true → (s.fab.lu (un u)).oF = true → s.fab.mxReq (un u) c 0 = false →
      Completes (.mxGrantRelease u) s (fun t =>
        (t.fab.lu (un u)).oF = false ∧ (t.fab.lu (un u)).oG = false
          ∧ (s.fab.mxReq (un u) c 1 = true → (t.fab.lu (un u)).turn = some true) ∧ LusKept s t (un u))) ∧
    (s.active (rn ⟨u.die, u.region⟩) = true → (s.fab.lu (un u)).oF = false → (s.fab.lu (un u)).oG = true → s.fab.mxReq (un u) c 1 = false →
      Completes (.mxGrantRelease u) s (fun t =>
        (t.fab.lu (un u)).oF = false ∧ (t.fab.lu (un u)).oG = false
          ∧ (s.fab.mxReq (un u) c 0 = true → (t.fab.lu (un u)).turn = some false) ∧ LusKept s t (un u)))

/-- R69, R72, R73, R75, R76: requests on a fence by its owner set and clear the USER and RESET reasons of that region alone; a RUNNING
region starts to close, a close whose last reason goes is abandoned, and a fenced region whose last reason goes opens with event
0x0D02. -/
def Obligations.FenceRequestsComplete : Prop :=
  ∀ (q : Req) (r : Region) (s : State),
    (∀ force : Bool, s.writeAbort q (regObj (rn r)) 3 1 (1 + 4 * force.toNat) = 0 →
      Completes (.fenceSetUser q r force) s (fun t =>
        t.reasons (rn r) = setBit (s.reasons (rn r)) 0 ∧ (s.regState (rn r) = 2 → t.regState (rn r) = 3)
          ∧ ∀ m, m ≠ rn r → t.reasons m = s.reasons m)) ∧
    (∀ force : Bool, s.writeAbort q (regObj (rn r)) 3 1 (2 + 4 * force.toNat) = 0 →
      Completes (.fenceClearUser q r force) s (fun t =>
        t.reasons (rn r) = clrBit (s.reasons (rn r)) 0
          ∧ (s.regState (rn r) ≠ 3 ∨ s.reasons (rn r) ≠ 1 → ∀ m, m ≠ rn r → t.reasons m = s.reasons m)
          ∧ (s.regState (rn r) = 3 → s.reasons (rn r) = 1 → t.rd (regObj (rn r)) 0xA = 2)
          ∧ (s.regState (rn r) = 4 → s.reasons (rn r) = 1 →
              t.regState (rn r) = 2 ∧ Raises s t 0x0D02 1 0 (locRegion (rn r))))) ∧
    (∀ v : BitVec 8, s.writeAbort q (regObj (rn r)) 6 1 v.toNat = 0 → 2 ≤ s.regState (rn r) →
      s.rd (regObj (rn r)) 7 ≠ 1 → s.rd (regObj (rn r)) 7 ≠ 2 →
      Completes (.resetCtrlWrite q r v) s (fun t =>
        if s.slotRuns (rn r) then t.rd (regObj (rn r)) 7 = 1 ∧ ∀ m, t.reasons m = s.reasons m
        else t.rd (regObj (rn r)) 7 = 2 ∧ t.reasons (rn r) = setBit (s.reasons (rn r)) 4 ∧ ∀ m, m ≠ rn r → t.reasons m = s.reasons m))

/-- R69, R70, R73, R75, R77: the steps that the fence controller takes by itself: a waiting region reset starts, the fenced region whose
turn it is on its die reloads with event 0x0D06, a channel at rest closes, the last closing member of a set to settle fences them all with
event 0x0D01, and a close that has run for its quiesce timeout is abandoned or forced for every closing member. -/
def Obligations.FenceStepsComplete : Prop :=
  ∀ (r : Region) (s : State),
    (s.rd (regObj (rn r)) 7 = 1 → s.slotRuns (rn r) = false →
      Completes (.regionResetStart r) s (fun t =>
        t.rd (regObj (rn r)) 7 = 2 ∧ t.reasons (rn r) = setBit (s.reasons (rn r)) 4 ∧ ∀ m, m ≠ rn r → t.reasons m = s.reasons m)) ∧
    (s.rd (regObj (rn r)) 7 = 2 → s.regState (rn r) = 4 → s.resetTurn (rn r / 32) = some (rn r) →
      Completes (.regionResetReload r) s (fun t =>
        t.rd (regObj (rn r)) 7 = 3 ∧ Raises s t 0x0D06 1 0 (locRegion (rn r)))) ∧
    (∀ ch : BitVec 32, s.regState (rn r) = 3 → ch.toNat ∈ s.borderChannels (s.fab.fence (rn r)).members (rn r) →
      ch.toNat ∉ (s.fab.fence (rn r)).closed → s.chanAtRest ch.toNat = true →
      Completes (.borderChannelClose r ch) s (fun t =>
        ch.toNat ∈ (t.fab.fence (rn r)).closed ∧ t.regState (rn r) = 3
          ∧ ((∀ c, c ∈ s.borderChannels (s.fab.fence (rn r)).members (rn r) → c = ch.toNat ∨ c ∈ (s.fab.fence (rn r)).closed) →
              (t.fab.fence (rn r)).hold = true))) ∧
    (s.regState (rn r) = 3 → (s.fab.fence (rn r)).hold = true → (s.fab.fence (rn r)).settled = false → s.lusSettled (rn r) = true →
      Completes (.regionSettled r) s (fun t =>
        if ∀ m, m ∈ s.closingOf (s.fab.fence (rn r)).members → m = rn r ∨ (s.fab.fence m).settled = true then
          ∀ m, m ∈ s.closingOf (s.fab.fence (rn r)).members → t.regState m = 4 ∧ Raises s t 0x0D01 1 0 (locRegion m)
        else (t.fab.fence (rn r)).settled = true ∧ t.regState (rn r) = 3)) ∧
    (s.regState (rn r) = 3 → (s.fab.fence (rn r)).start + 1000 * (s.fab.fence (rn r)).timeout ≤ s.now →
      (s.fab.fence (rn r)).forcedClose = false →
      Completes (.quiesceTimeoutExpiry r) s (fun t =>
        ∀ m, m ∈ s.closingOf (s.fab.fence (rn r)).members →
          if (s.fab.fence (rn r)).force then
            (t.fab.fence m).hold = true ∧ (t.fab.fence m).forcedClose = true ∧ Raises s t 0x0D04 1 1 (locRegion m)
          else t.rd (regObj m) 0xA = 2 ∧ Raises s t 0x0D03 1 1 (locRegion m)))

/-! ### Arc and Bisector -/

/-- R95, R96, R101 to R104: a relay station takes the token that Span or the far station offers; a Bisector sender with credit accepts a
token and spends the credit; the receiver buffers the oldest word in flight, with POISON set, counted and reported where the transfer was
not correctable; a returned credit is the sender's again. -/
def Obligations.RoutingCompletes : Prop :=
  (∀ (r : Region) (side : Fin 4) (seg : Fin 32) (s : State) (far : Nat × Nat) (w : Word) (f : FabSt),
    arcFar (rn r) side.val = some far → (s.fab.driveOf (rn r) side.val).testBit seg.val = true →
    s.fab.arcTx.get (fun _ => none) (arcKey (rn r) side.val seg.val) = none → s.active (rn r) = true →
    s.chanClosed (rn r) (chanId 1 (rn r) side.val 0 seg.val) = false →
    s.fab.take (sinkArc (rn r) side.val seg.val) = some (w, f) →
    Completes (.relayStationTransfer r side seg false) s (fun t =>
      t.fab.arcTx.get (fun _ => none) (arcKey (rn r) side.val seg.val) = some w)) ∧
  (∀ (r : Region) (side : Fin 4) (seg : Fin 32) (s : State) (m side' : Nat) (w : Word),
    arcFar (rn r) side.val = some (m, side') → (s.fab.driveOf m side').testBit seg.val = true →
    s.fab.arcTx.get (fun _ => none) (arcKey m side' seg.val) = some w →
    s.fab.arcRx.get (fun _ => none) (arcKey (rn r) side.val seg.val) = none → s.active m = true →
    (s.paceTake m).isSome = true →
    Completes (.relayStationTransfer r side seg true) s (fun t =>
      t.fab.arcTx.get (fun _ => none) (arcKey m side' seg.val) = none
        ∧ t.fab.arcRx.get (fun _ => none) (arcKey (rn r) side.val seg.val) = some w)) ∧
  (∀ (east : Bool) (ch : Fin 64) (s : State) (w : Word) (f : FabSt),
    0 < (s.fab.bisCh (bisNum east ch.val)).credit → s.active (bisSender east ch.val).1 = true →
    s.chanClosed (bisSender east ch.val).1 (chanId 2 (bisSender east ch.val).1 (bisSender east ch.val).2.1 0 ch.val) = false →
    s.fab.take (sinkArc (bisSender east ch.val).1 (bisSender east ch.val).2.1 (bisSender east ch.val).2.2) = some (w, f) →
    (({ s with fab := f } : State).paceTake (bisSender east ch.val).1).isSome = true →
    Completes (.bisectorSend east ch) s (fun t =>
      (t.fab.bisCh (bisNum east ch.val)).credit = (f.bisCh (bisNum east ch.val)).credit - 1
        ∧ (t.fab.bisCh (bisNum east ch.val)).flight = (f.bisCh (bisNum east ch.val)).flight ++ [w])) ∧
  (∀ (east : Bool) (ch : Fin 64) (ecc : Ecc) (got : Word) (s : State) (w : Word) (rest : List Word),
    (s.fab.bisCh (bisNum east ch.val)).flight = w :: rest →
    Completes (.bisectorReceive east ch ecc got) s (fun t =>
      (t.fab.bisCh (bisNum east ch.val)).flight = rest
        ∧ (t.fab.bisCh (bisNum east ch.val)).credit = (s.fab.bisCh (bisNum east ch.val)).credit
        ∧ (t.fab.bisCh (bisNum east ch.val)).buf = (s.fab.bisCh (bisNum east ch.val)).buf
            ++ [if ecc = .uncorrectable then { got with poison := true } else w]
        ∧ t.rd 0xC200 3 = (if ecc = .corrected then min (s.rd 0xC200 3 + 1) (2 ^ 32 - 1) else s.rd 0xC200 3)
        ∧ t.rd 0xC200 4 = (if ecc = .uncorrectable then min (s.rd 0xC200 4 + 1) (2 ^ 32 - 1) else s.rd 0xC200 4)
        ∧ (ecc = .uncorrectable → Raises s t 0x0D07 1 2 (locRegion (bisReceiver east ch.val).1)))) ∧
  (∀ (east : Bool) (ch : Fin 64) (s : State), 0 < (s.fab.bisCh (bisNum east ch.val)).creditFlight →
    Completes (.bisectorCreditReturn east ch) s (fun t =>
      (t.fab.bisCh (bisNum east ch.val)).credit = (s.fab.bisCh (bisNum east ch.val)).credit + 1
        ∧ (t.fab.bisCh (bisNum east ch.val)).creditFlight = (s.fab.bisCh (bisNum east ch.val)).creditFlight - 1))

/-! ### Prism and Pool -/

/-- R118 to R129: a Prism that is at rest, passes its check and finds a token on every channel that its next entry uses performs the
operation of that entry on those tokens: registers, ACC, M, result tokens and sequence index are those of the operation. A flag token whose
acknowledge is high at once may be gone already. -/
def Obligations.PrismCompletes : Prop :=
  ∀ (c : Clu) (s : State) (g : PrismCfg) (i : Nat) (cPoison : Bool) (f f1 : FabSt) (ws : List (Nat × Word)),
    (s.fab.prism (cn c)).cfg = some g → s.canStart (rn ⟨c.die, c.region⟩) = true → prismFault g = none →
    s.fab.prismRest (cn c) g = true → s.fab.prismEntry (cn c) g = some (i, cPoison, f) →
    f.takeAll ((chansUsed (g.entry i)).map (sinkCluster (cn c))) = some (ws, f1) →
    Completes (.prismOperation c) s (fun t =>
      let x := (f1.prism (cn c)).operate g (g.entry i) (ws.map (fun p => (p.1 % 9, p.2))) cPoison
      { t.fab.prism (cn c) with flags := [] } = { x with flags := [] }
          ∧ (∀ p, p ∈ (t.fab.prism (cn c)).flags → p ∈ x.flags) ∧ t.od = s.od)

/-- R131 to R133, R136, R138: an access of an unpaired Pool port whose tokens wait is served: a read puts the stored word in the port's
read channel and leaves the contents as they were, a write stores its word, and a sequential write moves the pointer, which a sequential read
leaves where it is until its token is taken; a write command is latched until its data token comes. -/
def Obligations.PoolPortsComplete : Prop :=
  ∀ (c : Clu) (p : Fin 2) (s : State) (ctrl : Nat), s.poolCtrl (cn c) = some ctrl → poolPairBit ctrl = false →
    s.fab.poolRest (cn c) p.val ctrl = true →
    (∀ (a : PoolAcc) (f : FabSt) (ecc : Ecc), poolMode ctrl p.val = 1 → s.fab.poolNext (cn c) p.val ctrl = some (some a, f) → a.data = none →
      Completes (.poolCmdRead c p ecc) s (fun t =>
        (∃ o, (t.fab.pool (cn c)).latch p.val = some (readToken ((s.fab.pool (cn c)).word a.addr) a ecc o))
          ∧ (t.fab.pool (cn c)).data = (f.pool (cn c)).data)) ∧
    (∀ (a : PoolAcc) (f : FabSt) (w : Word), poolMode ctrl p.val = 1 → s.fab.poolNext (cn c) p.val ctrl = some (some a, f) → a.data = some w →
      Completes (.poolCmdWrite c p) s (fun t =>
        ∀ b, (t.fab.pool (cn c)).word b =
          if a.inWin = true ∧ b = a.addr then { w with poison := w.poison || a.poison } else (f.pool (cn c)).word b)) ∧
    (∀ f : FabSt, poolMode ctrl p.val = 1 → s.fab.poolNext (cn c) p.val ctrl = some (none, f) →
      Completes (.poolCmdWrite c p) s (fun t => t.fab = f)) ∧
    (∀ (a : PoolAcc) (f : FabSt) (w : Word), poolMode ctrl p.val = 2 → s.fab.poolNext (cn c) p.val ctrl = some (some a, f) → a.data = some w →
      Completes (.poolSeqWrite c p) s (fun t =>
        (t.fab.pool (cn c)).ptr p.val = (seqAdvance ctrl p.val ((f.pool (cn c)).ptr p.val) w.last).1
          ∧ ∀ b, (t.fab.pool (cn c)).word b =
              if b = a.addr then { w with poison := w.poison || a.poison } else (f.pool (cn c)).word b)) ∧
    (∀ (ecc : Ecc), poolMode ctrl p.val = 3 → (s.fab.pool (cn c)).latch p.val = none →
      Completes (.poolSeqRead c p ecc) s (fun t =>
        ∃ w o, (t.fab.pool (cn c)).latch p.val = some w
          ∧ w = readToken ((s.fab.pool (cn c)).word ((s.fab.pool (cn c)).ptr p.val))
              { addr := (s.fab.pool (cn c)).ptr p.val, data := none, poison := false, inWin := true } ecc o
          ∧ (t.fab.pool (cn c)).ptr p.val = (s.fab.pool (cn c)).ptr p.val
          ∧ (t.fab.pool (cn c)).data = (s.fab.pool (cn c)).data))

/-- R131, R133, R136: a Pool FIFO takes a word at its tail while it is not full and presents the word at its head, which stays
until its token is taken; the accesses of a pair are
served together, reads returning what the Pool held before the pair and port 1's data standing where both ports write one address. -/
def Obligations.PoolFifoAndPairsComplete : Prop :=
  ∀ (c : Clu) (s : State) (ctrl : Nat), s.poolCtrl (cn c) = some ctrl →
    (∀ (w : Word) (f : FabSt), poolMode ctrl 0 = 4 → s.fab.poolRest (cn c) 0 ctrl = true → (s.fab.pool (cn c)).fifoLen < fifoCap ctrl →
      s.fab.take (sinkCluster (cn c) 3) = some (w, f) →
      Completes (.poolFifoWrite c) s (fun t =>
        (t.fab.pool (cn c)).fifoLen = (f.pool (cn c)).fifoLen + 1
          ∧ (t.fab.pool (cn c)).word
              (poolBase ctrl 0 + ((s.fab.pool (cn c)).fifoHead + (s.fab.pool (cn c)).fifoLen) % fifoCap ctrl) = w)) ∧
    (∀ ecc : Ecc, poolMode ctrl 0 = 4 → s.fab.poolRest (cn c) 1 ctrl = true → 0 < (s.fab.pool (cn c)).fifoLen →
      (s.fab.pool (cn c)).read1 = none →
      Completes (.poolFifoRead c ecc) s (fun t =>
        (t.fab.pool (cn c)).fifoLen = (s.fab.pool (cn c)).fifoLen
          ∧ (ecc ≠ .uncorrectable →
              (t.fab.pool (cn c)).read1 = some ((s.fab.pool (cn c)).word (poolBase ctrl 0 + (s.fab.pool (cn c)).fifoHead)))
          ∧ (ecc = .uncorrectable → ∃ w, (t.fab.pool (cn c)).read1 = some w ∧ w.poison = true))) ∧
    (∀ (a0 a1 : PoolAcc) (f0 f1 : FabSt) (e0 e1 : Ecc), poolPairBit ctrl = true → poolMode ctrl 0 < 4 →
      s.fab.poolRest (cn c) 0 ctrl = true → s.fab.poolRest (cn c) 1 ctrl = true →
      s.fab.poolNext (cn c) 0 ctrl = some (some a0, f0) → f0.poolNext (cn c) 1 ctrl = some (some a1, f1) →
      (∀ f, s.fab.poolNext (cn c) 1 ctrl ≠ some (none, f)) →
      Completes (.poolPair c e0 e1) s (fun t =>
        (t.fab.pool (cn c)).pairs = (f1.pool (cn c)).pairs + 1
          ∧ (a0.data = none → ∃ o, (t.fab.pool (cn c)).read0 = some (readToken ((f1.pool (cn c)).word a0.addr) a0 e0 o))
          ∧ (a1.data = none → ∃ o, (t.fab.pool (cn c)).read1 = some (readToken ((f1.pool (cn c)).word a1.addr) a1 e1 o))
          ∧ ∀ w, a1.data = some w → a1.inWin = true →
              (t.fab.pool (cn c)).word a1.addr = { w with poison := w.poison || a1.poison }))

/-! ### Choice points, streams and delay margins -/

/-- R149, R155, R158, R159: an MX LU whose choices are logged grants once its record has been accepted by the log queue, and grants nothing
while the queue cannot take it; one that replays grants the logged request once it is high. -/
def Obligations.MxChoicesComplete : Prop :=
  ∀ (u : LuLoc) (s : State) (c : LuCfg), (s.fab.lu (un u)).cfg = some c → c.mode = 3 →
    s.canStart (rn ⟨u.die, u.region⟩) = true → (s.fab.lu (un u)).oF = false → (s.fab.lu (un u)).oG = false →
    (∀ b : Bool, c.arb = 1 → s.fab.mxReq (un u) c 0 = (!b) → s.fab.mxReq (un u) c 1 = b →
      Completes (.mxGrant u) s (fun t =>
        match s.logPut (rn ⟨u.die, u.region⟩) 1 (locUnit (un u)) b.toNat with
        | some x => (t.fab.lu (un u)).oG = b ∧ (t.fab.lu (un u)).oF = !b ∧ t.od = x.od ∧ t.loc = x.loc
        | none => t.fab.lus = s.fab.lus)) ∧
    (∀ v : Nat, c.arb = 2 → s.decision (rn ⟨u.die, u.region⟩) 1 (locUnit (un u)) = some v →
      s.fab.mxReq (un u) c (v % 2) = true →
      Completes (.mxGrant u) s (fun t =>
        (t.fab.lu (un u)).oG = decide (v % 2 = 1) ∧ (t.fab.lu (un u)).oF = decide (v % 2 = 0)))

/-- R157, R158, R161: a stream stalled for 1 ms raises event 0x0D11; the record at the head of a replay queue is handed to the choice point
it names, and one that names none, or whose SEQ is not the next, stops the stream with event 0x0D13; a record that waits too long raises
event 0x0D14. -/
def Obligations.StreamCommandsComplete : Prop :=
  ∀ (st : Stream) (s : State),
    (∀ kind since : Nat, (s.stream (streamKey st)).stalledAt = some (kind, since) → since + 1000000 ≤ s.now →
      (s.stream (streamKey st)).stallRaised = false →
      Completes (.logStalled st) s (fun t =>
        (t.stream (streamKey st)).stallRaised = true
          ∧ Raises s t 0x0D11 (streamIndex (streamKey st)).1 1 (streamIndex (streamKey st)).2)) ∧
    (∀ w : Nat, s.replaying (streamKey st) = true → (s.stream (streamKey st)).stopped = false →
      (s.stream (streamKey st)).repFailed = false → (s.stream (streamKey st)).ready = none →
      (s.stream (streamKey st)).epochRead = true → s.replayPeek (streamKey st) = some w →
      Completes (.replayDecision st) s (fun t =>
        if s.namesPoint (streamKey st) w = true ∧ recSeq w = seqOf (s.stream (streamKey st)).rseqs (recSource w) % 2 ^ 24
            ∧ s.readsPassed (streamKey st) w = false then
          (t.stream (streamKey st)).ready = some (readyKey (recKind w) (recSource w), recDecision w)
        else (t.stream (streamKey st)).stopped = true
          ∧ Raises s t 0x0D13 (streamIndex (streamKey st)).1 2 (streamIndex (streamKey st)).2)) ∧
    (∀ key v since : Nat, (s.stream (streamKey st)).ready = some (key, v) → (s.stream (streamKey st)).headSince = some since →
      (s.stream (streamKey st)).headRaised = false → since + s.replayTimeout (streamKey st) < s.now →
      Completes (.replayStalled st) s (fun t =>
        (t.stream (streamKey st)).headRaised = true ∧ (t.stream (streamKey st)).ready = some (key, v)
          ∧ Raises s t 0x0D14 (streamIndex (streamKey st)).1 1 (streamIndex (streamKey st)).2))

/-- R163, R164, R166, R417: at a check point, 10 µs after the last, a passing check records its time, and the sixteenth in a row after a breach makes MARGIN_STATE 2; the first
failing check after a passing one makes it 1, taints the region, raises event 0x0D10 and, under MARGIN_POLICY 1, sets MARGIN. R166, R169,
R208: accepted writes of the determinism objects: MARGIN_CLEAR in MARGIN_STATE 2 clears MARGIN and returns to 0; a log queue is named, and
no PRODUCER changes; a replay queue is named and bound as the stream's, and the one named before unbound; SITE_MODE takes the value
written. -/
def Obligations.MarginAndDeterminismComplete : Prop :=
  (∀ (r : Region) (stepPs pathPs : Nat) (ok : Bool) (s : State), s.monitored (rn r) = true → s.checkDue (rn r) = true →
    (marginReason (s.rd (enObj (rn r)) 2) stepPs pathPs ok = 0 →
      Completes (.marginCheck r stepPs pathPs ok) s (fun t =>
        t.rd (detObj (rn r)) 0xA = s.now
          ∧ t.rd (detObj (rn r)) 8 =
              (if s.rd (detObj (rn r)) 8 = 1 ∧ 15 ≤ s.fab.marginPasses.get (fun _ => 0) (rn r) then 2 else s.rd (detObj (rn r)) 8)
          ∧ t.out = s.out)) ∧
    (marginReason (s.rd (enObj (rn r)) 2) stepPs pathPs ok ≠ 0 →
      (s.rd (detObj (rn r)) 8 ≠ 1 ∨ s.fab.marginPasses.get (fun _ => 0) (rn r) ≠ 0) →
      Completes (.marginCheck r stepPs pathPs ok) s (fun t =>
        t.rd (detObj (rn r)) 8 = 1 ∧ t.rd (intObj (rn r)) 3 = 1 ∧ t.rd (detObj (rn r)) 0xA = s.rd (detObj (rn r)) 0xA
          ∧ t.reasons (rn r) = (if s.rd (detObj (rn r)) 7 = 1 then setBit (s.reasons (rn r)) 6 else s.reasons (rn r))
          ∧ Raises s t 0x0D10 1 2 (locRegion (rn r)))) ∧
    (marginReason (s.rd (enObj (rn r)) 2) stepPs pathPs ok ≠ 0 → s.rd (detObj (rn r)) 8 = 1 →
      s.fab.marginPasses.get (fun _ => 0) (rn r) = 0 →
      Completes (.marginCheck r stepPs pathPs ok) s (fun t =>
        t.rd (detObj (rn r)) 8 = 1 ∧ t.out = s.out ∧ t.reasons (rn r) = s.reasons (rn r)))) ∧
  (∀ (q : Req) (r : Region) (s : State),
    (∀ v : BitVec 8, s.writeAbort q (detObj (rn r)) 9 1 v.toNat = 0 → s.rd (detObj (rn r)) 8 = 2 →
      Completes (.marginClear q r v) s (fun t =>
        t.rd (detObj (rn r)) 8 = 0 ∧ t.reasons (rn r) = clrBit (s.reasons (rn r)) 6)) ∧
    (∀ v : BitVec 16, s.writeAbort q (detObj (rn r)) 1 2 v.toNat = 0 →
      Completes (.logQueueWrite q r v) s (fun t =>
        t.rd (detObj (rn r)) 1 = v.toNat ∧ ∀ k, k < 512 → t.qo (rn r / 32) k 3 = s.qo (rn r / 32) k 3)) ∧
    (∀ (st : Stream) (v : BitVec 16), s.writeAbort q (replayObj (streamKey st)).1 (replayObj (streamKey st)).2 2 v.toNat = 0 →
      Completes (.replayQueueWrite q st v) s (fun t =>
        t.replayQueue (streamKey st) = v.toNat ∧ (v.toNat < 512 → t.qo (s.streamDie (streamKey st)) v.toNat 4 = 0x5000)
          ∧ ∀ old, s.replayQueue (streamKey st) = old → old < 512 → old ≠ v.toNat → kindOf (s.qo (s.streamDie (streamKey st)) old 4) = 5 →
              t.qo (s.streamDie (streamKey st)) old 4 = 0)) ∧
    (∀ v : BitVec 8, s.writeAbort q (detObj (rn r)) 3 1 v.toNat = 0 →
      Completes (.siteModeWrite q r v) s (fun t => t.rd (detObj (rn r)) 3 = v.toNat)))

/-! ### Tangent cells, clocks and device time -/

/-- R174 to R176, R195: words cross. A fabric-to-island WORD FIFO with room takes a word; a user island's word whose valid signal is up
enters the cell in order, or is dropped, counted and reported where the site holds 16; a memory port's response enters its cell while that has
room; a VALUE writer's bits become the held value; a VALUE reader is answered. -/
def Obligations.WordCrossingsComplete : Prop :=
  ∀ (site : Site) (s : State) (w : Word),
    (∀ t t1 : State, s.siteType site = 0 → s.cellOn site false = true → (s.cellAt (siteNum site)).fifo.length < 16 →
      s.siteTake (siteRegion site) (siteSlot site) w = some t → t.enterIsland site (siteChan site 0) = some t1 →
      Completes (.wordFifoFabricWrite site w) s (fun u =>
        (u.cellAt (siteNum site)).fifo = (s.cellAt (siteNum site)).fifo ++ [w] ∧ u.od = t1.od)) ∧
    (∀ (d : Fin 2) (k : Fin 64), site = .user d k → s.siteType site = 0 → s.cellOn site true = true → s.islandValid site w = true →
      (s.fab.siteOut.get (fun _ => []) (siteRegion site * 16 + siteSlot site)).length < 16 →
      Completes (.wordFifoIslandWrite site w) s (fun u =>
        u.fab.siteOut.get (fun _ => []) (siteRegion site * 16 + siteSlot site) =
          s.fab.siteOut.get (fun _ => []) (siteRegion site * 16 + siteSlot site) ++ [s.islandWord site w])) ∧
    (∀ (d : Fin 2) (k : Fin 64), site = .user d k → s.siteType site = 0 → s.cellOn site true = true → s.islandValid site w = true →
      16 ≤ (s.fab.siteOut.get (fun _ => []) (siteRegion site * 16 + siteSlot site)).length →
      Completes (.wordFifoIslandWrite site w) s (fun u =>
        u.fab.siteOut = s.fab.siteOut ∧ u.rd (siteObj d.val k.val) 6 = min (s.rd (siteObj d.val k.val) 6 + 1) (2 ^ 32 - 1)
          ∧ Raises s u 0x0B05 2 2 (siteChan site 1))) ∧
    (∀ (d : Fin 2) (p : Fin 32) (rest : List Word), site = .memory d p → s.cellOn site true = true →
      (s.mport (64 * d.val + p.val)).resp = w :: rest → (s.mport (64 * d.val + p.val)).slots = [] →
      (s.fab.siteOut.get (fun _ => []) (siteRegion site * 16 + siteSlot site)).length < 16 →
      Completes (.wordFifoIslandWrite site w) s (fun u =>
        ∃ l, u.fab.siteOut.get (fun _ => []) (siteRegion site * 16 + siteSlot site) =
          s.fab.siteOut.get (fun _ => []) (siteRegion site * 16 + siteSlot site) ++ w :: l)) ∧
    (∀ t t1 : State, s.siteType site = 1 → s.cellOn site false = true →
      s.siteTake (siteRegion site) (siteSlot site) w = some t → t.enterIsland site (siteChan site 0) = some t1 →
      Completes (.valueFabricWrite site w) s (fun u =>
        (u.cellAt (siteNum site)).value = BitVec.ofNat 128 (w.data.toNat % s.siteBits site))) ∧
    (∀ (d : Fin 2) (k : Fin 64) (t t1 : State), site = .user d k → s.siteType site = 1 → s.cellOn site true = true →
      s.fab.siteOut.get (fun _ => []) (siteRegion site * 16 + readSlot site) = [] →
      s.siteTake (siteRegion site) (readSlot site) w = some t →
      t.cycleDecide (siteRegion site) (chanId 3 (siteRegion site) 0 0 (readSlot site)) = some t1 →
      Completes (.valueReadRequest site w) s (fun u =>
        u.fab.siteOut.get (fun _ => []) (siteRegion site * 16 + readSlot site) =
          t1.fab.siteOut.get (fun _ => []) (siteRegion site * 16 + readSlot site) ++ [replyWord (s.heldValue site)])) ∧
    (∀ (c : Fin 40) (t t1 : State) (v : Nat), site = .pin c → s.cellOn site true = true →
      s.fab.siteOut.get (fun _ => []) (siteRegion site * 16 + readSlot site) = [] →
      s.siteTake (siteRegion site) (readSlot site) w = some t →
      t.siteDecide (siteRegion site) 3 (chanId 3 (siteRegion site) 0 0 (readSlot site)) (s.heldValue site) = some (v, t1) →
      Completes (.valueReadRequest site w) s (fun u =>
        u.fab.siteOut.get (fun _ => []) (siteRegion site * 16 + readSlot site) =
          t1.fab.siteOut.get (fun _ => []) (siteRegion site * 16 + readSlot site) ++ [replyWord v])) ∧
    (∀ (v : BitVec 128) (c : Fin 40), site = .pin c → s.cellOn site true = true →
      Completes (.valueIslandWrite site v) s (fun u => u.rd (pinObj c.val) 7 = v.toNat % 2)) ∧
    (∀ (v : BitVec 128) (d : Fin 2) (k : Fin 64), site = .user d k → s.siteType site = 1 → s.cellOn site true = true →
      Completes (.valueIslandWrite site v) s (fun u =>
        (u.cellAt (siteNum site)).value = BitVec.ofNat 128 (v.toNat % s.siteBits site)))

/-- R177, R178, R180, R184, R187: events cross. A pulse inverts the source toggle or merges into the pending event; the return toggle ends
the event; counts move modulo 64, and an event beyond 63 outstanding is dropped and reported; a SKEW resets the cell and is counted; a
TIME request waits for a tick. -/
def Obligations.EventCrossingsComplete : Prop :=
  ∀ (d : Fin 2) (k : Fin 64) (s : State),
    (s.siteType (.user d k) = 2 → s.cellOn (.user d k) true = true → s.pulseFed (.user d k) = true →
      Completes (.islandPulse (.user d k)) s (fun u =>
        (u.cellAt (siteNum (.user d k))).srcToggle = (!(u.cellAt (siteNum (.user d k))).retToggle)
          ∧ ((s.cellAt (siteNum (.user d k))).srcToggle ≠ (s.cellAt (siteNum (.user d k))).retToggle →
              u.rd (siteObj d.val k.val) 5 = min (s.rd (siteObj d.val k.val) 5 + 1) 255
                ∧ (s.rd (siteObj d.val k.val) 5 = 0 → Raises s u 0x0B04 2 1 (bitChan (.user d k) 1))))) ∧
    (∀ t : State, s.siteType (.user d k) = 2 → s.cellOn (.user d k) true = true →
      (s.cellAt (siteNum (.user d k))).srcToggle ≠ (s.cellAt (siteNum (.user d k))).retToggle →
      (s.cellAt (siteNum (.user d k))).presented = true →
      s.fab.bitOut (siteRegion (.user d k)) (siteSlot (.user d k) + 14) = false →
      s.fab.ack (.site (siteRegion (.user d k)) (siteSlot (.user d k) + 14)) = false →
      s.cycleDecide (siteRegion (.user d k)) (bitChan (.user d k) 1) = some t →
      Completes (.pulseReturnToggle (.user d k)) s (fun u =>
        (u.cellAt (siteNum (.user d k))).srcToggle = (u.cellAt (siteNum (.user d k))).retToggle)) ∧
    (∀ t : State, s.siteType (.user d k) = 2 → s.cellOn (.user d k) true = false → s.cellOn (.user d k) false = true →
      (s.cellAt (siteNum (.user d k))).srcToggle ≠ (s.cellAt (siteNum (.user d k))).retToggle →
      s.bitTake (siteRegion (.user d k)) (siteSlot (.user d k) + 14) = some t →
      Completes (.pulseReturnToggle (.user d k)) s (fun u =>
        (u.cellAt (siteNum (.user d k))).srcToggle = (u.cellAt (siteNum (.user d k))).retToggle)) ∧
    (∀ t t1 : State, s.siteType (.user d k) = 2 → s.cellOn (.user d k) false = true →
      (s.cellAt (siteNum (.user d k))).srcToggle = (s.cellAt (siteNum (.user d k))).retToggle →
      s.bitTake (siteRegion (.user d k)) (siteSlot (.user d k) + 14) = some t → s.enterIsland (.user d k) (bitChan (.user d k) 0) = some t1 →
      Completes (.fabricPulse (.user d k)) s (fun u =>
        (u.cellAt (siteNum (.user d k))).srcToggle = (!(s.cellAt (siteNum (.user d k))).srcToggle)
          ∧ (u.cellAt (siteNum (.user d k))).delivered = (s.cellAt (siteNum (.user d k))).delivered + 1)) ∧
    (s.siteType (.user d k) = 3 → s.cellOn (.user d k) true = true → s.pulseFed (.user d k) = true →
      Completes (.countIslandEvent (.user d k)) s (fun u =>
        if ((s.cellPresent (.user d k)).cellAt (siteNum (.user d k))).outstanding = 63 then
          u.rd (siteObj d.val k.val) 6 = min (s.rd (siteObj d.val k.val) 6 + 1) (2 ^ 32 - 1)
            ∧ Raises s u 0x0B05 2 2 (bitChan (.user d k) 1)
        else (u.cellAt (siteNum (.user d k))).written = ((s.cellAt (siteNum (.user d k))).written + 1) % 64)) ∧
    (∀ t t1 : State, s.siteType (.user d k) = 3 → s.cellOn (.user d k) false = true →
      (s.cellAt (siteNum (.user d k))).outstanding < 63 →
      s.bitTake (siteRegion (.user d k)) (siteSlot (.user d k) + 14) = some t → t.enterIsland (.user d k) (bitChan (.user d k) 0) = some t1 →
      Completes (.countFabricToken (.user d k)) s (fun u =>
        (u.cellAt (siteNum (.user d k))).written = ((s.cellAt (siteNum (.user d k))).written + 1) % 64)) ∧
    (∀ half : Bool, (s.cellAt (siteNum (.user d k))).epochF = (s.cellAt (siteNum (.user d k))).epochI →
      Completes (.skew (.user d k) half) s (fun u =>
      (u.cellAt (siteNum (.user d k))).fifo = [] ∧ (u.cellAt (siteNum (.user d k))).value = 0
        ∧ (u.cellAt (siteNum (.user d k))).epochF = (u.cellAt (siteNum (.user d k))).epochI
        ∧ u.rd (siteObj d.val k.val) 4 = 1 ∧ u.rd (siteObj d.val k.val) 8 = min (s.rd (siteObj d.val k.val) 8 + 1) (2 ^ 32 - 1)
        ∧ u.rd (siteObj d.val k.val) 7 = min (s.rd (siteObj d.val k.val) 7 + s.cellTokens (.user d k)) (2 ^ 32 - 1)
        ∧ Raises s u 0x0B03 2 2 (if s.siteType (.user d k) < 2 then siteChan (.user d k) (s.siteDir (.user d k))
            else bitChan (.user d k) (s.siteDir (.user d k))))) ∧
    (∀ (r : Region) (t : State), rn r ∉ s.dev.timeWaiters → s.fab.siteOut.get (fun _ => []) (rn r * 16 + 13) = [] →
      s.siteTakeAny (rn r) 13 = some t →
      Completes (.timeSiteRequest r) s (fun u => rn r ∈ u.dev.timeWaiters))

/-- R191 to R194: a loop whose die's VCL rail is sound starts on demand, locks within 20 µs while it has a reference, tries once more and
then fails with event 0x0B01, stops after IDLE_STOP, holds over a loss of lock, and then runs on or is started again with event 0x0B02; a
token offered to a stopped island starts its loop. -/
def Obligations.LoopsComplete : Prop :=
  ∀ (l : Loop) (s : State),
    (s.dev.por = false → (l.n.val ≠ 0 ∨ l.die.val ≠ 1) → (s.rd (loopObj l) 2 = 0 ∨ s.rd (loopObj l) 2 = 4) →
      s.loopActive l = true → s.loopTested l = false → s.rd (railObj (4 * l.die.val + 3)) 5 ≠ 2 →
      Completes (.pllStart l) s (fun t => t.rd (loopObj l) 2 = 1 ∧ (t.loop l).startedAt = s.now)) ∧
    (s.rd (loopObj l) 2 = 1 → s.now < (s.loop l).startedAt + 20000 → s.loopRef (16 * l.die.val + l.n.val) = true →
      Completes (.pllLock l) s (fun t =>
        t.rd (loopObj l) 2 = 2 ∧ t.rd (loopObj l) 7 = s.now - (s.loop l).startedAt
          ∧ ∀ i, loopIsland l = some i → s.loopTested l = false → t.rd (islObj i.die.val i.i.val) 2 = 2)) ∧
    (s.loopTested l = false → s.rd (loopObj l) 2 = 1 → (s.loop l).startedAt + 20000 ≤ s.now →
      Completes (.pllLockTimeout l) s (fun t =>
        if (s.loop l).retried then t.rd (loopObj l) 2 = 4 ∧ Raises s t 0x0B01 1 2 (locDie l.die.val)
        else t.rd (loopObj l) 2 = 1 ∧ (t.loop l).retried = true ∧ (t.loop l).startedAt = s.now)) ∧
    (∀ since : Nat, (s.loop l).idleSince = some since → s.loopTested l = false → l.n.val < 5 → s.rd (loopObj l) 2 = 2 →
      s.loopActive l = false → s.rd (loopObj l) 6 ≠ 0 → since + 1000 * s.rd (loopObj l) 6 ≤ s.now →
      Completes (.pllIdleStop l) s (fun t => t.rd (loopObj l) 2 = 0 ∧ t.rd (loopObj l) 3 = 0xFF)) ∧
    (s.loopTested l = false → s.rd (loopObj l) 2 = 2 →
      Completes (.pllLockLost l) s (fun t =>
        t.rd (loopObj l) 2 = 3 ∧ t.rd (loopObj l) 8 = min (s.rd (loopObj l) 8 + 1) (2 ^ 32 - 1) ∧ (t.loop l).lostAt = s.now
          ∧ ∀ i, loopIsland l = some i → t.rd (islObj i.die.val i.i.val) 2 = 3)) ∧
    (s.rd (loopObj l) 2 = 3 → s.now < (s.loop l).lostAt + 100000 → s.loopRef (16 * l.die.val + l.n.val) = true →
      Completes (.pllRelock l) s (fun t =>
        t.rd (loopObj l) 2 = 2 ∧ Raises s t 0x0B02 1 1 (locDie l.die.val)
          ∧ ∀ i, loopIsland l = some i → s.resetWait l = none → t.rd (islObj i.die.val i.i.val) 2 = 2)) ∧
    (s.rd (loopObj l) 2 = 3 → (s.loop l).lostAt + 100000 ≤ s.now → s.resetWait l = none → s.rd (railObj (4 * l.die.val + 3)) 5 ≠ 2 →
      (∀ i, loopIsland l = some i → s.rd (islObj i.die.val i.i.val) 3 = 1) →
      Completes (.pllHoldoverExpiry l) s (fun t =>
        Raises s t 0x0B02 1 1 (locDie l.die.val) ∧
          if (s.loopSites l).all s.halfAtRest then
            t.rd (loopObj l) 2 = 1 ∧ ∀ i, loopIsland l = some i →
              t.rd (islObj i.die.val i.i.val) 6 = 0 ∧ Raises s t 0x0B0C 1 0 (locDie i.die.val)
          else t.resetWait l = some (3, s.now) ∧ ∀ i, loopIsland l = some i → t.rd (islObj i.die.val i.i.val) 2 = 4)) ∧
    (s.rd (loopObj l) 2 = 0 → (l.n.val ≠ 0 ∨ l.die.val ≠ 1) → s.dev.por = false → s.loopTested l = false →
      s.rd (railObj (4 * l.die.val + 3)) 5 ≠ 2 →
      (match loopIsland l with
        | some i => s.rd (islObj i.die.val i.i.val) 3 = 1 ∧ (s.islandSites i).any s.tokenOffered = true
        | none => (fixedSites l).any s.tokenOffered = true) →
      Completes (.islandWake l) s (fun t => t.rd (loopObj l) 2 = 1))

/-- R182, R192, R196 to R201: an island is enabled, disabled or reset by its owner, its reset waiting while a fabric half is not at rest; the always-on domain and the time base change their sources with
their events; a correction of device time steps or is slewed; a tick moves device time on by TICK with RATE_ADJ and the slew due. -/
def Obligations.IslandsAndTimeComplete : Prop :=
  ∀ (s : State),
    (∀ (q : Req) (i : Island) (v : BitVec 8), s.writeAbort q (islObj i.die.val i.i.val) 3 1 v.toNat = 0 →
      s.resetWait (islandLoop i) = none →
      Completes (.islandEnable q i v) s (fun t =>
        (v = 1 → s.rd (islObj i.die.val i.i.val) 3 ≠ 1 → s.rd (railObj (4 * i.die.val + 3)) 5 ≠ 2 →
          t.rd (islObj i.die.val i.i.val) 3 = 1 ∧ t.rd (islObj i.die.val i.i.val) 2 = 1 ∧ t.rd (loopObj (islandLoop i)) 2 = 1)
        ∧ (v ≠ 1 → t.rd (islObj i.die.val i.i.val) 3 = 0
          ∧ if (s.islandSites i).all s.halfAtRest then
              t.rd (islObj i.die.val i.i.val) 2 = 0 ∧ Raises s t 0x0B0C 1 0 (locDie i.die.val)
                ∧ (s.loopTested (islandLoop i) = false → t.rd (loopObj (islandLoop i)) 2 = 0 ∧ t.rd (loopObj (islandLoop i)) 3 = 0xFF)
            else t.rd (islObj i.die.val i.i.val) 2 = 4 ∧ t.resetWait (islandLoop i) = some (2, s.now)))) ∧
    (∀ (q : Req) (i : Island) (v : BitVec 8), s.writeAbort q (islObj i.die.val i.i.val) 5 1 v.toNat = 0 →
      s.resetWait (islandLoop i) = none →
      Completes (.islandReset q i v) s (fun t =>
        if (s.islandSites i).all s.halfAtRest then
          t.rd (islObj i.die.val i.i.val) 6 = 0 ∧ t.resetWait (islandLoop i) = none ∧ Raises s t 0x0B0C 1 0 (locDie i.die.val)
        else t.rd (islObj i.die.val i.i.val) 2 = 4 ∧ t.resetWait (islandLoop i) = some (0, s.now))) ∧
    (s.rd 0xA000 1 ≠ 2 → Completes .aoClockFail s (fun t =>
      t.rd 0xA000 1 = 2 ∧ t.rd 0xA000 3 = 1 ∧ Raises s t 0x0B0A 1 2 (locDie 0))) ∧
    (s.rd 0xA000 1 = 2 → Completes .aoCrystalReturn s (fun t =>
      t.rd 0xA000 1 = 0 ∧ t.rd 0xA000 3 = (if s.dev.awake = [] then 0 else 1))) ∧
    Completes .rcTrim s (fun t => t = s) ∧
    (s.rd 0xA000 2 = 1 → Completes .refclkLost s (fun t =>
      t.rd 0xA000 2 = 2 ∧ t.rd 0xA200 2 = (if s.dev.awake = [] then 2 else 1) ∧ t.now = s.now ∧ Raises s t 0x0B07 1 1 (locDie 0))) ∧
    (s.rd 0xA000 2 ≠ 1 → Completes .refclkRestored s (fun t =>
      t.rd 0xA000 2 = 1 ∧ t.rd 0xA200 2 = 0 ∧ t.rd 0xA200 3 = 10 * 65536 ∧ t.now = s.now ∧ Raises s t 0x0B08 1 0 (locDie 0))) ∧
    (∀ (q : Req) (v : BitVec 64), s.writeAbort q 0xA200 5 8 v.toNat = 0 →
      Completes (.offsetAdjust q v) s (fun t =>
        if (s.rd 0xA200 6 : Int) ≤ toSigned 64 v.toNat then
          t.now = (s.now + (toSigned 64 v.toNat).toNat) % 2 ^ 64 ∧ t.rd 0xA200 0xC = min (s.rd 0xA200 0xC + 1) (2 ^ 32 - 1)
            ∧ Raises s t 0x0B06 1 1 (locDie 0)
        else t.now = s.now ∧ t.dev.slew = s.dev.slew + toSigned 64 v.toNat * 2 ^ 32)) ∧
    (s.dev.por = false → Completes (.timeBaseTick 1) s (fun t =>
      t.now = (((s.now * 2 ^ 32 + s.dev.timeFrac + s.tickStep : Nat) : Int) + s.slewStep).toNat / 2 ^ 32 % 2 ^ 64))

/-! ### Locus queues -/

/-- R207, R209 to R212, R216 to R218: a TAGGED port between items takes a tag, or rejects it; the words that follow are added to the item of
the queue it names, and those of a DIRECT port to that of its own, and with LAST the item, which may be stored then, joins the queue's open
batch with the priority named; a 17th word rejects the item, whose words are dropped up to LAST. -/
def Obligations.LocusWritesComplete : Prop :=
  ∀ (die : Fin 2) (p : Fin 128) (w : Word) (s t : State), s.statusRest die.val p.val = true →
    s.siteTake (portRegion die.val p.val) (portSlot p.val) w = some t →
    (s.po die.val p.val 1 = 1 → (s.lport die.val p.val).tag = none → (s.lport die.val p.val).drop = none →
      s.tagReason die.val p.val (w.data.toNat % 512) w.poison = 0 → s.itemWaits die.val (w.data.toNat % 512) = false →
      Completes (.locusTagWord die p w) s (fun u =>
        (u.lport die.val p.val).tag = some (w.data.toNat % 512, w.data.toNat / 65536 % 8, w.data.getLsbD 20)
          ∧ (u.lport die.val p.val).drop = none)) ∧
    (s.po die.val p.val 1 = 1 → (s.lport die.val p.val).tag = none → (s.lport die.val p.val).drop = none →
      s.tagReason die.val p.val (w.data.toNat % 512) w.poison ≠ 0 →
      Completes (.locusTagWord die p w) s (fun u =>
        (u.lport die.val p.val).tag = none ∧ (u.lport die.val p.val).drop = some 2
          ∧ (w.poison = false → u.qo die.val (w.data.toNat % 512) 0x18 = min (s.qo die.val (w.data.toNat % 512) 0x18 + 1) (2 ^ 32 - 1))
          ∧ Raises s u 0x0C01 3 1 (lportObj die.val p.val))) ∧
    (∀ status : Nat, s.po die.val p.val 1 ≠ 0 → (s.lport die.val p.val).drop = some status →
      Completes (.locusItemWord die p w) s (fun u =>
        (u.lport die.val p.val).drop = (if w.last then none else some status)
          ∧ ∀ q, u.q die.val q = s.q die.val q)) ∧
    (∀ (q prio : Nat) (close : Bool) (ws : List Word), s.po die.val p.val 1 ≠ 0 → (s.lport die.val p.val).drop = none →
      ((s.lport die.val p.val).tag = some (q, prio, close) ∨
        ((s.lport die.val p.val).tag = none ∧ s.po die.val p.val 1 = 2 ∧ q = s.po die.val p.val 2 % 512 ∧ prio = s.po die.val p.val 3 ∧ close = true
          ∧ s.tagReason die.val p.val q false = 0 ∧ s.itemWaits die.val q = false)) →
      s.qState die.val q = 1 → s.wordRoom die.val q 1 = true → (w.last = true → s.lastServes die.val q = true) →
      ws = (match (s.q die.val q).part with | some (l, _) => l | none => []) → ws.length < 16 →
      Completes (.locusItemWord die p w) s (fun u =>
        if w.last then
          (∃ i, (u.q die.val q).items = (s.q die.val q).items ++ [i] ∧ i.words = ws ++ [w] ∧ i.prio = prio
              ∧ i.batch = (s.q die.val q).batch)
            ∧ (u.q die.val q).part = none ∧ (u.lport die.val p.val).tag = none
            ∧ u.qo die.val q 0x15 = (s.qo die.val q 0x15 + 1) % 2 ^ 64
        else (u.q die.val q).part = some (ws ++ [w], prio, close) ∧ (u.q die.val q).items = (s.q die.val q).items)) ∧
    (∀ (q prio : Nat) (close : Bool) (ws : List Word) (r : Nat × Bool), s.po die.val p.val 1 ≠ 0 → (s.lport die.val p.val).drop = none →
      (s.lport die.val p.val).tag = some (q, prio, close) → s.qState die.val q = 1 →
      (s.q die.val q).part = some (ws, r) → ws.length = 16 →
      Completes (.locusItemWord die p w) s (fun u =>
        (u.q die.val q).part = none ∧ (u.q die.val q).items = (s.q die.val q).items
          ∧ (u.lport die.val p.val).drop = (if w.last then none else some 2)
          ∧ u.qo die.val q 0x18 = min (s.qo die.val q 0x18 + 1) (2 ^ 32 - 1) ∧ Raises s u 0x0C01 3 1 (lportObj die.val p.val)))

/-- R213, R216, R219 to R222, R159: a read presents the next item of the oldest closed batch whole; a spilled item returns on-die; a queue
that has been idle for TIMEOUT notifies, reports or hands its oldest item over, once its record is accepted with TO_MODE 1, and at the logged
read count with TO_MODE 2; a flush starts and, with the item being presented gone, empties the queue with event 0x0C02. -/
def Obligations.LocusQueuesComplete : Prop :=
  ∀ (die : Fin 2) (s : State),
    (∀ (p : Fin 128) (q : Nat) (ws : List Word) (t : State), q = s.po die.val p.val 5 → q < 512 → s.po die.val p.val 1 ≠ 0 →
      s.siteOpen (portRegion die.val p.val) = true → s.fab.siteClosed (portRegion die.val p.val) (portSlot p.val) 1 = false →
      s.fab.siteOut.get (fun _ => []) (portRegion die.val p.val * 16 + portSlot p.val) = [] → s.readItem die.val q = some (ws, t) →
      Completes (.locusRead die p) s (fun u =>
        u.fab.siteOut.get (fun _ => []) (portRegion die.val p.val * 16 + portSlot p.val) = ws
          ∧ ∃ i, (s.q die.val q).nextItem = some i ∧ (i.spill = [] → ws = i.words)
              ∧ (u.q die.val q).items = dropItem i (s.q die.val q).items
              ∧ u.qo die.val q 0x16 = (s.qo die.val q 0x16 + 1) % 2 ^ 64)) ∧
    (∀ (q : Fin 512) (i : QItem), (s.q die.val q.val).items.find? (fun i => !i.spill.isEmpty) = some i →
      (s.q die.val q.val).onDie + i.spill.length ≤ s.qo die.val q.val 5 → s.spillServes die.val q.val i.spill = true →
      Completes (.spillReturn die q) s (fun u =>
        (u.q die.val q.val).items =
          swapItem i { i with words := s.itemLoad die.val q.val i, spill := [] } (s.q die.val q.val).items)) ∧
    (∀ q : Fin 512, s.qo die.val q.val 0x11 = 0 → s.timeoutDue die.val q.val = true →
      (s.qo die.val q.val 0xF = 0 → Completes (.idleTimeout die q) s (fun u =>
        (u.q die.val q.val).fired = true ∧ (u.q die.val q.val).items = (s.q die.val q.val).items ∧ u.out = s.out)) ∧
      (s.qo die.val q.val 0xF = 1 → Completes (.idleTimeout die q) s (fun u =>
        (u.q die.val q.val).fired = true ∧ (u.q die.val q.val).items = (s.q die.val q.val).items
          ∧ Raises s u 0x0C05 3 0 (queueObj die.val q.val))) ∧
      (s.qo die.val q.val 0xF = 2 → Completes (.idleTimeout die q) s (fun u =>
        match s.handOver die.val q.val with
        | some t => u = t
        | none => (u.q die.val q.val).waiting = true))) ∧
    (∀ (q : Fin 512) (t : State), s.qo die.val q.val 0x11 = 1 → s.timeoutDue die.val q.val = true →
      s.logPut (64 + 512 * die.val + q.val) 4 q.val
        (s.qo die.val q.val 0xF <<< 32 ||| (s.stream (64 + 512 * die.val + q.val)).reads) = some t →
      Completes (.idleTimeout die q) s (fun u => u = t.fireAction die.val q.val (s.qo die.val q.val 0xF))) ∧
    (∀ (q : Fin 512) (v : Nat), s.qo die.val q.val 0x11 = 2 → s.decision (64 + 512 * die.val + q.val) 4 q.val = some v →
      v % 2 ^ 32 = (s.stream (64 + 512 * die.val + q.val)).reads → 0 < (s.q die.val q.val).level → (s.q die.val q.val).waiting = false →
      s.qState die.val q.val = 1 → s.notifyRest die.val q.val = true →
      Completes (.idleTimeout die q) s (fun u =>
        u = (s.decided (64 + 512 * die.val + q.val)).fireAction die.val q.val (fieldAt v 32 3))) ∧
    (∀ (q : Fin 512) (t : State), (s.q die.val q.val).waiting = true → s.qState die.val q.val = 1 → s.handOver die.val q.val = some t →
      Completes (.handoff die q) s (fun u => u = t ∧ (u.q die.val q.val).waiting = false)) ∧
    (∀ (q : Req) (n : Fin 512) (v : BitVec 8), s.writeAbort q (queueObj die.val n.val) 0x14 1 v.toNat = 0 → s.qo die.val n.val 2 ≠ 0 →
      Completes (.flush q die n v) s (fun u => u.qo die.val n.val 2 = 3 ∧ (u.q die.val n.val).items = (s.q die.val n.val).items)) ∧
    (∀ q : Fin 512, s.qo die.val q.val 2 = 3 →
      (kindOf (s.qo die.val q.val 4) = 1 → s.fab.siteOut.get (fun _ => [])
        (portRegion die.val (numOf (s.qo die.val q.val 4)) * 16 + portSlot (numOf (s.qo die.val q.val 4))) = []) →
      Completes (.flushed die q) s (fun u =>
        u.qo die.val q.val 2 = 1 ∧ (u.q die.val q.val).items = [] ∧ (u.q die.val q.val).part = none
          ∧ Raises s u 0x0C02 3 0 (queueObj die.val q.val)))

/-! ### Annulus -/

/-- R234 to R239, R241: a fabric port with room takes a request and its data words in order; the head request of a port faults and is
answered, counted and reported, or is admitted: from then on a write's words are what memory holds, and a read is owed the words that memory
holds. -/
def Obligations.MemoryPortsComplete : Prop :=
  ∀ (die : Fin 2) (p : Fin 32) (s : State),
    (∀ (w : Word) (data : List Word) (t : State), s.siteWords (.memory die p) (w :: data) = some t →
      (s.mport (64 * die.val + p.val)).reqs.length < 32 →
      (data = [] → fieldAt w.data.toNat 41 2 = 0 → Completes (.memoryRead die p w) s (fun u =>
        (u.mport (64 * die.val + p.val)).reqs = (s.mport (64 * die.val + p.val)).reqs
          ++ [{ memReqOf w data with seq := (s.mport (64 * die.val + p.val)).nextSeq }])) ∧
      (data.length = fieldAt w.data.toNat 37 4 + 1 → fieldAt w.data.toNat 41 2 = 1 → Completes (.memoryWrite die p w data) s (fun u =>
        (u.mport (64 * die.val + p.val)).reqs = (s.mport (64 * die.val + p.val)).reqs
          ++ [{ memReqOf w data with seq := (s.mport (64 * die.val + p.val)).nextSeq }])) ∧
      (data.length = fieldAt w.data.toNat 37 4 + 1 → fieldAt w.data.toNat 41 2 = 2 → Completes (.memoryWriteAck die p w data) s (fun u =>
        (u.mport (64 * die.val + p.val)).reqs = (s.mport (64 * die.val + p.val)).reqs
          ++ [{ memReqOf w data with seq := (s.mport (64 * die.val + p.val)).nextSeq }])) ∧
      (data = [] → fieldAt w.data.toNat 41 2 = 3 → Completes (.memoryOpReserved die p w) s (fun u =>
        (u.mport (64 * die.val + p.val)).reqs = (s.mport (64 * die.val + p.val)).reqs
          ++ [{ memReqOf w data with seq := (s.mport (64 * die.val + p.val)).nextSeq }]))) ∧
    (∀ (r : MemReq) (rest : List MemReq), (s.mport (64 * die.val + p.val)).reqs = r :: rest → r.op < 4 →
      s.loopClocks die.val 2 = true → s.memFault (64 * die.val + p.val) r ≠ 0 →
      (s.mport (64 * die.val + p.val)).reserved + r.needs ≤ 256 →
      Completes (.requestAdmission die p) s (fun u =>
        (u.mport (64 * die.val + p.val)).reqs.length = rest.length ∧ u.mem.bytes = s.mem.bytes
          ∧ u.rd (mportObj die.val p.val) 0xA = min (s.rd (mportObj die.val p.val) 0xA + 1) (2 ^ 32 - 1)
          ∧ Raises s u 0x0404 3 1 (mportObj die.val p.val))) ∧
    (∀ (r : MemReq) (rest : List MemReq), (s.mport (64 * die.val + p.val)).reqs = r :: rest → r.op < 3 →
      s.loopClocks die.val 2 = true → s.memFault (64 * die.val + p.val) r = 0 → s.heldByZeroing r = false →
      (s.mport (64 * die.val + p.val)).reserved + r.needs ≤ 256 → s.cmdsFit (s.reqCmds (64 * die.val + p.val) r) = true →
      s.rd (winObj r.window) 7 = 0 →
      Completes (.requestAdmission die p) s (fun u =>
        (u.mport (64 * die.val + p.val)).reqs.length = rest.length
          ∧ (r.op = 0 → u.mem.bytes = s.mem.bytes ∧ u.mem.poison = s.mem.poison ∧ (u.mport (64 * die.val + p.val)).reqs = rest
              ∧ ((s.reqCmds (64 * die.val + p.val) r).any (fun m => !s.wordOffline m.addr) = true →
                  ∃ m, (u.mport (64 * die.val + p.val)).slots.getLast? = some m ∧ m.group = r.seq ∧ m.read = true
                    ∧ m.words = s.loadWords (s.reqAddr r) (r.len + 1)))
          ∧ (r.op ≠ 0 → u.mem.bytes = (s.storeWords (s.reqAddr r) r.data).mem.bytes
              ∧ u.mem.poison = (s.storeWords (s.reqAddr r) r.data).mem.poison
              ∧ ∀ w, r.data = [w] → s.wordOffline (s.reqAddr r) = false →
                  u.mem.load (s.memKey (s.reqAddr r)) = { w with last := false, u0 := false, u1 := false })))

/-- R244, R246, R248, R249, R252 to R254, R257: a pseudo-channel serves the command that R244 puts first and opens its row; a read's
double-bit error is counted, recorded and reported; refreshes reduce the debt and end a FORCED state with event 0x0409; a command that is too
old is reported; an idle pseudo-channel powers down. -/
def Obligations.PseudoChannelsComplete : Prop :=
  ∀ (die : Fin 2) (pc : Fin 32) (s t : State), t = (s.ageDebt (32 * die.val + pc.val)).refreshState (32 * die.val + pc.val) 0 →
    s.rd (ctlObj die.val) 1 = 1 → s.loopClocks die.val 2 = true → s.parityBusy (32 * die.val + pc.val) = false →
    (∀ (ecc : List Ecc) (m : PcCmd), (s.pc (32 * die.val + pc.val)).unsure < 32 → t.nextCmd (32 * die.val + pc.val) = .cmd m →
      Completes (.pcCommandIssue die pc ecc) s (fun u =>
        (u.pc (32 * die.val + pc.val)).queue = dropCmd m (s.pc (32 * die.val + pc.val)).queue
          ∧ cellsFind (u.pc (32 * die.val + pc.val)).rows (bankOf (s.stackAddr m.addr)) = some (rowOf (s.stackAddr m.addr))
          ∧ (m.write = false → m.words = 1 → ecc = [.uncorrectable] →
              u.rd (ctlObj (s.stackOf m.addr)) 0xA = min (s.rd (ctlObj (s.stackOf m.addr)) 0xA + 1) (2 ^ 32 - 1)
                ∧ u.rd (ctlObj (s.stackOf m.addr)) 0xB = m.addr ∧ Raises s u 0x0402 3 2 (ctlObj (s.stackOf m.addr))))) ∧
    (∀ m : PcCmd, (s.pc (32 * die.val + pc.val)).queue.find?
        (fun m => !m.aged && decide (m.at_ + 8 * s.rd (ctlObj die.val) 4 ≤ s.now)) = some m →
      Completes (.ageExceeded die pc) s (fun u =>
        { m with aged := true } ∈ (u.pc (32 * die.val + pc.val)).queue ∧ Raises s u 0x0407 3 1 (mpObj m.port))) ∧
    ((t.rd (pcRec (32 * die.val + pc.val)) 1 = 0 ∨ t.rd (pcRec (32 * die.val + pc.val)) 1 = 3) →
      t.trefi die.val ≤ (t.pc (32 * die.val + pc.val)).debt → (t.pc (32 * die.val + pc.val)).perBank = false →
      (∀ m ∈ (t.pc (32 * die.val + pc.val)).queue, bankOf (t.stackAddr m.addr) ≠ (t.pc (32 * die.val + pc.val)).bank) →
      Completes (.perBankRefreshDue die pc) s (fun u =>
        (u.pc (32 * die.val + pc.val)).perBank = true ∧ u.rd (pcRec (32 * die.val + pc.val)) 1 = 0)) ∧
    ((s.pc (32 * die.val + pc.val)).perBank = true →
      Completes (.refreshComplete die pc) s (fun u =>
        (u.pc (32 * die.val + pc.val)).perBank = false
          ∧ (u.pc (32 * die.val + pc.val)).bank = ((s.pc (32 * die.val + pc.val)).bank + 1) % 64
          ∧ (u.pc (32 * die.val + pc.val)).debt = s.debtNow (32 * die.val + pc.val) - s.trefi die.val)) ∧
    ((s.pc (32 * die.val + pc.val)).perBank = false → s.rd (pcRec (32 * die.val + pc.val)) 1 = 2 →
      Completes (.refreshComplete die pc) s (fun u =>
        (u.pc (32 * die.val + pc.val)).debt = s.debtNow (32 * die.val + pc.val) - 64 * s.trefi die.val
          ∧ (8 * 64 * s.trefi die.val < (u.pc (32 * die.val + pc.val)).debt → u.rd (pcRec (32 * die.val + pc.val)) 1 = 2)
          ∧ ((u.pc (32 * die.val + pc.val)).debt ≤ 8 * 64 * s.trefi die.val → 64 * s.trefi die.val ≤ (u.pc (32 * die.val + pc.val)).debt →
              u.rd (pcRec (32 * die.val + pc.val)) 1 = 1 ∧ Raises s u 0x0409 3 1 (pcRec (32 * die.val + pc.val))))) ∧
    (s.rd (pcRec (32 * die.val + pc.val)) 1 < 2 → 8 * 64 * s.trefi die.val < s.debtNow (32 * die.val + pc.val) →
      Completes (.refreshDebtLimit die pc) s (fun u =>
        u.rd (pcRec (32 * die.val + pc.val)) 1 = 2
          ∧ u.rd (pcRec (32 * die.val + pc.val)) 4 = min (s.rd (pcRec (32 * die.val + pc.val)) 4 + 1) (2 ^ 32 - 1)
          ∧ (u.pc (32 * die.val + pc.val)).forced.1 = s.now)) ∧
    (s.rd (pcRec (32 * die.val + pc.val)) 1 = 0 → (s.pc (32 * die.val + pc.val)).queue = [] →
      (s.pc (32 * die.val + pc.val)).perBank = false → (s.pc (32 * die.val + pc.val)).idleFrom + s.rd (ctlObj die.val) 5 ≤ s.now →
      Completes (.powerDownEntry die pc) s (fun u => u.rd (pcRec (32 * die.val + pc.val)) 1 = 3))

/-- R249, R252, R253, R256, R258, R261: a temperature sample sets or clears TEMP_HOT with event 0x040A; a replay is counted, and an alert
after three takes the channel offline with its stack DEGRADED; training ends RUNNING with every word zero, or FAILED; a stack enters and
leaves self-refresh; a zeroed window reads as zeros, no other octet changes, and the window is OPEN again. -/
def Obligations.StacksComplete : Prop :=
  ∀ (die : Fin 2) (s : State),
    (∀ celsius : Int, Completes (.stackTempSample die celsius) s (fun u =>
      u.rd (ctlObj die.val) 2 = ofSigned 16 celsius
        ∧ u.rd (ctlObj die.val) 3 = (if 85 ≤ celsius then 1 else if celsius < 82 then 0 else s.rd (ctlObj die.val) 3)
        ∧ (u.rd (ctlObj die.val) 3 ≠ s.rd (ctlObj die.val) 3 → Raises s u 0x040A 3 1 (ctlObj die.val)))) ∧
    (∀ ch : Fin 16, (s.rd (ctlObj die.val) 0xD).testBit ch.val = false → s.refreshes die.val = true →
      (s.mem.replaying.get (fun _ => 0) (16 * die.val + ch.val) < 3 →
        Completes (.parityAlert die ch) s (fun u =>
          u.mem.replaying.get (fun _ => 0) (16 * die.val + ch.val) = s.mem.replaying.get (fun _ => 0) (16 * die.val + ch.val) + 1
            ∧ u.mem.bytes = s.mem.bytes)) ∧
      (3 ≤ s.mem.replaying.get (fun _ => 0) (16 * die.val + ch.val) →
        Completes (.parityAlert die ch) s (fun u =>
          u.rd (ctlObj die.val) 0xD = setBit (s.rd (ctlObj die.val) 0xD) ch.val ∧ u.rd (ctlObj die.val) 1 = 3
            ∧ (u.pc (32 * die.val + 2 * ch.val)).queue = [] ∧ Raises s u 0x0406 3 2 (ctlObj die.val)))) ∧
    (∀ ch : Fin 16, s.mem.replaying.get (fun _ => 0) (16 * die.val + ch.val) ≠ 0 →
      Completes (.parityReplay die ch) s (fun u =>
        u.mem.replaying.get (fun _ => 0) (16 * die.val + ch.val) = 0
          ∧ u.rd (ctlObj die.val) 0xC = min (s.rd (ctlObj die.val) 0xC + 1) (2 ^ 32 - 1) ∧ Raises s u 0x0405 3 1 (ctlObj die.val))) ∧
    (s.dev.por = false → s.rd (ctlObj die.val) 1 = 0 →
      Completes (.stackTraining die none) s (fun u =>
        u.rd (ctlObj die.val) 1 = 1 ∧ ∀ a, a / 2 ^ 34 = die.val → u.mem.bytes.get (fun _ => 0) a = 0) ∧
      ∀ ch, Completes (.stackTraining die (some ch)) s (fun u =>
        u.rd (ctlObj die.val) 1 = 4 ∧ Raises s u 0x040D 3 3 (ctlObj die.val))) ∧
    (s.refreshes die.val = true → s.wantsSelfRefresh die.val = true →
      Completes (.selfRefreshEntry die) s (fun u => u.rd (ctlObj die.val) 1 = 2 ∧ ∀ c < 32, (u.pc (32 * die.val + c)).debt = 0)) ∧
    (s.rd (ctlObj die.val) 1 = 2 → s.stackTested die.val = false → s.stackQuiet die.val = false →
      Completes (.selfRefreshExit die) s (fun u =>
        u.rd (ctlObj die.val) 1 = (if s.rd (ctlObj die.val) 0xD = 0 then 1 else 3)
          ∧ ∀ c < 32, s.rd (pcRec (32 * die.val + c)) 1 = 4 → u.rd (pcRec (32 * die.val + c)) 1 = 0)) ∧
    (∀ (w : Fin 64) (own : Bool) (t0 : Nat), s.mem.zeroing.find? (fun z => decide (z.1 = w.val)) = some (w.val, own, t0) →
      s.zeroBefore w.val = false → (own = true → s.orphanFor w.val = false) →
      Completes (.windowZeroing w) s (fun u =>
        (∀ a, u.mem.bytes.get (fun _ => 0) a =
          if s.rd (winObj w.val) 2 ≤ s.memPhys a ∧ s.memPhys a < s.rd (winObj w.val) 2 + s.rd (winObj w.val) 3 then 0
          else s.mem.bytes.get (fun _ => 0) a)
          ∧ (s.rd (winObj w.val) 1 ≠ 0xFF → u.rd (winObj w.val) 0xA = 1) ∧ Raises s u 0x040C 3 0 (winObj w.val)))

/-! ### Ray -/

/-- R266, R288, R293: a lane that locks is UP with event 0x0601; a lane that loses signal or lock acquires again, counted, with its port
DOWN; a port aligns, goes to local or remote fault and returns; the loss of a reference takes every enabled lane of its die to IDLE, and
its return lets them acquire. -/
def Obligations.RayLanesComplete : Prop :=
  ∀ (l : Lane) (s : State),
    (s.rd (laneObj (laneNum l)) 2 = 2 → s.rd (loopObj ⟨l.die, 1⟩) 2 = 2 →
      Completes (.laneUp l) s (fun u =>
        u.rd (laneObj (laneNum l)) 2 = 3 ∧ u.rd (laneObj (laneNum l)) 0xE = 2 ∧ Raises s u 0x0601 3 0 (laneObj (laneNum l)))) ∧
    (∀ lockLost : Bool, s.rd (laneObj (laneNum l)) 2 = 3 →
      Completes (.laneDown l lockLost) s (fun u =>
        u.rd (laneObj (laneNum l)) 2 = 2 ∧ u.rd (laneObj (laneNum l)) 0xE = lockLost.toNat
          ∧ u.rd (laneObj (laneNum l)) 0xD = min (s.rd (laneObj (laneNum l)) 0xD + 1) (2 ^ 32 - 1)
          ∧ Raises s u 0x0602 3 1 (laneObj (laneNum l))
          ∧ ∀ p, s.portOf (laneNum l) = some p → u.rd (rportObj p) 2 = 0)) ∧
    (s.rd (rportObj (laneNum l)) 1 ≠ 0 →
      ((s.rd (rportObj (laneNum l)) 2 = 1 ∨ s.rd (rportObj (laneNum l)) 2 = 3) → (∀ k ∈ s.portLanes (laneNum l), s.rd (laneObj k) 2 = 3) →
        Completes (.portUp l) s (fun u =>
          u.rd (rportObj (laneNum l)) 2 = 2 ∧ (u.rport (laneNum l)).rxSeq = 0 ∧ Raises s u 0x0603 3 0 (rportObj (laneNum l)))) ∧
      (s.rd (rportObj (laneNum l)) 2 = 2 →
        Completes (.portDown l) s (fun u =>
          u.rd (rportObj (laneNum l)) 2 = 3 ∧ Raises s u 0x0604 3 1 (rportObj (laneNum l))) ∧
        Completes (.remoteFault l) s (fun u =>
          u.rd (rportObj (laneNum l)) 2 = 4 ∧ Raises s u 0x0604 3 1 (rportObj (laneNum l)))) ∧
      (s.rd (rportObj (laneNum l)) 2 = 4 →
        Completes (.remoteFaultCleared l) s (fun u =>
          u.rd (rportObj (laneNum l)) 2 = 2 ∧ Raises s u 0x0603 3 0 (rportObj (laneNum l))))) ∧
    (s.rayRef l.die.val = true →
      Completes (.refclkLostRay l.die) s (fun u =>
        u.rayRef l.die.val = false ∧ Raises s u 0x060B 3 2 0x5800
          ∧ ∀ k ∈ dieLanes l.die.val, s.rd (laneObj k) 3 = 1 → u.rd (laneObj k) 2 = 1)) ∧
    (s.rayRef l.die.val = false → s.rd 0x2000 1 = 4 → s.rd 0x3000 0xA = 0 → s.ray.tampered = false →
      Completes (.rayRefclkPresent l.die) s (fun u =>
        u.rayRef l.die.val = true ∧ ∀ k ∈ dieLanes l.die.val, s.rd (laneObj k) 3 = 1 → s.rd (laneObj k) 2 = 1 → u.rd (laneObj k) 2 = 2))

/-- R274 to R279, R282, R284: a received frame is admitted whole, its data words followed by its trailer, cut and counted where it is
longer than MAX_FRAME, or dropped whole and counted, and SEQ counts it either way; a whole frame goes out as it is, or with an error
termination that is counted; a frame that breaks a length rule under TX_START 0 is not sent; one that has words enough starts before its
trailer; an underrun ends the frame; a stamp request is answered with the oldest stamp. -/
def Obligations.RayFramesComplete : Prop :=
  ∀ (l : Lane) (s t : State) (p : Nat), p = laneNum l → s.rd (rportObj p) 1 ≠ 0 →
    (∀ f : RxFrame, f.bytes ≠ [] → s.rd (rportObj p) 2 = 2 →
      (s.rport p).rx.length + frameRoom (s.rd (rportObj p) 3) ≤ 1024 * s.portWidth p →
      Completes (.rxFrame l f) s (fun u =>
        let bytes := f.bytes.take (s.rd (rportObj p) 3)
        let trunc := decide (s.rd (rportObj p) 3 < f.bytes.length)
        u.rd (rportObj p) 9 = (s.rd (rportObj p) 9 + 1) % 2 ^ 64
          ∧ u.rd (rportObj p) 0xC = (if trunc then min (s.rd (rportObj p) 0xC + 1) (2 ^ 32 - 1) else s.rd (rportObj p) 0xC)
          ∧ (u.rport p).rxSeq = ((s.rport p).rxSeq + 1) % 65536
          ∧ (u.rport p).rx <:+ (s.rport p).rx ++ frameWords f.uncorrWords 0 (cut16 bytes.length bytes)
              ++ [rxTrailer (if s.rd (rportObj p) 6 = 1 then s.stamp f.subNs (s.rd (rportObj p) 7) else 0) (s.rport p).rxSeq bytes.length
                    (!f.uncorrWords.isEmpty) f.codeErr f.preambleErr (decide (s.rd (rportObj p) 6 = 1) && decide (s.rd 0xA200 2 ≠ 0)) trunc])) ∧
    (∀ f : RxFrame, f.bytes ≠ [] → s.rd (rportObj p) 2 = 2 → t = (s.fecCount p f).rxDrain p →
      1024 * s.portWidth p < (t.rport p).rx.length + frameRoom (s.rd (rportObj p) 3) →
      Completes (.rxFrame l f) s (fun u =>
        u.rd (rportObj p) 0xB = min (s.rd (rportObj p) 0xB + 1) (2 ^ 32 - 1) ∧ u.rd (rportObj p) 9 = s.rd (rportObj p) 9
          ∧ (u.rport p).rxSeq = ((s.rport p).rxSeq + 1) % 65536 ∧ (u.rport p).rx = (t.rport p).rx)) ∧
    (∀ (subNs : Bool) (data rest : List Word) (tr : Word), s.canSend p = true → t = s.txAdvance p → (t.rport p).sending = none →
      splitFrame (t.rport p).tx = some (data, tr, rest) →
      (stampReq tr = true → t.rd (rportObj p) 6 = 1 → (t.rport p).stamps.length < 64) →
      (frameCause (t.rd (rportObj p) 3) data tr = none →
        Completes (.txFrameStart l subNs) s (fun u =>
          u.ray.line = { lane := p, words := data, bytes := tr.data.toNat % 65536, errored := false } :: t.ray.line ∧ (u.rport p).tx = rest
            ∧ u.rd (rportObj p) 0xA = (t.rd (rportObj p) 0xA + 1) % 2 ^ 64
            ∧ (u.rport p).stamps = (t.rport p).stamps ++
                (if stampReq tr = true ∧ t.rd (rportObj p) 6 = 1 then [t.stamp subNs (t.rd (rportObj p) 8)] else []))) ∧
      (∀ c, frameCause (t.rd (rportObj p) 3) data tr = some c → (c = 1 → t.rd (rportObj p) 4 ≠ 0) →
        Completes (.txFrameStart l subNs) s (fun u =>
          u.ray.line = { lane := p, words := data, bytes := tr.data.toNat % 65536, errored := true } :: t.ray.line
            ∧ u.rd (rportObj p) 0xD = min (t.rd (rportObj p) 0xD + 1) (2 ^ 32 - 1))) ∧
      (frameCause (t.rd (rportObj p) 3) data tr = some 1 → t.rd (rportObj p) 4 = 0 →
        Completes (.txFrameStart l subNs) s (fun u =>
          u.ray.line = t.ray.line ∧ (u.rport p).tx = rest
            ∧ u.rd (rportObj p) 0xD = min (t.rd (rportObj p) 0xD + 1) (2 ^ 32 - 1)))) ∧
    (∀ subNs : Bool, s.canSend p = true → t = s.txAdvance p → (t.rport p).sending = none → splitFrame (t.rport p).tx = none →
      0 < t.rd (rportObj p) 4 → t.rd (rportObj p) 4 ≤ (t.rport p).tx.length → (t.rport p).stamps.length < 64 →
      Completes (.txFrameStart l subNs) s (fun u =>
        (u.rport p).sending = some (t.stamp subNs (t.rd (rportObj p) 8), false) ∧ (u.rport p).onLine = (t.rport p).tx
          ∧ (u.rport p).tx = [])) ∧
    (∀ st : Nat, t = s.txAdvance p → (t.rport p).sending = some (st, false) →
      Completes (.txUnderrunError l) s (fun u =>
        u.ray.line = { lane := p, words := (t.rport p).onLine, bytes := 16 * (t.rport p).onLine.length, errored := true } :: t.ray.line
          ∧ (u.rport p).sending = some (st, true) ∧ (u.rport p).onLine = []
          ∧ u.rd (rportObj p) 0xD = min (t.rd (rportObj p) 0xD + 1) (2 ^ 32 - 1))) ∧
    (∀ (w : Word) (st v : Nat) (rest : List Nat) (t1 : State), (s.rport p).stamps = st :: rest → s.cellOn (fifoSite p 0) true = true →
      s.fab.siteOut.get (fun _ => []) ((fifoPlace p 0).1 * 16 + 4) = [] → s.siteTake (fifoPlace p 0).1 4 w = some t →
      t.siteDecide (fifoPlace p 0).1 3 (chanId 3 (fifoPlace p 0).1 0 0 4) st = some (v, t1) →
      Completes (.transmitStampRequest l w) s (fun u =>
        (s.rd (detObj (fifoPlace p 0).1) 3 ≠ 2 → (u.rport p).stamps = rest) ∧
          u.fab.siteOut.get (fun _ => []) ((fifoPlace p 0).1 * 16 + 4) =
            t1.fab.siteOut.get (fun _ => []) ((fifoPlace p 0).1 * 16 + 4) ++ [replyWord (v % 2 ^ 64)]))

/-- R280, R281, R285, R292: a raw lane's received word, inverted where POLARITY says, enters its elastic buffer in order, or is dropped and counted; RAW_FILL goes out where the
next transmit FIFO is empty; RX_SLIP moves the word boundary; a tap takes the value written. -/
def Obligations.RayRawComplete : Prop :=
  ∀ (l : Lane) (s t : State) (k : Nat), k = laneNum l →
    (∀ bits : BitVec 128, s.rd (laneObj k) 8 = 0xFF → s.rd (laneObj k) 2 = 3 → t = s.rxDrain k → (t.lane k).held = 0 →
      (t.lane k).carry = 0 → (t.lane k).skip = 0 →
      ((t.lane k).elastic.length < 256 →
        Completes (.rawRxWord l bits) s (fun u => (u.lane k).elastic <:+ (t.lane k).elastic ++ [⟨bits ^^^ s.polarityMask k 0, true, false, false, false⟩])) ∧
      (256 ≤ (t.lane k).elastic.length →
        Completes (.rawRxWord l bits) s (fun u =>
          (u.lane k).elastic = (t.lane k).elastic ∧ u.rd (laneObj k) 0xB = min (s.rd (laneObj k) 0xB + 1) (2 ^ 32 - 1)))) ∧
    (s.rawSends k = true → (s.cellAt (siteNum (fifoSite k ((s.lane k).txIndex % 4)))).fifo = [] →
      Completes (.rawFill l) s (fun u =>
        u.ray.line = { lane := k, words := [⟨BitVec.ofNat 128 (s.rd (laneObj k) 0xA) ^^^ s.polarityMask k 1, true, false, false, false⟩],
                         bytes := 16, errored := false } :: s.ray.line
          ∧ u.rd (laneObj k) 0xC = min (s.rd (laneObj k) 0xC + 1) (2 ^ 32 - 1) ∧ (u.lane k).txIndex = (s.lane k).txIndex)) ∧
    (∀ (q : Req) (v : BitVec 8), s.writeAbort q (laneObj k) 9 1 v.toNat = 0 →
      Completes (.rxSlip q l v) s (fun u => (u.lane k).skip = (s.lane k).skip + v.toNat)) ∧
    (∀ (q : Req) (tap : Fin 4) (v : BitVec 16), s.writeAbort q (eqObj k) (1 + tap.val) 2 v.toNat = 0 →
      Completes (.txTapWrite q l tap v) s (fun u => u.rd (eqObj k) (1 + tap.val) = v.toNat))

/-! ### Host Port -/

/-- R294, R296, R297, R301, R302, R322: a request of a function is answered with Retry while it may not be served; VFs, BAR2, the completion timeout and
the payload and read request sizes take what the host writes, and a read returns the IDs and class code of R297; a window takes one request at a time, an overlapping one sets OVERLAP, and Apex's answer ends it. -/
def Obligations.MailboxesComplete : Prop :=
  ∀ (s : State),
    (∀ (f : Func) (a : CfgAccess), s.dev.por = false → (s.resetting f.f.val = true ∨ s.hostReady = false) →
      Completes (.configurationRequest f a) s (fun u => u.host.cfgResp = 1 ∧ u.od = s.od)) ∧
    (∀ (f : Func) (a : CfgAccess), s.dev.por = false → s.resetting f.f.val = false → s.hostReady = true →
      Completes (.configurationRequest f a) s (fun u => u.host.cfgResp = 0 ∧
        match a with
        | .numVfs n => f.v.val = 0 → f.f.val ≠ 0 →
            u.rd (pfObj f.f.val) 2 = n.val ∧ ∀ v < 32, u.rd (vfObj f.f.val (v + 1)) 1 = (if v < n.val then 1 else 0)
        | .bar2 n => f.v.val = 0 → u.host.barSize.get (fun _ => 0) f.f.val = n.val
        | .cplTimeout us => f = ⟨0, 0⟩ → u.rd 0x5000 7 = us.toNat
        | .read r => u.od = s.od ∧ (r = .vendorId → u.host.cfgData = 0x1F4A)
            ∧ (r = .deviceId → u.host.cfgData = (if f.v.val ≠ 0 then 0x4098 else if f.f.val = 0 then 0x4096 else 0x4097))
            ∧ (r = .classCode → u.host.cfgData = (if f.f.val = 0 then 0x088000 else 0x120000))
            ∧ (r = .msixSize → u.host.cfgData = (if f.v.val = 0 then 2048 else 64))
            ∧ (r = .cplTimeout → u.host.cfgData = s.rd 0x5000 7)
        | .maxPayload n => u.od = s.od ∧ (u.fn (funcCode f)).maxPayload = n.val
        | .maxReadRequest n => u.od = s.od ∧ (u.fn (funcCode f)).maxReadRequest = n.val
        | _ => u.od = s.od)) ∧
    (∀ (f : Fin 9) (idx vec : BitVec 16) (sub : BitVec 8) (data : List Byte), s.hostUp f.val = true → (s.box f.val).busy = false →
      Completes (.mailboxRead f idx sub vec) s (fun u =>
        (u.box f.val).busy = true ∧ (u.box f.val).done = false ∧ (u.box f.val).overlap = false ∧ (u.box f.val).vector = vec.toNat
          ∧ (u.box f.val).req = some (false, idx.toNat, sub.toNat, [])) ∧
      (data.length ≤ 4096 → Completes (.mailboxWrite f idx sub data vec) s (fun u =>
        (u.box f.val).busy = true ∧ (u.box f.val).done = false ∧ (u.box f.val).overlap = false ∧ (u.box f.val).vector = vec.toNat
          ∧ (u.box f.val).req = some (true, idx.toNat, sub.toNat, data)
          ∧ (u.box f.val).buf = data ++ (s.box f.val).buf.drop data.length))) ∧
    (∀ f : Fin 9, s.hostUp f.val = true → (s.box f.val).busy = true →
      Completes (.mailboxOverlap f) s (fun u => (u.box f.val).overlap = true ∧ (u.box f.val).req = (s.box f.val).req)) ∧
    (∀ (f : Fin 9) (idx sub : Nat) (data : List Byte) (t : State), userIdx idx = false → (s.box f.val).busy = true →
      (s.box f.val).away = false → s.apexUp = true → t = s.setBox f.val { s.box f.val with away := true } →
      ((s.box f.val).req = some (false, idx, sub, data) →
        Completes (.mailboxDone f) s (fun u =>
          (u.box f.val).busy = false ∧ (u.box f.val).done = true ∧ (u.box f.val).abort = (t.getObj (.pf f) idx sub).1
            ∧ (u.box f.val).resp = (if (t.getObj (.pf f) idx sub).1 = 0 then (t.getObj (.pf f) idx sub).2.1 else []))) ∧
      ((s.box f.val).req = some (true, idx, sub, data) → ((t.writeObj (.pf f) idx sub data).2.box f.val).away = true →
        Completes (.mailboxDone f) s (fun u =>
          (u.box f.val).busy = false ∧ (u.box f.val).done = true ∧ (u.box f.val).abort = (t.writeObj (.pf f) idx sub data).1
            ∧ u.od = (t.writeObj (.pf f) idx sub data).2.od)))

/-- R304, R306, R308, R309, R311, R312, R322, R329: an aperture access reaches the window that covers it at once where nothing waits before
it and its memory serves it, or is turned away: as Unsupported Request while the function's reset runs and outside the stream of a TDI in
RUN, with event 0x0504 where no window covers it; an engine's ring is filled, run, stopped and restarted; a request not completed in time
halts its engine; a descriptor that breaks a rule halts it with its ERR, and a window transfer moves every byte and completes. Octets of
memory are named by where R230 stores them. -/
def Obligations.ApertureAndDmaComplete : Prop :=
  ∀ (s : State),
    (∀ (f : Fin 9) (offset len n : Nat) (write : Option (List Byte)) (inStream : Bool), s.dev.por = false → 2 ≤ s.rd 0x5000 1 →
      n = (match write with | some l => l.length | none => len) →
      (s.resetting f.val = true → Completes (.apertureAccess f offset write len inStream) s (fun u =>
        u.mem = s.mem ∧ u.od = s.od ∧ (u.fn (256 * f.val)).errors.testBit 20 = true
          ∧ (write = none → u.host.barReads = none :: s.host.barReads))) ∧
      (s.resetting f.val = false → s.tdi (256 * f.val) = 2 → inStream = false →
        Completes (.apertureAccess f offset write len inStream) s (fun u =>
          u.mem = s.mem ∧ u.tdi (256 * f.val) = 3 ∧ Raises s u 0x050A 5 2 (256 * f.val) ∧ (u.fn (256 * f.val)).errors.testBit 20 = true
            ∧ (write = none → u.host.barReads = none :: s.host.barReads))) ∧
      (s.resetting f.val = false → (s.tdi (256 * f.val) ≠ 2 ∨ inStream = true) →
        (s.aperture f.val).find? (fun p => decide (p.2 ≤ offset) && decide (offset + n ≤ p.2 + s.rd (winObj p.1) 3)) = none →
        Completes (.apertureAccess f offset write len inStream) s (fun u =>
          u.mem = s.mem ∧ Raises s u 0x0504 5 1 (256 * f.val) ∧ (u.fn (256 * f.val)).errors.testBit 20 = true
            ∧ (write = none → u.host.barReads = none :: s.host.barReads))) ∧
      (∀ w off p : Nat, s.resetting f.val = false → (s.tdi (256 * f.val) ≠ 2 ∨ inStream = true) →
        (s.aperture f.val).find? (fun p => decide (p.2 ≤ offset) && decide (offset + n ≤ p.2 + s.rd (winObj p.1) 3)) = some (w, off) →
        p = s.rd (winObj w) 2 + (offset - off) → p + n ≤ 2 ^ 35 → s.host.barWait = [] → (wordSpots p n).all s.memServes = true →
        Completes (.apertureAccess f offset write len inStream) s (fun u => u.host.barWait = [] ∧
          match write with
          | none => u.mem.bytes = s.mem.bytes ∧ u.mem.poison = s.mem.poison ∧
              u.host.barReads = some (s.readBytesWords p len) :: s.host.barReads
          | some l => BytesOutside (p / 16 * 16) ((p % 16 + n + 15) / 16) s u ∧
              ((∀ a, s.wordOffline a = false) → ∀ j b, l[j]? = some b → u.mem.bytes.get (fun _ => 0) (s.memKey (p + j)) = b)))) ∧
    (∀ (tag : Fin 4096) (t : TagSt), s.host.tags.get (fun _ => none) tag.val = some t → s.host.tagWait = [] →
      ((s.hostUp 0 = true ∨ 2 ≤ s.rd 0x5000 1) →
        Completes (.completionArrival tag) s (fun u => u.host.tags.get (fun _ => none) tag.val = none)) ∧
      (t.abandoned = false → t.issued + 1000 * s.rd 0x5000 7 ≤ s.now →
        Completes (.completionTimeout tag) s (fun u =>
          u.host.tags.get (fun _ => none) tag.val = none ∧ (u.eng t.engine).state = 2 ∧ (u.eng t.engine).err = 4
            ∧ Raises s u 0x0507 3 2 (engObj t.engine) ∧ Raises s u 0x0503 3 2 (engObj t.engine)))) ∧
    (∀ (f : Func) (e : Fin 64), s.seesEng f e.val = true →
      (∀ v : BitVec 32, Completes (.dmaTail f e v) s (fun u => (u.eng e.val).tail = v.toNat % (s.eng e.val).size)) ∧
      (∀ (base : BitVec 64) (log2 : Nat), (s.eng e.val).state = 0 → (s.eng e.val).run = false →
        Completes (.dmaRun f e base log2) s (fun u =>
          (u.eng e.val).run = true ∧ (u.eng e.val).state = 1 ∧ (u.eng e.val).head = 0 ∧ (u.eng e.val).tail = 0
            ∧ (u.eng e.val).base = base.toNat / 4096 * 4096 ∧ (u.eng e.val).log2 = log2 % 32)) ∧
      ((s.eng e.val).state = 1 → Completes (.dmaStop f e) s (fun u =>
        (u.eng e.val).run = false ∧ (u.eng e.val).state = (if (s.eng e.val).head = (s.eng e.val).tail then 0 else 1))) ∧
      ((s.eng e.val).state = 2 → Completes (.dmaRestart f e) s (fun u =>
        (u.eng e.val).state = 1 ∧ (u.eng e.val).head = ((s.eng e.val).head + 1) % (s.eng e.val).size))) ∧
    (∀ (e : Fin 64) (d : Descriptor) (data : List Byte) (bad : List Nat) (hostError : Bool), d.dataOk data = true → s.dev.por = false →
      (s.eng e.val).state = 1 → (s.eng e.val).head ≠ (s.eng e.val).tail → (s.eng e.val).asked = true → 2 ≤ s.rd 0x5000 1 →
      (d.malformed = true → Completes (.dmaDescriptorComplete e d data bad hostError) s (fun u =>
        (u.eng e.val).state = 2 ∧ (u.eng e.val).err = 1 ∧ Raises s u 0x0503 3 2 (engObj e.val)
          ∧ u.rd (engObj e.val) 0xA = min (s.rd (engObj e.val) 0xA + 1) (2 ^ 32 - 1))) ∧
      (d.malformed = false → s.dmaTarget e.val d ≠ 0 → Completes (.dmaDescriptorComplete e d data bad hostError) s (fun u =>
        (u.eng e.val).state = 2 ∧ (u.eng e.val).err = s.dmaTarget e.val d ∧ Raises s u 0x0503 3 2 (engObj e.val))) ∧
      (∀ p : Nat, d.malformed = false → s.dmaTarget e.val d = 0 → hostError = false → d.target = 0 →
        p = s.rd (winObj d.window) 2 + d.offset → p % 16 = 0 → p + d.length.toNat ≤ 2 ^ 35 → s.inZeroing p = false →
        (wordSpots p d.length.toNat).all s.memServes = true → (∀ a, s.wordOffline a = false) →
        (∀ a, s.mem.errs.get (fun _ => 0) a ≠ 2) → d.control.getLsbD 5 = false → d.control.getLsbD 4 = false →
        Completes (.dmaDescriptorComplete e d data bad hostError) s (fun u =>
          (u.eng e.val).head = ((s.eng e.val).head + 1) % (s.eng e.val).size
            ∧ u.rd (engObj e.val) 8 = (s.rd (engObj e.val) 8 + 1) % 2 ^ 64
            ∧ u.rd (engObj e.val) 9 = (s.rd (engObj e.val) 9 + d.length.toNat) % 2 ^ 64
            ∧ (d.d2h = false → ∀ j b, data[j]? = some b → u.mem.bytes.get (fun _ => 0) (s.memKey (p + j)) = b)
            ∧ (d.d2h = true → u.mem.bytes = s.mem.bytes ∧ u.mem.poison = s.mem.poison ∧ ∀ j < d.length.toNat,
                u.out.hostMem.get (fun _ => 0) (d.hostAddr.toNat + j) = s.mem.bytes.get (fun _ => 0) (s.memKey (p + j))))))

/-- R33, R35, R319 to R321: an enabled ring starts empty; HEAD releases records; a moderation window that closes sends the vector, or
marks it pending where it is masked (R299); a
claimed resource is held by the domain of its claimer, and a released one by nobody. -/
def Obligations.RingsAndClaimsComplete : Prop :=
  ∀ (s : State),
    (∀ (f : Func) (r : Fin 256), s.seesRing f r.val = true →
      (∀ (base : BitVec 64) (cfg mod fil : BitVec 32), (s.out.ring r.val).en = false → cfg.getLsbD 31 = true →
        Completes (.ringEnable f r base cfg mod fil) s (fun u =>
          (u.out.ring r.val).en = true ∧ (u.out.ring r.val).head = 0 ∧ (u.out.ring r.val).tail = 0 ∧ (u.out.ring r.val).used = 0
            ∧ (u.out.ring r.val).base = base.toNat / 4096 * 4096 ∧ (u.out.ring r.val).size = 2 ^ (cfg.toNat % 32)
            ∧ (u.out.ring r.val).moderation = mod.toNat ∧ (u.out.ring r.val).filter = fil.toNat &&& 0x33FFE)) ∧
      (∀ (v : BitVec 32) (k : Nat), 0 < k → k ≤ (s.out.ring r.val).used → k < (s.out.ring r.val).size →
        (s.out.ring r.val).head < (s.out.ring r.val).size → v.toNat = ((s.out.ring r.val).head + k) % (s.out.ring r.val).size →
        Completes (.ringHead f r v) s (fun u =>
          (u.out.ring r.val).head = v.toNat ∧ (u.out.ring r.val).used = (s.out.ring r.val).used - k))) ∧
    (∀ r : Fin 256, (s.out.ring r.val).en = true → (s.out.ring r.val).windowOver s.now = true →
      Completes (.moderationWindowClose r) s (fun u =>
        (u.out.ring r.val).unsignalled = 0 ∧
          (if s.out.masked (s.ringFunc r.val) (fieldAt (s.out.ring r.val).cfg 16 11) = true then
            u.out.msix = s.out.msix
              ∧ u.out.pba.get (fun _ => false) (2048 * s.ringFunc r.val + fieldAt (s.out.ring r.val).cfg 16 11) = true
          else u.out.msix = (s.ringFunc r.val, fieldAt (s.out.ring r.val).cfg 16 11) :: s.out.msix))) ∧
    (∀ (q : Req) (r : Resource), s.writeAbort q (resourceObj r) 1 1 1 = 0 →
      Completes (.resourceClaim q r) s (fun u =>
        u.rd (resourceObj r) 1 = 1 ∧ u.rd (resourceObj r) 2 =
          (match r with | .engine _ => pfCode (s.reqDomain q) | .ring _ => pfCode (s.reqDomain q) | _ => s.reqDomain q))) ∧
    (∀ (q : Req) (r : Resource), s.writeAbort q (resourceObj r) 1 1 0 = 0 →
      Completes (.resourceRelease q r) s (fun u =>
        u.rd (resourceObj r) 1 = 0 ∧ u.rd (resourceObj r) 2 = (match r with | .engine _ => 0xFFFF | .ring _ => 0xFFFF | _ => 0xFF)))

/-- R322 to R325, R330: a Function Level Reset of a VF, of PF0 or of a tenant PF, and DOMAIN_RESET; the end of a domain's reset with event
0x0505; the link's fall by PERST_N, hot reset or loss, with event 0x0502 (R325); its training
(R294; unless a self-test could not hand back the PHY, R538) and its power states. -/
def Obligations.ResetsAndLinkComplete : Prop :=
  ∀ (s : State),
    (∀ (f : Fin 8) (v : Fin 32) (c : Nat), c = 256 * (f.val + 1) + v.val + 1 → s.hostUp (f.val + 1) = true →
      s.rd (vfObj (f.val + 1) (v.val + 1)) 1 = 1 →
      Completes (.functionLevelResetVf f v) s (fun u =>
        u.tdi c = 0 ∧ Raises s u 0x0505 5 0 c ∧ ∀ e < 64, s.engUser e = c → u.rd (engObj e) 3 = 0xFFFF ∧ u.eng e = {})) ∧
    (s.hostUp 0 = true → Completes .functionLevelResetPf0 s (fun u =>
      u.box 0 = {} ∧ Raises s u 0x0505 5 0 0 ∧ ∀ e < 64, s.engUser e = 0 → u.eng e = {})) ∧
    (∀ n : Fin 8, s.hostUp (n.val + 1) = true →
      Completes (.functionLevelResetPf n) s (fun u => u.resetting (n.val + 1) = true)) ∧
    (∀ (q : Req) (f : Fin 9) (v : BitVec 8), s.writeAbort q (pfObj f.val) 5 1 v.toNat = 0 →
      Completes (.domainReset q f v) s (fun u => u.resetting f.val = true)) ∧
    (∀ f : Func, f.v.val = 0 → s.rd (pfObj f.f.val) 6 = 2 → s.resetOver (funcDomain (256 * f.f.val)) = true → s.cfg.reconfig = none →
      Completes (.flrDone f) s (fun u =>
        u.rd (pfObj f.f.val) 6 = 3 ∧ u.box f.f.val = {} ∧ Raises s u 0x0505 5 0 (256 * f.f.val))) ∧
    (s.dev.por = false → s.dev.perstLow = true →
      Completes .perstNRelease s (fun u => u.dev.perstLow = false ∧ u.host.released = some s.now)) ∧
    (s.dev.por = false → 2 ≤ s.rd 0x5000 1 →
      (s.dev.perstLow = false → Completes .perstN s (fun u =>
        u.dev.perstLow = true ∧ u.rd 0x5000 1 = 0 ∧ Raises s u 0x0502 0 1 0 ∧ ∀ f < 9, u.box f = {})) ∧
      Completes .hotReset s (fun u =>
        u.rd 0x5000 1 = 0 ∧ Raises s u 0x0502 0 1 0 ∧ u.host.barWait = [] ∧ ∀ f < 9, u.box f = {}) ∧
      Completes .linkLoss s (fun u =>
        u.rd 0x5000 1 = 0 ∧ Raises s u 0x0502 0 1 0 ∧ u.host.barWait = [] ∧ ∀ f < 9, u.box f = {}) ∧
      (∀ st : Fin 8, 2 ≤ st.val → Completes (.linkPowerStateChange st) s (fun u =>
        u.rd 0x5000 1 = st.val ∧ (6 ≤ st.val → u.rd (loopObj hostLoop) 2 = 0)))) ∧
    (∀ (w : BitVec 8) (rate : Fin 8) (flit : Bool), linkOk w rate = true → s.dev.por = false → s.dev.perstLow = false →
      s.rd 0x5000 1 < 2 → s.tst.stuck.contains (unitKey 4 0) = false →
      Completes (.linkTrainingDone w rate flit) s (fun u =>
        u.rd 0x5000 1 = 2 ∧ u.rd 0x5000 2 = w.toNat ∧ u.rd 0x5000 3 = rate.val
          ∧ u.rd 0x5000 4 = (flit || decide (6 ≤ rate.val)).toNat ∧ Raises s u 0x0502 0 0 0))

/-- R327 to R329: a key exchange starts a secured session; IDE_KM secures a stream in one; an integrity failure makes it insecure with
event 0x0508 and takes the TDIs bound to it to ERROR; TDISP locks, starts and unlocks a TDI. -/
def Obligations.LinkSecurityComplete : Prop :=
  ∀ (s : State),
    (∀ f : Fin 9, s.hostUp f.val = true →
      (s.rd 0x8000 3 = 1 → Completes (.spdmMessage f true) s (fun u => u.host.sessions.get (fun _ => false) f.val = true)) ∧
      Completes (.spdmMessage f false) s (fun u => u = s) ∧
      (s.host.sessions.get (fun _ => false) f.val = true →
        ∀ stream : Fin 9, Completes (.ideKm f stream) s (fun u => u.host.ide.get (fun _ => none) stream.val = some (f.val, true)))) ∧
    (∀ (stream : Fin 9) (f : Nat), s.host.ide.get (fun _ => none) stream.val = some (f, true) →
      Completes (.ideFailure stream) s (fun u =>
        u.host.ide.get (fun _ => none) stream.val = some (f, false) ∧ Raises s u 0x0508 5 2 (256 * f)
          ∧ ∀ c ∈ tdis, s.host.tdiStream.get (fun _ => 0) c = stream.val → (s.tdi c = 1 ∨ s.tdi c = 2) → u.tdi c = 3)) ∧
    (∀ (f : Func) (stream : Fin 9), s.hostUp f.f.val = true → s.host.sessions.get (fun _ => false) f.f.val = true → f.f.val ≠ 0 →
      (f.v.val = 0 ∨ s.rd (vfObj f.f.val f.v.val) 1 = 1) →
      (s.tdi (funcCode f) = 0 → stream.val ≠ 0 → Completes (.tdispMessage f .lock stream) s (fun u =>
        u.tdi (funcCode f) = 1 ∧ u.host.tdiStream.get (fun _ => 0) (funcCode f) = stream.val)) ∧
      (s.tdi (funcCode f) = 1 → Completes (.tdispMessage f .start stream) s (fun u => u.tdi (funcCode f) = 2)) ∧
      Completes (.tdispMessage f .stop stream) s (fun u =>
        u.tdi (funcCode f) = 0 ∧ u.host.tdiStream.get (fun _ => 0) (funcCode f) = 0))

/-! ### Energy Ledger, planner and power states -/

/-- R330, R334 to R336, R338, R339, R344, R355: a hop starts and ends; a trim moves its rail; a rail in fault halts the regions on it; an
overload is reported; THERM_N takes regions above their floors one rail down; calibration sets the next factors; the package limit follows
its sources. -/
def Obligations.RailsAndLimitsComplete : Prop :=
  ∀ (s : State),
    (∀ (r : Region) (target : Fin 3) (cause : Fin 6), (s.hop (rn r)).running = none →
      (s.hop (rn r)).waiting = some (target.val, cause.val) → s.copyRuns (rn r) = false →
      Completes (.railHop r target cause) s (fun u =>
        u.rd (enObj (rn r)) 2 = 4 ∧ (u.hop (rn r)).running = some (s.rd (enObj (rn r)) 2, target.val, cause.val)
          ∧ (u.hop (rn r)).waiting = none)) ∧
    (∀ (r : Region) (old target cause : Nat), (s.hop (rn r)).running = some (old, target, cause) →
      Completes (.railHopDone r) s (fun u =>
        u.rd (enObj (rn r)) 2 = target ∧ (u.hop (rn r)).running = none
          ∧ u.rd (enObj (rn r)) 7 = min (s.rd (enObj (rn r)) 7 + 1) (2 ^ 32 - 1) ∧ Raises s u 0x0304 1 0 (locRegion (rn r)))) ∧
    (∀ (die : Fin 2) (rail : Fin 3) (mv : Int), s.fwUp = true →
      (∀ t, s.led.trimAt.get (fun _ => none) (4 * die.val + rail.val) = some t → t + 100000 ≤ s.now) → -5 ≤ mv → mv ≤ 5 →
      (railNominal rail.val : Int) - 50 ≤ s.rd (railObj (4 * die.val + rail.val)) 1 + mv →
      s.rd (railObj (4 * die.val + rail.val)) 1 + mv ≤ (railNominal rail.val : Int) + 50 →
      Completes (.railTrim die rail mv) s (fun u =>
        (u.rd (railObj (4 * die.val + rail.val)) 1 : Int) = s.rd (railObj (4 * die.val + rail.val)) 1 + mv)) ∧
    (∀ (die : Fin 2) (rail : Fin 4) (mv : BitVec 16), s.dev.por = false → s.rd (railObj (4 * die.val + rail.val)) 5 ≠ 2 →
      (10 * mv.toNat < 9 * railNominal rail.val ∨ 11 * railNominal rail.val < 10 * mv.toNat) →
      Completes (.regulatorFault die rail mv) s (fun u =>
        u.rd (railObj (4 * die.val + rail.val)) 5 = 2 ∧ Raises s u 0x030C 3 3 (railObj (4 * die.val + rail.val))
          ∧ (rail.val ≠ 3 → ∀ n ∈ dieRegions die.val, s.onRail rail.val n = true → (u.reasons n).testBit 5 = true)
          ∧ (rail.val = 3 → ∀ i < 4, u.rd (islObj die.val i) 2 = 0))) ∧
    (∀ ma : BitVec 32, s.dev.por = false → 72000 ≤ ma.toNat → s.led.overStart ≠ some (s.now / 10 ^ 9) →
      Completes (.overLimit ma) s (fun u => Raises s u 0x030B 3 2 0x3000 ∧ u.led.overStart = some (s.now / 10 ^ 9) ∧ u.od = s.od)) ∧
    (∀ die : Fin 2, s.dev.thermLow = true → die.val ∉ s.led.thermDies →
      Completes (.thermalHop die) s (fun u =>
        Raises s u 0x030E 3 1 0x3000 ∧ die.val ∈ u.led.thermDies ∧ ∀ n ∈ dieRegions die.val, s.regState n ≠ 0 → s.rd 0x3000 0xA = 0 →
          s.hop n = {} → s.rd (enObj n) 2 < 3 → s.floorOf n < s.rd (enObj n) 2 →
          (u.hop n).waiting = some (s.rd (enObj n) 2 - 1, 2))) ∧
    (∀ (measured : Vector Nat 8) (rings : List (Region × Nat)), s.fwUp = true → s.led.calAt + 64 ≤ s.led.windows →
      Completes (.calibration measured rings) s (fun u =>
        u.led.calAt = s.led.windows ∧ u.led.m.ringNext = s.led.m.ringNext ++ rings.map (fun p => (rn p.1, p.2))
          ∧ ∀ k < 8, s.meterFold.led.m.cal.get (fun _ => 0) k ≠ 0 → ∀ r,
              r = measured.toList.getD k 0 * 10 ^ 9 * 65536 / s.meterFold.led.m.cal.get (fun _ => 0) k →
              (k, nextFactor (s.rd (railObj k) 3) r) ∈ u.led.calNext
                ∧ ((r < 52429 ∨ 81920 < r) → Raises s u 0x0309 3 1 (railObj k)))) ∧
    (∀ (value : BitVec 10) (scaleMw : Nat), s.dev.por = false → 2 ≤ s.rd 0x5000 1 →
      Completes (.setSlotPowerLimit value scaleMw) s (fun u =>
        u.rd 0x5000 5 = value.toNat * scaleMw % 2 ^ 32 ∧ u.rd 0x3000 2 = u.pkgLimit.1 ∧ Raises s u 0x0509 0 0 0)) ∧
    (∀ (q : Req) (v : BitVec 64), s.writeAbort q 0x3000 5 8 v.toNat = 0 →
      Completes (.reserveUjWrite q v) s (fun u =>
        u.rd 0x3000 5 = v.toNat ∧ u.rd 0x3000 2 = u.pkgLimit.1
          ∧ (v.toNat < s.rd 0x3000 6 → s.rd 0x3000 6 ≤ s.rd 0x3000 5 → Raises s u 0x030A 3 1 0x3000)))

/-- R36, R340 to R351: at a boundary every meter is priced (where the exchange at its instant is already made, what was counted before it),
each regulator's loss is shared, every account's charge becomes its last charge, its carry follows from the budget and the carry it brought
in, and the available energy is the effective budget with that carry; what was counted since the exchange belongs to the window that opens.
A collection, one at each 10 µs of the window, prices every meter and exhausts an account whose charge reaches its available energy; a
region's events of a class that scales with a rail cost COEFF times the rail factor times (V ÷ V_nominal)² times K; RESUME ends a HALT. -/
def Obligations.AccountsComplete : Prop :=
  ∀ (s : State),
    (∀ (temps : List (Region × Int)) (loss : Vector Nat 8) (vinf : Nat), s.fwUp = true →
      s.led.windowStart + s.rd 0x3000 1 ≤ s.now →
      Completes (.windowBoundary temps loss vinf) s (fun u =>
        u.led.windowStart = s.led.windowStart + s.rd 0x3000 1 ∧ (s.rd 0x3000 0xB = 1 → Raises s u 0x030D 3 0 0x3000)
          ∧ ∀ m, m = ((s.tempsRead temps).closingMeters.losses loss.toList).led.m →
            (∀ n < 64, u.rd (enObj n) 8 = m.region.get (fun _ => 0) n / 10 ^ 9 % 2 ^ 32
              ∧ u.rd (enObj n) 9 = m.leak.get (fun _ => 0) n / 10 ^ 9 % 2 ^ 32)
            ∧ ∀ a < 10, u.rd (accObj a) 0xB = m.acc.get (fun _ => 0) a / 10 ^ 9 % 2 ^ 64 ∧ u.rd (accObj a) 0xA = 0
              ∧ u.charged a = (if s.led.closing.isSome then s.charged a else 0)
              ∧ u.led.m.carry.get (fun _ => 0) a = clampTo (s.led.carryMax.get (fun _ => 0) a * 10 ^ 9)
                  ((s.rd (accObj a) 3 * 10 ^ 9 : Nat) + m.carry.get (fun _ => 0) a - ((m.acc.get (fun _ => 0) a : Nat) : Int))
              ∧ u.available a = (u.rd (accObj a) 3 * 10 ^ 9 : Nat) + u.led.m.carry.get (fun _ => 0) a)) ∧
    (∀ (temps : List (Region × Int)) (faults : List FrameFault), s.fwUp = true → s.led.grid < s.gridNow →
      s.now < s.led.windowStart + s.rd 0x3000 1 →
      Completes (.meterCollection temps faults) s (fun u => u.led.grid = s.gridNow ∧
        ∀ a < 10, ∀ v, v = (s.tempsRead temps).meterFold.charged a → u.charged a = v
          ∧ ((s.rd 0x3000 0xA ≠ 0 ∨ s.waitingItems = []) → u.rd (accObj a) 0xA = v / 10 ^ 9 % 2 ^ 64)
          ∧ (s.rd (accObj a) 1 ≠ 0 → a ∉ s.led.acted → s.available a ≤ (v : Int) →
              a ∈ u.led.acted ∧ Raises s u 0x0301 3 1 (accObj a)))) ∧
    (∀ (n cls k rail : Nat) (faults : List FrameFault), s.fwUp = true → s.led.grid < s.gridNow →
      s.now < s.led.windowStart + s.rd 0x3000 1 → n < 64 → cls < 32 → rail < 3 → s.fab.meter = ⟨[(32 * n + cls, k)]⟩ →
      s.loc.meter = ⟨[]⟩ → s.mem.meter = ⟨[]⟩ → s.host.meter = ⟨[]⟩ → s.pin.meter = ⟨[]⟩ → s.led.m.clock = s.led.m.leakFrom →
      (s.hop n).running = none → s.rd (enObj n) 2 = rail →
      Completes (.meterCollection [] faults) s (fun u => ∀ a < 10,
        u.charged a = s.charged a + (if a = accountOf (s.regOwner n) then
          k * s.rd 0x3300 cls * railFactor rail * s.rd (railObj (4 * (n / 32) + rail)) 1 ^ 2 * s.rd (railObj (4 * (n / 32) + rail)) 3
            / (100 * railNominal rail ^ 2 * 65536) else 0))) ∧
    (∀ (q : Req) (a : Fin 10) (v : BitVec 8), s.writeAbort q (accObj a.val) 8 1 v.toNat = 0 →
      Completes (.resume q a v) s (fun u =>
        if s.rd (accObj a.val) 0xC = 3 then
          u.rd (accObj a.val) 0xC = 0 ∧ Raises s u 0x0302 3 0 (accObj a.val)
            ∧ ∀ n ∈ s.regionsOf a.val, n ∉ s.led.faulted → s.rd (enObj n) 2 ≠ 3 → (u.reasons n).testBit 5 = false
        else u.od = s.od))

/-- R358 to R360: a scrub pass is posted at an empty place with its deadline, a POSTPONED pseudo-channel's refresh as committed; an item
at its latest start starts whatever the budget; a missed deadline is counted and reported once; a completed item sets its kind's next
cost and leaves its place empty. -/
def Obligations.PlannerComplete : Prop :=
  ∀ (s : State),
    (∀ item : PlanItem, s.fwUp = true → s.itemHeld item.kind.val item.ref = false → (∃ i < 256, s.itemState i = 0) →
      (item.kind.val = 1 → item.ref < 2 → s.rd 0x2000 1 = 4 → s.cfg.scrubStart.getD item.ref 0 = 0 →
        Completes (.plannerItemPost item) s (fun u => ∃ i < 256,
          s.itemState i = 0 ∧ u.itemState i = 1 ∧ u.itemKind i = 1 ∧ (u.item i).ref = item.ref
            ∧ u.rd (itemObj i) 5 = (s.now + 1000000 * s.rd 0x2800 1) % 2 ^ 64)) ∧
      (item.kind.val = 5 → item.ref < 64 → s.rd (pcRec item.ref) 1 = 1 →
        Completes (.plannerItemPost item) s (fun u => ∃ i < 256,
          s.itemState i = 0 ∧ u.itemState i = 2 ∧ u.itemKind i = 5 ∧ (u.item i).ref = item.ref))) ∧
    (∀ (i : Fin 256) (faults : List FrameFault), s.fwUp = true → s.planWaits i.val = true →
      max (s.itemLatest i.val) (s.item i.val).earliest ≤ s.now → s.itemClaim i.val = true →
      Completes (.plannerForced i faults) s (fun u =>
        u.itemState i.val = 2 ∧ u.rd 0x3400 2 = min (s.rd 0x3400 2 + 1) (2 ^ 32 - 1) ∧ Raises s u 0x0307 3 0 (itemObj i.val))) ∧
    (∀ i : Fin 256, s.itemState i.val = 1 → s.rd (itemObj i.val) 5 ≤ s.now →
      Completes (.deadlineMissed i) s (fun u =>
        u.itemState i.val = 3 ∧ u.rd 0x3400 3 = min (s.rd 0x3400 3 + 1) (2 ^ 32 - 1) ∧ Raises s u 0x0308 3 2 (itemObj i.val))) ∧
    (∀ (i : Fin 256) (m c b : BitVec 32), s.itemState i.val = 2 → s.itemOver i.val = true →
      Completes (.plannerItemComplete i m c b) s (fun u =>
        u.itemState i.val = 0 ∧ u.led.nextCost.get (fun _ => none) (s.itemKind i.val) =
          some ((3 * (s.led.nextCost.get (fun _ => none) (s.itemKind i.val)).getD (s.rd (itemObj i.val) 3) + m.toNat) / 4)))

/-- R362 to R364, R553, R554, R561, R562: standby takes the enabled lanes to IDLE, or OFF in STANDBY_GATED; every wake returns the device
to RUN; power-on reset clears everything but what OTP and the always-on domain hold, and its release samples MODE and starts the rails;
THERM_N follows the temperature; a shutdown holds the device in reset. -/
def Obligations.PowerStatesComplete : Prop :=
  ∀ (s : State),
    (∀ q : Req, s.rd 0x3000 0xA = 0 →
      (s.writeAbort q 0x3000 0xA 1 1 = 0 → Completes (.powerStateStandby q) s (fun u =>
        u.rd 0x3000 0xA = 1 ∧ ∀ k < 16, s.rd (laneObj k) 3 = 1 → s.rd (laneObj k) 2 ≠ 4 → u.rd (laneObj k) 2 = 1)) ∧
      (s.writeAbort q 0x3000 0xA 1 2 = 0 → Completes (.powerStateStandbyGated q) s (fun u =>
        u.rd 0x3000 0xA = 2 ∧ ∀ k < 16, s.rd (laneObj k) 3 = 1 → s.rd (laneObj k) 2 ≠ 4 → u.rd (laneObj k) 2 = 0))) ∧
    (∀ q : Req, s.writeAbort q 0x3000 0xA 1 0 = 0 → Completes (.powerStateRun q) s (fun u => u.rd 0x3000 0xA = 0)) ∧
    (s.fwUp = true → Completes .deviceWake s (fun u => u.rd 0x3000 0xA = 0)) ∧
    (∀ mode : Fin 8, s.dev.por = true → s.dev.shutdown = false →
      Completes (.powerOnResetRelease mode) s (fun u =>
        u.dev.por = false ∧ u.rd 0x2000 2 = mode.val ∧ (5 ≤ mode.val → Raises s u 0x0109 3 3 0x2000)
          ∧ (s.dev.tamperLow = false → ∀ k < 8, u.rd (railObj k) 1 = railNominal (k % 4) ∧ u.rd (railObj k) 5 = 1))) ∧
    (∀ vccaoLost : Bool, Completes (.powerOnResetAssert vccaoLost) s (fun u =>
      u.dev.por = true ∧ u.fab = {} ∧ u.mem = {} ∧ u.loc = {} ∧ u.led = {} ∧ u.cfg = {} ∧ u.out.seq = 0
        ∧ (∀ n < 64, u.rd (regObj n) 2 = 0) ∧ u.sec.fused = s.sec.fused ∧ u.rd 0x8000 2 = s.rd 0x8000 2
        ∧ u.dev.tamperLatch = (s.dev.tamperLatch && !vccaoLost))) ∧
    (∀ celsius : Int, s.dev.por = false →
      (100 ≤ celsius → Completes (.thermN celsius) s (fun u => u.dev.thermLow = true)) ∧
      (celsius < 95 → Completes (.thermN celsius) s (fun u => u.dev.thermLow = false)) ∧
      (110 ≤ celsius → Completes (.hardShutdown celsius) s (fun u => u.dev.shutdown = true ∧ u.dev.por = true))) ∧
    (s.dev.shutdown = true → Completes .shutdownRecovery s (fun u => u.dev.shutdown = false ∧ u.dev.por = s.dev.por))

/-! ### Configuration -/

/-- R384, R386, R388, R390, R392, R394 to R398: once the Annulus runs, loading begins with event 0x0101 unless something holds CFG_INIT_N
low, and then when nothing holds it; a container that passes the checks is committed and one that fails a check is rejected by the event of
that check (an image that flash does not hold fails the first); a lost fetch fails the load; startup releases GSR and enables the pins; DONE_TIMEOUT fails the image; ACCEPT ends the wait
for acceptance and its timeout falls back; CFG_PROG_N and RESTART begin a reconfiguration; a follower counts and forwards its stream. -/
def Obligations.FullLoadsComplete : Prop :=
  ∀ (s : State),
    (∀ (table : Option ImageTable) (held : Bool), s.fwUp = true → s.annulusUp = true → s.rd 0x2000 1 = 0 → s.dev.bootHeld = false →
      s.dev.mode < 5 → s.cfg.reconfig = none →
      (held = true → Completes (.annulusRunning table held) s (fun u => u.rd 0x2000 1 = 0 ∧ u.dev.bootHeld = true)) ∧
      (held = false → ({ s with dev := { s.dev with extInitLow := false } } : State).step4Waits = false →
        Completes (.annulusRunning table held) s (fun u => u.rd 0x2000 1 = 1 ∧ Raises s u 0x0101 3 0 0x2000))) ∧
    (s.dev.bootHeld = true → s.dev.mode < 5 → ({ s with dev := { s.dev with extInitLow := false } } : State).step4Waits = false →
      Completes .cfgInitNRelease s (fun u =>
        u.rd 0x2000 1 = 1 ∧ u.dev.bootHeld = false ∧ u.dev.extInitLow = false ∧ Raises s u 0x0101 3 0 0x2000)) ∧
    (∀ (c c' : Container) (readbackOk : Bool) (t t' : State), s.fullRuns = true → c' = { c with headerOk := c.headerOk && s.imageThere } →
      t = (let s0 := if s.fromHost then s.wr (loadObj 0) 7 (c.bytes % 2 ^ 32) else s
           if s0.cfg.tried < 4 ∧ c.headerOk = true ∧ s.imageThere = true then s0.wr (imageObj s0.cfg.tried) 3 c.version.toNat else s0) →
      t' = t.each (fun u n => u.stageBank c n (u.activeBank n)) c.targets →
      (firstReject [t.stageReject c' true 0x2000 0x0380 (if s.fromHost then (s.load 0).owner else 1),
          t.commitReject (t.loaded c) c 0x2000 0x0380] = none → readbackOk = true → t'.banksPoison t'.activeBank c.targets = none →
        Completes (.fullLoadCommit c readbackOk) s (fun u =>
          u.rd 0x2000 1 = 2 ∧ u.rd 0x2000 0xA = c.version.toNat ∧ u.dev.doneLow = false ∧ u.cfg.counter = c.counter.val)) ∧
      (∀ r, firstReject [t.stageReject c' true 0x2000 0x0380 (if s.fromHost then (s.load 0).owner else 1),
          t.commitReject (t.loaded c) c 0x2000 0x0380] = some r →
        Completes (.fullLoadCommit c readbackOk) s (fun u =>
          Raises s u r.1 r.2.1 2 r.2.2.1 ∧ (s.fromHost = true → u.rd 0x2000 1 = 5 ∧ u.rd (loadObj 0) 6 = r.1)))) ∧
    (∀ (die : Fin 2) (fa : BitVec 16) (off : BitVec 32), s.fullRuns = true →
      Completes (.fetchLost die fa off) s (fun u => Raises s u 0x0102 3 2 0x2000 ∧
        u.rd 0x2000 1 = (if s.fromFlash = true ∧ s.cfg.tried ≠ 0 ∧ s.cfg.tried < 4 then 1 else 5))) ∧
    (s.rd 0x2000 1 = 2 → s.dev.doneLow = false → Completes .startup s (fun u =>
      u.rd 0x2000 1 = 4 ∧ u.rd 0x2000 7 = 1 ∧ u.fab.gsr = false ∧ u.pin.enabled = true ∧ Raises s u 0x0110 3 0 0x2000)) ∧
    (s.leads = true → s.rd 0x2000 1 = 2 → s.cfg.doneAt + 1000000 * s.rd 0x2000 8 ≤ s.now →
      Completes .doneTimeout s (fun u => Raises s u 0x010A 3 2 0x2000 ∧
        u.rd 0x2000 1 = (if s.fromFlash = true ∧ s.cfg.tried ≠ 0 ∧ s.cfg.tried < 4 then 1 else 5))) ∧
    (∀ (q : Req) (v : BitVec 8) (otp : OtpResult), s.writeAbort q 0x2000 5 1 v.toNat = 0 →
      (s.cfg.accepting = true → s.now < s.rd 0x2000 6 → Completes (.accept q v otp) s (fun u =>
        u.rd 0x2000 6 = 0 ∧ u.cfg.accepting = false ∧ Raises s u 0x010D 3 0 0x2000)) ∧
      (s.cfg.accepting = false → Completes (.accept q v otp) s (fun u => u.rd 0x2000 1 = s.rd 0x2000 1 ∧ u.fab = s.fab))) ∧
    (s.cfg.accepting = true → s.rd 0x2000 6 ≤ s.now → Completes .acceptTimeout s (fun u =>
      Raises s u 0x0108 3 2 0x2000 ∧ u.cfg.accepting = false ∧ (s.fromFlash = true → 1 ≤ s.rd 0x2000 3 → s.rd 0x2000 3 ≤ 3 →
        u.rd 0x2000 4 = 0 ∧ Raises s u 0x0104 3 1 0x2000))) ∧
    (s.dev.por = false → s.fwUp = true → s.cfg.reconfig = none →
      Completes .cfgProgN s (fun u => u.cfg.reconfig = some 0 ∨ (u.cfg.reconfig = none ∧ Raises s u 0x0111 3 1 0x2000))) ∧
    (∀ (q : Req) (v : BitVec 8), s.writeAbort q 0x2000 9 1 v.toNat = 0 → s.cfg.reconfig = none →
      Completes (.restart q v) s (fun u => u.cfg.reconfig = some 1 ∨ (u.cfg.reconfig = none ∧ Raises s u 0x0111 3 1 0x2000))) ∧
    (∀ (f : KFrame) (first : Option Nat), s.dev.por = false → (s.rd 0x1010 5).testBit 0 = true → f.cmd = 5 →
      (f.crcOk = false ∨ f.cut = true → Completes (.cfgStream f first) s (fun u =>
        u.rd 0x1010 9 = min (s.rd 0x1010 9 + 1) (2 ^ 32 - 1) ∧ u.fab = s.fab ∧ u.cfg = s.cfg)) ∧
      (f.crcOk = true → f.cut = false → f.hops < 63 → s.dev.mode = 2 → (s.rd 0x1010 5).testBit 1 = true → s.mgt.cfgFwd = true →
        s.mgt.heldCfg = none → first = none →
        Completes (.cfgStream f first) s (fun u => u.mgt.heldCfg = some { f with hops := f.hops + 1 } ∧ u.cfg = s.cfg)) ∧
      (∀ k, f.crcOk = true → f.cut = false → f.hops < 63 → s.dev.mode = 2 → first = some k →
        Completes (.cfgStream f first) s (fun u => u.mgt.cfgRemain = k ∧ (k + 1 = s.mgt.cfgRemain → u.cfg = s.cfg ∧ u.mgt.cfgFwd = true)
          ∧ (k + 1 ≠ s.mgt.cfgRemain → (s.rd 0x2000 1 = 1 ∨ s.rd 0x2000 1 = 2 ∨ s.rd 0x2000 1 = 5) →
              u.rd 0x2000 1 = 1 ∧ u.mgt.cfgTaking = true ∧ u.mgt.cfgFwd = false))))

/-- R400 to R404: LOAD_GO begins staging; a container that fails a check is rejected by that check's event and one that passes closes
the fences of its targets; with every target FENCED the load commits the banks that it staged (R399, R420),
unless its routing no longer passes. -/
def Obligations.PartialLoadsComplete : Prop :=
  ∀ (s : State) (die : Fin 2) (d : Nat), d = die.val →
    (∀ (q : Req) (v : BitVec 8), s.writeAbort q (loadObj d) 4 1 v.toNat = 0 → Completes (.loadGo q die v) s (fun u =>
      u.loadState d = 1 ∧ u.rd (loadObj d) 7 = 0 ∧ (u.load d).owner = s.reqDomain q ∧ (u.load d).targets = [])) ∧
    (∀ (c : Container) (t : State), s.rd 0x2000 1 = 4 → s.loadState d = 1 → s.stageWaits d c = false →
      t = (s.faSpent c).wr (loadObj d) 7 (c.bytes % 2 ^ 32) →
      (firstReject [t.stageReject c false (loadObj d) (s.faOf c) (t.load d).owner,
          t.commitReject (t.loaded c) c (loadObj d) (s.faOf c)] = none →
        Completes (.partialStaging die c) s (fun u => u.loadState d = 2 ∧ (u.load d).targets = c.targets
          ∧ (u.load d).cont = some c ∧ (∀ n ∈ c.targets, (u.reasons n).testBit 1 = true))) ∧
      (∀ r, firstReject [t.stageReject c false (loadObj d) (s.faOf c) (t.load d).owner,
          t.commitReject (t.loaded c) c (loadObj d) (s.faOf c)] = some r →
        Completes (.partialStaging die c) s (fun u =>
          u.loadState d = 5 ∧ u.rd (loadObj d) 6 = r.1 ∧ Raises s u r.1 r.2.1 2 r.2.2.1))) ∧
    (∀ (fa : BitVec 16) (off : BitVec 32), s.rd 0x2000 1 = 4 → s.loadState d = 1 →
      Completes (.fetchLost die fa off) s (fun u =>
        u.loadState d = 5 ∧ u.rd (loadObj d) 6 = 0x0102 ∧ Raises s u 0x0102 3 2 (loadObj d))) ∧
    (∀ (c : Container) (bad : Option (BitVec 16)) (otp : OtpResult), (s.load d).cont = some c → s.loadState d = 2 →
      s.targetsFenced d = true →
      ((s.faSpent c).routeReject ((s.faSpent c).loaded c) c (loadObj d) (s.faOf c) = none →
        (bad = none → (s.faSpent c).banksPoison (fun n => 1 - (s.faSpent c).activeBank n) c.targets = none →
          Completes (.partialCommit die bad otp) s (fun u =>
          u.loadState d = 4 ∧ u.rd (loadObj d) 6 = 0x010B ∧ Raises s u 0x010B 3 0 (loadObj d))) ∧
        (∀ f k, bad = some f → (s.faSpent c).toRestore c f.toNat = some k →
          Completes (.partialCommit die bad otp) s (fun u =>
            u.loadState d = 5 ∧ u.rd (loadObj d) 6 = 0x0107 ∧ Raises s u 0x0107 3 2 (loadObj d)))) ∧
      (∀ r, (s.faSpent c).routeReject ((s.faSpent c).loaded c) c (loadObj d) (s.faOf c) = some r →
        Completes (.partialCommit die bad otp) s (fun u =>
          u.loadState d = 5 ∧ u.rd (loadObj d) 6 = r.1 ∧ Raises s u r.1 r.2.1 2 r.2.2.1)))

/-! ### Integrity and snapshots -/

/-- R411, R412, R424 to R427: a scrub pass that ends is counted and the regions it read clean get LAST_CLEAN; OP 1 and OP 2 close the
fences of their set; with every member FENCED a snapshot fails on a flip and else becomes the slot's contents, and a rollback restores
every member, or fails on an image (R427: one whose check fails,
or one that reads as POISON) and empties the slot. -/
def Obligations.ScrubAndSnapshotsComplete : Prop :=
  ∀ (s : State),
    (∀ (die : Fin 2) (t0 : Nat), s.cfg.scrubStart.getD die.val 0 = t0 + 1 → Completes (.scrubPassEnd die) s (fun u =>
      u.rd (scrubObj die.val) 1 = (s.rd (scrubObj die.val) 1 + 1) % 2 ^ 64 ∧ u.rd (scrubObj die.val) 2 = s.now
        ∧ ∀ n ∈ dieRegions die.val, u.rd (intObj n) 7 =
            (if s.scrubbed n = true ∧ n ∉ s.cfg.scrubDirty then s.now else s.rd (intObj n) 7))) ∧
    (∀ (q : Req) (k : Fin 64),
      (s.writeAbort q (slotObj k.val) 7 1 1 = 0 → Completes (.snapshot q k 1) s (fun u =>
        u.rd (slotObj k.val) 8 = 2 ∧ (u.slot k.val).members = s.slotSet k.val
          ∧ u.rd 0x2800 2 = s.rd 0x2800 2 - (s.slotSet k.val).length ∧ ∀ n ∈ s.slotSet k.val, (u.reasons n).testBit 2 = true)) ∧
      (s.writeAbort q (slotObj k.val) 7 1 2 = 0 → Completes (.rollback q k 2) s (fun u =>
        u.rd (slotObj k.val) 8 = 3 ∧ (u.slot k.val).members = (s.slot k.val).held
          ∧ ∀ n ∈ (s.slot k.val).held, (u.reasons n).testBit 3 = true))) ∧
    (∀ (k : Fin 64) (faults : List FrameFault), s.rd (slotObj k.val) 8 = 2 → s.slotFenced k.val 2 = true →
      (∀ (poison : Option Region) (n : Nat), (s.checkFrames false (s.slot k.val).members faults).2.2 = some n →
        Completes (.snapshotCopy k faults poison) s (fun u => Raises s u 0x0206 3 1 (slotObj k.val))) ∧
      ((s.checkFrames false (s.slot k.val).members faults).2.2 = none →
        (∀ r : Region, rn r ∈ (s.slot k.val).members →
          Completes (.snapshotCopy k faults (some r)) s (fun u => Raises s u 0x0206 3 1 (slotObj k.val))) ∧
        Completes (.snapshotCopy k faults none) s (fun u => Raises s u 0x0205 3 0 (slotObj k.val) ∧
          (s.cfg.acts = [] → (∀ f ≤ 8, s.rd (pfObj f) 6 ≠ 1) →
            u.rd (slotObj k.val) 8 = 1 ∧ u.rd (slotObj k.val) 9 = s.snapTaken k.val ∧ (u.slot k.val).held = (s.slot k.val).members)))) ∧
    (∀ (k : Fin 64) (faults : List FrameFault), s.rd (slotObj k.val) 8 = 3 → s.slotFenced k.val 3 = true →
      ((s.checkFrames true (s.slot k.val).members faults).1.imagePoison k.val = none →
       Completes (.rollbackRestore k faults none) s (fun u => Raises s u 0x0207 3 0 (slotObj k.val) ∧
        (s.cfg.acts = [] → (∀ f ≤ 8, s.rd (pfObj f) 6 ≠ 1) → u.rd (slotObj k.val) 8 = 1 ∧ (u.slot k.val).held = (s.slot k.val).held))) ∧
      (∀ p, (s.checkFrames true (s.slot k.val).members faults).1.imagePoison k.val = some p →
        Completes (.rollbackRestore k faults none) s (fun u =>
          Raises s u 0x0208 3 2 (slotObj k.val) ∧ u.rd (slotObj k.val) 8 = 0 ∧ (u.slot k.val).images = [])) ∧
      (∀ (r : Region) (poison : Bool), rn r ∈ (s.slot k.val).members →
        Completes (.rollbackRestore k faults (some (r, poison))) s (fun u =>
          Raises s u 0x0208 3 2 (slotObj k.val) ∧ u.rd (slotObj k.val) 8 = 0 ∧ (u.slot k.val).images = [])))

/-! ### Sebex, tamper and JTAG -/

/-- R435, R437 to R439, R448, R464, R465 of the OTP and R565: the keys are derived or their derivation fails; a write of a hash, a policy
or OWNER_CEK programs its bits, or reports the fault and is aborted; a slot is revoked; a pending counter value is programmed on its
retry; the DRBG is reseeded, and a health test that fails stops it. -/
def Obligations.KeysAndProgrammingComplete : Prop :=
  ∀ (s : State),
    (∀ (failing : Option (Fin 2)) (cekOk : Bool), s.dev.por = false → s.dev.keysDue = true → s.dev.tamperLow = false →
      Completes (.keyDerivation failing cekOk) s (fun u => u.dev.keysDue = false ∧
        match failing with
        | none => u.rd 0x8000 3 = 1 ∧ (s.rd 0x8000 0xC ≠ 0 → u.rd 0x8000 0xC = (if cekOk = true ∧ s.isRma = false then 1 else 2))
        | some _ => u.rd 0x8000 3 = 2 ∧ Raises s u 0x090D 3 3 0x8000)) ∧
    (∀ (q : Req) (k : Fin 4) (v : BitVec 384) (otp : OtpResult), s.writeAbort q (0x8010 + k.val) 1 48 v.toNat = 0 →
      (otp = .ok → Completes (.ecHashWrite q k v otp) s (fun u => u.mgt.resp.abort = 0 ∧
        u.rd (0x8010 + k.val) 1 = s.rd (0x8010 + k.val) 1 ||| v.toNat ∧ (k.val ∈ s.sec.wroteMl → u.rd (0x8010 + k.val) 3 = 1))) ∧
      (otp ≠ .ok → s.rd (0x8010 + k.val) 1 ||| v.toNat ≠ s.rd (0x8010 + k.val) 1 → Completes (.ecHashWrite q k v otp) s (fun u =>
        u.mgt.resp.abort = abortState ∧ u.rd (0x8010 + k.val) 3 = s.rd (0x8010 + k.val) 3 ∧ Raises s u 0x0909 3 2 0x8000))) ∧
    (∀ (q : Req) (k : Fin 4) (v : BitVec 384) (otp : OtpResult), s.writeAbort q (0x8010 + k.val) 2 48 v.toNat = 0 →
      (otp = .ok → Completes (.mlHashWrite q k v otp) s (fun u => u.mgt.resp.abort = 0 ∧
        u.rd (0x8010 + k.val) 2 = s.rd (0x8010 + k.val) 2 ||| v.toNat ∧ (k.val ∈ s.sec.wroteEc → u.rd (0x8010 + k.val) 3 = 1))) ∧
      (otp ≠ .ok → s.rd (0x8010 + k.val) 2 ||| v.toNat ≠ s.rd (0x8010 + k.val) 2 → Completes (.mlHashWrite q k v otp) s (fun u =>
        u.mgt.resp.abort = abortState ∧ u.rd (0x8010 + k.val) 3 = s.rd (0x8010 + k.val) 3 ∧ Raises s u 0x0909 3 2 0x8000))) ∧
    (∀ (q : Req) (k : Fin 4) (v : BitVec 8) (otp : OtpResult), s.writeAbort q (0x8010 + k.val) 4 1 v.toNat = 0 →
      Completes (.keyRevoked q k v otp) s (fun u =>
        if otp = .ok then u.rd (0x8010 + k.val) 3 = 2 ∧ Raises s u 0x090B 3 1 (0x8010 + k.val)
        else u.rd (0x8010 + k.val) 3 = s.rd (0x8010 + k.val) 3 ∧ u.mgt.resp.abort = abortState ∧ Raises s u 0x0909 3 2 0x8000)) ∧
    (∀ (q : Req) (f : OtpField) (v : BitVec 256) (otp : OtpResult) (idx sub len field : Nat), otpPlace f = (idx, sub, len, field) →
      s.writeAbort q idx sub len (v.toNat % 256 ^ len) = 0 → otp = .ok → Completes (.policyOtpWrite q f v otp) s (fun u =>
        u.rd idx sub = s.rd idx sub ||| (v.toNat % 256 ^ len) ∧ u.mgt.resp.abort = 0)) ∧
    (∀ (q : Req) (blob : List Byte) (unwrapOk : Bool) (otp : OtpResult), s.writeAbort q 0x8000 0xB blob.length unwrapOk.toNat = 0 →
      otp = .ok → Completes (.ownerCekBlobWrite q blob unwrapOk otp) s (fun u => u.rd 0x8000 0xC = 1 ∧ u.mgt.resp.abort = 0)) ∧
    (∀ (c : Fin 64) (otp : OtpResult), s.dev.por = false → s.ctrFused c.val < s.ctrPending c.val →
      s.sec.retryAt.get (fun _ => 0) c.val ≤ s.now →
      Completes (.counterRetry c otp) s (fun u =>
        if otp = .ok then u.ctrFused c.val = s.ctrPending c.val ∧ u.ctrPending c.val = 0 ∧ Raises s u 0x0906 3 0 0x8020
        else u.out = s.out ∧ u.sec.retryAt.get (fun _ => 0) c.val = s.now + 10 ^ 9 ∧ u.ctrValue c.val = s.ctrValue c.val)) ∧
    (s.sec.drbgLive = true → (2 ^ 20 ≤ s.sec.drbgRequests ∨ s.sec.reseededAt + 10 ^ 10 ≤ s.now) →
      Completes .drbgReseed s (fun u => u.sec.drbgRequests = 0 ∧ u.sec.reseededAt = s.now)) ∧
    (∀ test : Fin 3, s.dev.por = false → s.rd 0x8000 8 = (if test.val = 0 then 0 else 1) →
      Completes (.entropyFail test) s (fun u => u.rd 0x8000 8 = 2 ∧ Raises s u 0x090A 3 3 0x8000))

/-- R435, R453, R455, R458, R459, R469: a nonce starts a quote, which becomes READY with its body once Sebex has its device keys; a token buffer takes octets, is judged by
R458 when it is submitted and emptied either way; a token ends when it is revoked or expires. -/
def Obligations.QuotesAndTokensComplete : Prop :=
  ∀ (s : State) (d : BitVec 4),
    (∀ (q : Req) (v : BitVec 256), s.writeAbort q (quoteObj d.toNat) 1 32 v.toNat = 0 → Completes (.nonce q d v) s (fun u =>
      u.rd (quoteObj d.toNat) 1 = v.toNat ∧ u.rd (quoteObj d.toNat) 2 = 1 ∧ u.rd (quoteObj d.toNat) 3 = 0)) ∧
    (d.toNat ∈ tokenDomains → s.rd (quoteObj d.toNat) 2 = 1 → s.keysReady = true → Completes (.quoteReady d) s (fun u =>
      u.rd (quoteObj d.toNat) 2 = 2 ∧ u.rd (quoteObj d.toNat) 3 = s.quoteBody d.toNat)) ∧
    (∀ (q : Req) (bytes : List Byte), s.writeAbort q (tokObj d.toNat) 2 bytes.length 0 = 0 →
      Completes (.tokenAppend q d bytes) s (fun u => u.tokBuf d.toNat = s.tokBuf d.toNat ++ bytes ∧ u.od = s.od)) ∧
    (∀ (q : Req) (x t : DebugToken), s.writeAbort q (tokObj d.toNat) 3 1 1 = 0 → t = tokenFrom (s.tokBuf d.toNat) x →
      Completes (.tokenSubmit q d 1 x) s (fun u => u.tokBuf d.toNat = [] ∧
        if s.tokenReason d.toNat t = 0 then
          u.rd (tokObj d.toNat) 4 = 1 ∧ u.rd (tokObj d.toNat) 5 = t.scope.toNat
            ∧ u.rd (tokObj d.toNat) 6 = s.now + t.durationS * 10 ^ 9 ∧ Raises s u 0x0903 3 1 (tokObj d.toNat)
        else u.rd (tokObj d.toNat) 4 = s.rd (tokObj d.toNat) 4 ∧ u.sec.lastReject = s.tokenReason d.toNat t
          ∧ u.rd (tokObj d.toNat) 8 = min (s.rd (tokObj d.toNat) 8 + 1) (2 ^ 32 - 1) ∧ Raises s u 0x0904 3 1 (tokObj d.toNat))) ∧
    (∀ q : Req, s.writeAbort q (tokObj d.toNat) 3 1 2 = 0 →
      Completes (.tokenDiscard q d 2) s (fun u => u.tokBuf d.toNat = [] ∧ u.od = s.od)) ∧
    (∀ (q : Req) (v : BitVec 8), s.writeAbort q (tokObj d.toNat) 7 1 v.toNat = 0 → Completes (.tokenRevoke q d v) s (fun u =>
      if s.rd (tokObj d.toNat) 4 = 1 then u.rd (tokObj d.toNat) 4 = 0 ∧ Raises s u 0x0905 3 0 (tokObj d.toNat) else u.od = s.od)) ∧
    (d.toNat ∈ tokenDomains → s.rd (tokObj d.toNat) 4 = 1 → s.rd (tokObj d.toNat) 6 ≤ s.now →
      Completes (.tokenExpiry d) s (fun u => u.rd (tokObj d.toNat) 4 = 0 ∧ Raises s u 0x0905 3 0 (tokObj d.toNat)))

/-- R466 to R468: detection sets the latch and counts, and with power present takes the tamper response: keys zeroised, TAMPER set on
every region, event 0x0902; TAMPER_ACK clears the latch. -/
def Obligations.TamperCompletes : Prop :=
  ∀ (s : State),
    (s.dev.tamperLow = false →
      Completes .tamper s (fun u => u.dev.tamperLow = true ∧ u.dev.tamperLatch = true ∧ u.rd 0x8050 2 = 0
        ∧ u.rd 0x8050 5 = min (s.rd 0x8050 5 + 1) (2 ^ 32 - 1) ∧ (s.dev.por = true → u.rd 0x8050 3 = 0)
        ∧ (s.dev.por = false → u.rd 0x8050 3 = s.now ∧ (s.tamperActive = false →
            u.rd 0x8050 1 = 1 ∧ u.rd 0x8000 3 = 3 ∧ u.sec.packageKey = false ∧ u.dev.keysDue = false
              ∧ Raises s u 0x0902 3 3 0x8050 ∧ (∀ n < 64, (u.reasons n).testBit 7 = true))))) ∧
    (∀ (q : Req) (v : BitVec 8), s.writeAbort q 0x8050 4 1 v.toNat = 0 →
      Completes (.tamperAck q v) s (fun u => u.dev.tamperLatch = false ∧ u.rd 0x8050 1 = 0)) ∧
    (s.dev.tamperLow = true → Completes .tamperNRelease s (fun u => u.dev.tamperLow = false ∧ u.rd 0x8050 2 = 1))

/-- R460 to R463, R563: each JTAG instruction takes its place with the data register that it captures; HIGHZ, CLAMP and EXTEST take the
pins, with event 0x090C while they have a FUNC and under JTAG_EXTEST_LOCK not at all; a gated instruction without its scope selects
BYPASS. -/
def Obligations.JtagCompletes : Prop :=
  ∀ (s : State),
    (∀ capture : BitVec 120, Completes (.samplePreload capture) s (fun u =>
      u.dev.ir = 1 ∧ u.dev.dr = capture.toNat ∧ u.dev.bscan = capture ∧ u.dev.irOut = s.irCapture)) ∧
    Completes .idcode s (fun u => u.dev.ir = 2 ∧ u.dev.dr = 0x14096357 ∧ u.od = s.od) ∧
    (∀ cells : BitVec 120,
      (s.pinsLive = true → (s.rd 0x8000 5).testBit 3 = true →
        Completes .highz s (fun u => u.dev.ir = 0xFF ∧ u.pin.jtag = false) ∧ Completes .clamp s (fun u => u.dev.ir = 0xFF ∧ u.pin.jtag = false)
          ∧ Completes (.extest cells) s (fun u => u.dev.ir = 0xFF ∧ u.pin.jtag = false)) ∧
      ((s.pinsLive = true → (s.rd 0x8000 5).testBit 3 = false) →
        Completes .highz s (fun u => u.dev.ir = 3 ∧ u.pin.jtag = true ∧ (s.pinsLive = true → Raises s u 0x090C 3 1 0x8000)) ∧
        Completes .clamp s (fun u => u.dev.ir = 4 ∧ u.pin.jtag = true ∧ (s.pinsLive = true → Raises s u 0x090C 3 1 0x8000)) ∧
        Completes (.extest cells) s (fun u =>
          u.dev.ir = 6 ∧ u.pin.jtag = true ∧ u.dev.bscan = cells ∧ (s.pinsLive = true → Raises s u 0x090C 3 1 0x8000)))) ∧
    (∀ owner : BitVec 8, Completes (.dbgChallenge owner) s (fun u => u.dev.ir = 0x10 ∧ u.od = s.od ∧
      (owner.toNat ∈ tokenDomains → u.dev.dr = owner.toNat + 256 * s.rd (tokObj owner.toNat) 1))) ∧
    (∀ t : DebugToken, s.dev.por = false → t.domain < 256 → Completes (.dbgToken t) s (fun u => u.dev.ir = 0x11 ∧
      (t.domain ∈ tokenDomains → s.tokenReason t.domain t = 0 →
        u.rd (tokObj t.domain) 4 = 1 ∧ u.rd (tokObj t.domain) 5 = t.scope.toNat ∧ Raises s u 0x0903 3 1 (tokObj t.domain)) ∧
      ((t.domain ∉ tokenDomains ∨ s.tokenReason t.domain t ≠ 0) →
        u.rd (tokObj t.domain) 4 = s.rd (tokObj t.domain) 4 ∧ Raises s u 0x0904 3 1 (tokObj t.domain)))) ∧
    Completes .dbgStatus s (fun u => u.dev.ir = 0x12 ∧ u.od = s.od ∧
      (∀ d ∈ tokenDomains, u.dev.dr.testBit d = decide (s.rd (tokObj d) 4 = 1))) ∧
    (∀ r : Region, Completes (.stateRead r) s (fun u =>
      u.dev.ir = (if s.jtagMay (s.regOwner (rn r)) 1 = true then 0x20 else 0xFF) ∧ u.od = s.od ∧ u.fab = s.fab)) ∧
    Completes .apexAccess s (fun u => u.dev.ir = (if s.jtagMay 1 2 = true then 0x21 else 0xFF)) ∧
    (s.dev.por = false → s.jtagMay 1 3 = true → Completes .rmaEnter s (fun u =>
      u.dev.ir = 0x30 ∧ u.rd 0x8000 2 = 2 ∧ u.rd 0x8000 3 = 3 ∧ Raises s u 0x0902 3 3 0x8050 ∧ Raises s u 0x090E 3 3 0x8000)) ∧
    Completes .bypass s (fun u => u.dev.ir = 0xFF ∧ u.dev.dr = 0 ∧ u.pin.jtag = false ∧ u.od = s.od)

/-! ### Apex, the prime die, user objects and the Kimbe chain -/

/-- R471, R474 to R476: the ROM runs the first flash image that verifies, FAILED where none does, and waits for the host in host modes;
FW_GO runs the host's image; Apex wakes, goes back to sleep, and restarts when its watchdog expires. -/
def Obligations.ApexCompletes : Prop :=
  ∀ (s : State),
    (∀ img0 img1 : Option FwImage, s.dev.por = false → s.rd 0x1020 1 = 0 → s.rd 0x8000 3 ≠ 0 →
      (s.fromHost = true → Completes (.apexBoot img0 img1) s (fun u => u.rd 0x1020 1 = 1)) ∧
      (s.fromHost = false →
        (∀ f, img0 = some f → s.fwReason f = 0 → Completes (.apexBoot img0 img1) s (fun u =>
          u.rd 0x1020 1 = 3 ∧ u.rd 0x1020 2 = 0 ∧ u.rd 0x1000 8 = f.svn.val ∧ Raises s u 0x0A01 3 0 0x1020)) ∧
        ((∀ f, img0 = some f → s.fwReason f ≠ 0) →
          (∀ f, img1 = some f → s.fwReason f = 0 → Completes (.apexBoot img0 img1) s (fun u =>
            u.rd 0x1020 1 = 3 ∧ u.rd 0x1020 2 = 1 ∧ Raises s u 0x0A01 3 0 0x1020 ∧ (img0.isSome = true → Raises s u 0x0901 3 2 0x8000))) ∧
          ((∀ f, img1 = some f → s.fwReason f ≠ 0) → Completes (.apexBoot img0 img1) s (fun u => u.rd 0x1020 1 = 4))))) ∧
    (∀ (q : Req) (v : BitVec 8) (f : FwImage), s.writeAbort q 0x1020 5 1 v.toNat = 0 →
      Completes (.fwGo q v f) s (fun u =>
        if s.fwReason f = 0 then u.rd 0x1020 1 = 3 ∧ u.rd 0x1020 2 = 2 ∧ Raises s u 0x0A01 3 0 0x1020 else u.rd 0x1020 1 = 4)) ∧
    (∀ die : Fin 2, s.dev.por = false → die.val ∉ s.dev.awake → Completes (.apexWake die) s (fun u =>
      die.val ∈ u.dev.awake ∧ u.rd 0xA000 3 = 1)) ∧
    (∀ die : Fin 2, s.fwUp = true → die.val ∈ s.dev.awake → s.apexBusy die.val = false →
      s.mgt.idleFrom.getD die.val 0 + 1000000 ≤ s.now → Completes (.apexIdle die) s (fun u => die.val ∉ u.dev.awake)) ∧
    (∀ die : Fin 2, s.fwUp = true → die.val ∈ s.dev.awake → s.mgt.served.getD die.val 0 + 100000000 ≤ s.now →
      Completes (.apexWatchdog die) s (fun u =>
        u.rd 0x1030 6 = min (s.rd 0x1030 6 + 1) (2 ^ 32 - 1) ∧ Raises s u 0x0A0D 3 2 0x1030
          ∧ (s.rd 0x1030 1 = die.val → u.mgt.tieLow = false ∧ die.val ∈ u.mgt.released)))

/-- R498 to R501: the prime's leases and their acknowledgement; the tie line is released, a lapse is reported, and the standby takes over
with EPOCH + 1 once the line is released; two claims begin SPLIT-HOLD, and PRIME_SELECT ends it. -/
def Obligations.PrimeDieCompletes : Prop :=
  ∀ (s : State),
    (s.fwUp = true → s.split = false → s.primeDie ∉ s.mgt.released → s.mgt.leaseSentAt + 1000000 ≤ s.now →
      Completes .leaseSend s (fun u => u.mgt.leaseSentAt = s.now ∧ u.od = s.od)) ∧
    (∀ (d : Fin 2) (e : BitVec 32) (claim : Bool), s.fwUp = true → s.split = false →
      (d.val = s.primeDie → d.val ∉ s.mgt.released → Completes (.lease d e claim) s (fun u =>
        u.mgt.lastLease = s.now ∧ u.mgt.lastAck = s.now ∧ u.rd 0x1030 3 = (if s.rd 0x1030 3 = 1 then 0 else s.rd 0x1030 3))) ∧
      (d.val ≠ s.primeDie → claim = true → Completes (.lease d e claim) s (fun u =>
        u.rd 0x1030 3 = 2 ∧ u.alertLow = true ∧ Raises s u 0x0A04 3 3 0x1030)) ∧
      (d.val ≠ s.primeDie → claim = false → Completes (.lease d e claim) s (fun u => u.od = s.od))) ∧
    (∀ d : Fin 2, s.fwUp = true → s.primeDie = d.val → s.mgt.tieLow = true → s.split = false →
      (s.mgt.leaseSentAt + 2000000 ≤ s.now ∨ s.rd (railObj (4 * d.val + 3)) 5 ≠ 1) →
      Completes (.tieLineRelease d) s (fun u => u.mgt.tieLow = false ∧ d.val ∈ u.mgt.released ∧ u.od = s.od)) ∧
    (∀ d : Fin 2, s.fwUp = true → s.split = false →
      (s.primeDie = d.val → s.mgt.ackLapsed = false → s.mgt.lastAck + 3000000 ≤ s.now → Completes (.leaseLapsed d) s (fun u =>
        u.rd 0x1030 1 = d.val ∧ u.rd 0x1030 5 = min (s.rd 0x1030 5 + 1) (2 ^ 32 - 1) ∧ Raises s u 0x0A03 3 1 0x1030)) ∧
      (s.primeDie ≠ d.val → s.mgt.lastLease + 3000000 ≤ s.now → s.mgt.lapsedAt ≤ s.mgt.lastLease →
        (s.mgt.tieLow = true → Completes (.leaseLapsed d) s (fun u =>
          u.rd 0x1030 1 = s.rd 0x1030 1 ∧ u.rd 0x1030 5 = min (s.rd 0x1030 5 + 1) (2 ^ 32 - 1) ∧ Raises s u 0x0A03 3 1 0x1030)) ∧
        (s.mgt.tieLow = false → d.val ∉ s.mgt.released → Completes (.leaseLapsed d) s (fun u =>
          u.rd 0x1030 1 = d.val ∧ u.rd 0x1030 2 = (s.rd 0x1030 2 + 1) % 2 ^ 32 ∧ u.rd 0x1030 3 = 1 ∧ u.mgt.tieLow = true
            ∧ Raises s u 0x0A02 3 1 0x1030)))) ∧
    (∀ e : BitVec 32, s.fwUp = true → s.split = false → Completes (.splitHold e) s (fun u =>
      u.rd 0x1030 3 = 2 ∧ u.alertLow = true ∧ Raises s u 0x0A04 3 3 0x1030)) ∧
    (∀ (q : Req) (v : BitVec 8) (acks : Bool), s.writeAbort q 0x1030 4 1 v.toNat = 0 →
      Completes (.primeSelect q v acks) s (fun u =>
        if acks = true then u.rd 0x1030 1 = v.toNat ∧ u.rd 0x1030 3 = 0 ∧ Raises s u 0x0A06 3 0 0x1030
          ∧ u.rd 0x1030 2 = (max (s.mgt.epochs.getD 0 0) (s.mgt.epochs.getD 1 0) + 1) % 2 ^ 32
        else u.mgt.resp.abort = abortState ∧ u.od = s.od))

/-- R482, R485 to R487: a client channel's request is answered as any path's is; a server channel's response of the right TAG ends its
request, as USER_TIMEOUT does with event 0x0A0B; an object write answers the first abort of R482, or takes effect and answers 0. -/
def Obligations.ObjectRequestsComplete : Prop :=
  ∀ (s : State),
    (∀ (die : Fin 2) (h : Word) (data : List Byte) (t : State) (n idx sub : Nat), n = h.data.toNat → idx = fieldAt n 0 16 →
      sub = fieldAt n 16 8 → itemOk h data = true → s.dev.por = false → s.apexUp = true →
      s.siteWords (.object die false) (itemWords h data) = some t →
      (hdrOp n = 1 → hdrLen n ≤ 256 → userIdx idx = false → Completes (.userObjectClientRequest die h data) s (fun u =>
        u.mgt.resp.abort = (t.getObj (.client die) idx sub).1)) ∧
      (hdrOp n = 2 → hdrLen n ≤ 256 → userIdx idx = false → Completes (.userObjectClientRequest die h data) s (fun u =>
        u.mgt.resp.abort = (t.writeObj (.client die) idx sub data).1 ∧ u.od = (t.writeObj (.client die) idx sub data).2.od)) ∧
      ((hdrOp n = 1 ∨ hdrOp n = 2) → 256 < hdrLen n → Completes (.userObjectClientRequest die h data) s (fun u =>
        u.mgt.resp.abort = 0x00030001 ∧ u.od = t.od))) ∧
    (∀ (die : Fin 2) (h : Word) (data : List Byte) (t : State) (r : UserReq) (tag issued : Nat), itemOk h data = true →
      s.dev.por = false → s.apexUp = true → s.siteWords (.object die true) (itemWords h data) = some t →
      t.mgt.userReqs.get (fun _ => none) die.val = some (r, tag, issued) →
      (tag = hdrTag h.data.toNat → t.mgt.userWait = [] → r.back = .direct →
        Completes (.userObjectServerResponse die h data) s (fun u =>
          u.mgt.userReqs.get (fun _ => none) die.val = none ∧ u.mgt.resp.abort = userAnswer (h.data.toNat % 2 ^ 32))) ∧
      (tag ≠ hdrTag h.data.toNat → Completes (.userObjectServerResponse die h data) s (fun u => u.mgt = t.mgt))) ∧
    (∀ (die : Fin 2) (r : UserReq) (tag issued : Nat), s.mgt.userReqs.get (fun _ => none) die.val = some (r, tag, issued) →
      issued + 1000 * s.rd 0x1040 0x11 ≤ s.now → Completes (.userTimeout die) s (fun u =>
        Raises s u 0x0A0B 3 1 0x1040 ∧ (s.mgt.userWait = [] → u.mgt.userReqs.get (fun _ => none) die.val = none)
          ∧ (s.mgt.userWait = [] → r.back = .direct → u.mgt.resp.abort = abortState))) ∧
    (∀ (q : Req) (idx : BitVec 16) (sub : BitVec 8) (data : List Byte),
      (userIdx idx.toNat = false → Completes (.objectWrite q idx sub data) s (fun u =>
        u.mgt.resp.abort = (s.writeObj q idx.toNat sub.toNat data).1 ∧ u.od = (s.writeObj q idx.toNat sub.toNat data).2.od)) ∧
      (userIdx idx.toNat = true → s.userAbort q idx.toNat true data.length ≠ 0 → Completes (.objectWrite q idx sub data) s (fun u =>
        u.mgt.resp.abort = s.userAbort q idx.toNat true data.length ∧ u.od = s.od)) ∧
      (∀ d : Nat, userIdx idx.toNat = true → s.userAbort q idx.toNat true data.length = 0 → s.serverOf idx.toNat = some d →
        s.mgt.userReqs.get (fun _ => none) d = none → s.mgt.userWait = [] → Completes (.objectWrite q idx sub data) s (fun u =>
          u.mgt.userReqs.get (fun _ => none) d =
            some (⟨s.reqDomain q, true, idx.toNat, sub.toNat, data, .direct⟩, s.mgt.userTag, s.now))))

/-- R38, R471, R489, R492 to R497: frames are handled by their CMD's rule, forwarded with HOPS + 1 or discarded; an address is taken from ASSIGN; a
leader finds a ring or a line; object requests and PING are answered; time sync is sent, corrected and applied; a held
frame leaves, CFG_STREAM frames and others in turn. A frame addressed to the device wakes the prime's Apex. -/
def Obligations.KimbeChainCompletes : Prop :=
  ∀ (s : State),
    (∀ (f : KFrame) (next : Nat), FrameTaken s f 1 → f.payload.length = 12 → next = octField f.payload 0 1 →
      (s.actingLeader = true → octField f.payload 4 8 = Config.serial % 2 ^ 64 → Completes (.assign f) s (fun u =>
        u.rd 0x1010 3 = 2 ∧ u.rd 0x1010 4 = (next + 255) % 256 ∧ u.mgt.assignAt = none)) ∧
      (s.actingLeader = true → octField f.payload 4 8 ≠ Config.serial % 2 ^ 64 → Completes (.assign f) s (fun u =>
        u.actingLeader = false ∧ Raises s u 0x0A08 3 2 0x1010)) ∧
      (s.actingLeader = false → ((octField f.payload 1 1).testBit 0 = true ∨ s.rd 0x1010 2 = 0) →
        (next ≤ 62 → Completes (.assign f) s (fun u => u.rd 0x1010 2 = next ∧ Raises s u 0x0A07 4 0 next)) ∧
        (next = 63 → Completes (.assign f) s (fun u => u.rd 0x1010 2 = 0 ∧ Raises s u 0x0A0C 3 2 0x1010)))) ∧
    (∀ (q : Req) (v : BitVec 8), s.writeAbort q 0x1010 0xC 1 v.toNat = 0 → s.mgt.follower = false →
      Completes (.assignGo q v) s (fun u => u.rd 0x1010 2 = 1 ∧ u.mgt.assignAt = some s.now)) ∧
    (∀ t, s.mgt.assignAt = some t → t + 1000000 ≤ s.now →
      Completes .ringDetectTimeout s (fun u => u.rd 0x1010 3 = 1 ∧ u.rd 0x1010 4 = 0 ∧ u.mgt.assignAt = none)) ∧
    (∀ (inSync outUp : Bool) (v : Nat), s.dev.por = false → v = inSync.toNat + 2 * (outUp && decide (s.rd 0xA000 2 = 1)).toNat →
      v ≠ s.rd 0x1010 5 → Completes (.kimbeLink inSync outUp) s (fun u => u.rd 0x1010 5 = v ∧ Raises s u 0x0A09 3 1 0x1010)) ∧
    (∀ f : KFrame, FrameTaken s f 2 → FrameEnds s f → f.payload.length = 12 →
      (octField f.payload 10 2 = 0 ∨ 240 < octField f.payload 10 2 →
        Completes (.odRead f) s (fun u => u.mgt.resp.abort = 0x00030001)) ∧
      (1 ≤ octField f.payload 10 2 → octField f.payload 10 2 ≤ 240 → userIdx (octField f.payload 2 2) = false →
        Completes (.odRead f) s (fun u => u.mgt.resp.abort =
          (((s.tally 0x1010 0xA 1).kmWake f).getObj .kimbe (octField f.payload 2 2) (octField f.payload 4 1)).1))) ∧
    (∀ (f : KFrame) (t : State), FrameTaken s f 3 → FrameEnds s f → 12 ≤ f.payload.length → t = (s.tally 0x1010 0xA 1).kmWake f →
      (s.segment f = none → Completes (.odWrite f) s (fun u =>
        u.mgt.resp.abort = 0x00030001 ∧ u.mgt.assembly.get (fun _ => none) f.src.val = none)) ∧
      (∀ l, s.segment f = some l →
        ((octField f.payload 5 1).testBit 0 = false → Completes (.odWrite f) s (fun u => u.mgt.resp.abort = 0 ∧ u.od = t.od
          ∧ u.mgt.assembly.get (fun _ => none) f.src.val = some (octField f.payload 2 2, octField f.payload 4 1, l))) ∧
        ((octField f.payload 5 1).testBit 0 = true → userIdx (octField f.payload 2 2) = false → Completes (.odWrite f) s (fun u =>
          u.mgt.resp.abort = ((t.setAssembly f.src.val none).writeObj .kimbe (octField f.payload 2 2) (octField f.payload 4 1) l).1)))) ∧
    (∀ f : KFrame, FrameEnds s f →
      (FrameTaken s f 4 → Completes (.odResp f) s (fun u => u = (s.tally 0x1010 0xA 1).kmWake f)) ∧
      (FrameTaken s f 7 → Completes (.eventFrame f) s (fun u => u = (s.tally 0x1010 0xA 1).kmWake f)) ∧
      (FrameTaken s f 8 → f.reply = false → (s.rd 0x1010 5).testBit 1 = true → Completes (.ping f) s (fun u =>
        u.mgt.sent = { s.kmFrame f.src.val 8 f.payload with reply := true } :: s.mgt.sent)) ∧
      (FrameTaken s f 6 → f.payload.length = 20 → s.rd 0x1010 1 = 1 → s.rd 0xA200 7 ≠ 0 → Completes (.timeSync f 0) s (fun u =>
        u.rd 0xA200 0xB = (f.hops + 1) % 256 ∧ u.cell.synced = s.cell.synced + 1))) ∧
    (∀ (f : KFrame) (residence : Nat), (s.rd 0x1010 5).testBit 1 = true → s.mgt.held = none →
      (f.src.val ≠ s.rd 0x1010 2 ∨ s.rd 0x1010 2 = 0) → f.dest.val ≠ s.rd 0x1010 2 → f.dest.val ≠ 63 →
      (FrameTaken s f 2 → Completes (.odRead f) s (fun u => u.mgt.held = some { f with hops := f.hops + 1 })) ∧
      (FrameTaken s f 3 → Completes (.odWrite f) s (fun u => u.mgt.held = some { f with hops := f.hops + 1 })) ∧
      (FrameTaken s f 4 → Completes (.odResp f) s (fun u => u.mgt.held = some { f with hops := f.hops + 1 })) ∧
      (FrameTaken s f 7 → Completes (.eventFrame f) s (fun u => u.mgt.held = some { f with hops := f.hops + 1 })) ∧
      (FrameTaken s f 8 → Completes (.ping f) s (fun u => u.mgt.held = some { f with hops := f.hops + 1 })) ∧
      (FrameTaken s f 6 → f.payload.length = 20 → Completes (.timeSync f residence) s (fun u =>
        u.mgt.held = some { syncForward f residence (s.rd 0x1010 6) with hops := f.hops + 1 }))) ∧
    (s.rd 0x1010 1 = 2 → s.rd 0xA200 7 = 1 → (s.rd 0x1010 5).testBit 1 = true →
      s.cell.lastSent + 1000000 * s.rd 0xA200 8 ≤ s.now → Completes .timeSyncSend s (fun u =>
        u.cell.lastSent = s.now ∧ u.cell.syncSeq = (s.cell.syncSeq + 1) % 2 ^ 32 ∧ u.mgt.sent.length = s.mgt.sent.length + 1)) ∧
    (s.dev.por = false → s.rd 0x1010 1 = 1 → s.rd 0xA200 7 = 1 → s.rd 0xA200 9 ≠ 3 →
      s.cell.lastSync + 4000000 * s.rd 0xA200 8 ≤ s.now → Completes .timeSyncLost s (fun u =>
        u.rd 0xA200 9 = 3 ∧ Raises s u 0x0B09 1 1 (locDie 0))) ∧
    ((s.rd 0x1010 5).testBit 1 = true →
      (∀ f, s.mgt.held = some f → (s.mgt.heldCfg = none ∨ s.mgt.lastCfg = true) → Completes .kimbeFrameForward s (fun u =>
        u.mgt.sent = f :: s.mgt.sent ∧ u.mgt.held = none ∧ u.mgt.heldCfg = s.mgt.heldCfg)) ∧
      (∀ g, s.mgt.heldCfg = some g → (s.mgt.lastCfg = false ∨ (s.mgt.held = none ∧ s.out.kimbeEvents = [])) → Completes .kimbeFrameForward s (fun u =>
        u.mgt.sent = g :: s.mgt.sent ∧ u.mgt.heldCfg = none ∧ u.mgt.held = s.mgt.held)) ∧
      (∀ e l, s.mgt.held = none → (s.mgt.heldCfg = none ∨ s.mgt.lastCfg = true) → s.out.kimbeEvents = e :: l → Completes .kimbeFrameForward s (fun u =>
        u.out.kimbeEvents = l ∧ u.mgt.sent.length = s.mgt.sent.length + 1)))

/-! ### Perimeter pins -/

/-- R505, R512, R513, R514, R517, R518, R526: a bank's state follows its VCCIO; FUNC and the settings take effect, with CONFLICTS following the
pins; a FABRIC_OUT word becomes the channel's value and a FABRIC_IN request is answered with the synchronised level of
its pin; held pins are released. -/
def Obligations.PinsComplete : Prop :=
  ∀ (s : State),
    (∀ (bank : Fin 4) (mv : BitVec 16) (o sel : Nat), s.dev.por = false → o = bankObj bank.val → sel = s.rd o 1 →
      (mv.toNat < 500 → Completes (.vccioMeasurement bank mv) s (fun u =>
        u.rd o 2 = mv.toNat ∧ u.rd o 3 = 0 ∧ (s.rd o 3 ≠ 0 → Raises s u 0x0703 3 1 o))) ∧
      (∀ t, 500 ≤ mv.toNat → vccioWithin 10 sel mv.toNat = false → (s.bank bank.val).outFrom = some t → t + 100000 ≤ s.now →
        Completes (.vccioMeasurement bank mv) s (fun u =>
          u.rd o 2 = mv.toNat ∧ u.rd o 3 = 2 ∧ (s.rd o 3 ≠ 2 → Raises s u 0x0703 3 1 o))) ∧
      (∀ t, 500 ≤ mv.toNat → vccioWithin 5 sel mv.toNat = true → vccioWithin 10 sel mv.toNat = true →
        (s.bank bank.val).inFrom = some t → t + 1000000 ≤ s.now →
        Completes (.vccioMeasurement bank mv) s (fun u =>
          u.rd o 2 = mv.toNat ∧ u.rd o 3 = 1 ∧ (s.rd o 3 ≠ 1 → Raises s u 0x0703 3 1 o)))) ∧
    (∀ (q : Req) (p : Fin 40) (v : BitVec 16), s.writeAbort q (pinObj p.val) 2 2 v.toNat = 0 →
      Completes (.funcWrite q p v) s (fun u => u.rd (pinObj p.val) 2 = v.toNat
        ∧ ∀ c < 512, (sigKind c = 2 ∨ sigKind c = 3) → (u.rd 0x6000 1).testBit c = decide (2 ≤ (u.sigPins c).length))) ∧
    (∀ (q : Req) (p : Fin 40) (x : PinSetting) (v : BitVec 8), s.writeAbort q (pinObj p.val) (settingSub x) 1 v.toNat = 0 →
      Completes (.pinSettingWrite q p x v) s (fun u => u.rd (pinObj p.val) (settingSub x) = v.toNat)) ∧
    (∀ (c : Fin 40) (w : Word) (t t1 : State), s.cellOn (.pin c) false = true →
      s.siteTake (siteRegion (.pin c)) (siteSlot (.pin c)) w = some t → t.enterIsland (.pin c) (siteChan (.pin c) 0) = some t1 →
      Completes (.fabricOut c w) s (fun u =>
        (u.cellAt (siteNum (.pin c))).value.getLsbD 0 = w.data.getLsbD 0)) ∧
    (∀ (c : Fin 40) (w : Word) (t t1 : State) (v : Nat), s.cellOn (.pin c) true = true →
      s.fab.siteOut.get (fun _ => []) (siteRegion (.pin c) * 16 + readSlot (.pin c)) = [] →
      s.siteTake (siteRegion (.pin c)) (readSlot (.pin c)) w = some t →
      t.siteDecide (siteRegion (.pin c)) 3 (chanId 3 (siteRegion (.pin c)) 0 0 (readSlot (.pin c))) (s.inSignal (0x040 + c.val) 0) =
        some (v, t1) →
      Completes (.fabricIn c w) s (fun u =>
        u.fab.siteOut.get (fun _ => []) (siteRegion (.pin c) * 16 + readSlot (.pin c)) =
          t1.fab.siteOut.get (fun _ => []) (siteRegion (.pin c) * 16 + readSlot (.pin c)) ++ [replyWord v])) ∧
    (s.dev.por = false → s.rd 0x3000 0xA = 0 → s.rd 0x6000 2 = 0 → Completes (.holdReleased none) s (fun u =>
      ∀ p < 40, s.rd (pinObj p) 8 = 1 → s.sourceRuns p = true → u.rd (pinObj p) 8 = 0)) ∧
    (∀ r : Req, s.writeAbort r 0x6000 3 1 1 = 0 → Completes (.holdReleased (some r)) s (fun u =>
      ∀ p < 40, s.rd (pinObj p) 8 = 1 → s.rd (pinObj p) 1 = s.reqDomain r → u.rd (pinObj p) 8 = 0))

/-- R519 to R523: octets wait for a UART's line, which receives up to 256; an I2C or SPI transfer is BUSY until it completes; a PWM period
takes PERIOD_NS and HIGH_NS; a selected edge is stamped; a line raises its event at once and once more when its window closes. -/
def Obligations.PeripheralsComplete : Prop :=
  ∀ (s : State),
    (∀ (q : Req) (k : Fin 2) (bytes : List Byte) (o : Nat), o = serialObj k.val →
      s.writeAbort q o 4 bytes.length (ofOctets bytes) = 0 → Completes (.uartXfer q k bytes) s (fun u =>
        (u.serial k.val).tx = (s.serial k.val).tx ++ bytes ∧ (u.rd o 6).testBit 0 = true)) ∧
    (∀ (q : Req) (k : Fin 2) (bytes : List Byte) (o : Nat), o = serialObj (2 + k.val) →
      s.writeAbort q o 4 bytes.length (ofOctets bytes) = 0 → Completes (.i2cXfer q k bytes) s (fun u =>
        (u.serial (2 + k.val)).tx = bytes ∧ (u.serial (2 + k.val)).rx = [] ∧ (u.serial (2 + k.val)).wantRx = (bytes.getD 1 0).toNat
          ∧ (u.rd o 6).testBit 0 = true)) ∧
    (∀ (q : Req) (bytes : List Byte), s.writeAbort q (serialObj 4) 4 bytes.length (ofOctets bytes) = 0 →
      Completes (.spiXfer q bytes) s (fun u =>
        (u.serial 4).tx = bytes ∧ (u.serial 4).wantRx = bytes.length ∧ (u.rd (serialObj 4) 6).testBit 0 = true)) ∧
    (∀ (q : Req) (k : Fin 2), s.readAbort q (serialObj k.val) 5 = 0 → Completes (.uartRxRead q k) s (fun u =>
      u.mgt.resp.abort = 0 ∧ u.mgt.resp.data = (s.serial k.val).rx ∧ (u.serial k.val).rx = [] ∧ u.od = s.od)) ∧
    (∀ (k : Fin 2) (b : Byte), s.fed (serialObj k.val) (0x1C1 + 4 * k.val) = true →
      ((s.serial k.val).rx.length < 256 → Completes (.uartByteReceived k b) s (fun u =>
        (u.serial k.val).rx = (s.serial k.val).rx ++ [b] ∧ u.od = s.od)) ∧
      (256 ≤ (s.serial k.val).rx.length → Completes (.uartByteReceived k b) s (fun u =>
        (u.serial k.val).rx = (s.serial k.val).rx ∧ (u.rd (serialObj k.val) 6).testBit 2 = true))) ∧
    (∀ (k : Fin 3) (nack : Bool) (rx : List Byte) (o : Nat), o = serialObj (2 + k.val) → (s.rd o 6).testBit 0 = true →
      (nack = true → k.val < 2 → Completes (.serialTransferComplete k nack rx) s (fun u =>
        (u.rd o 6).testBit 0 = false ∧ (u.rd o 6).testBit 1 = true)) ∧
      ((nack = false ∨ k.val = 2) → rx.length = (s.serial (2 + k.val)).wantRx → Completes (.serialTransferComplete k nack rx) s (fun u =>
        (u.rd o 6).testBit 0 = false ∧ (u.serial (2 + k.val)).rx = rx ∧ (u.serial (2 + k.val)).tx = []))) ∧
    (∀ (k : Fin 4) (o : Nat), o = pwmObj k.val → s.rd o 1 = 1 → s.rd o 5 = 1 →
      ((s.pwm k.val).period = 0 ∨ (s.pwm k.val).start + (s.pwm k.val).period ≤ s.now) → Completes (.pwmPeriodStart k) s (fun u =>
        (u.pwm k.val).period = s.rd o 3 / 5 * 5 ∧ (u.pwm k.val).high = s.rd o 4 / 5 * 5
          ∧ (u.pwm k.val).start = (if (s.pwm k.val).period = 0 then s.now else (s.pwm k.val).start + (s.pwm k.val).period))) ∧
    (∀ (k : Fin 4) (rising : Bool) (o : Nat), o = tscapObj k.val → s.fed o (0x1D7 + k.val) = true →
      (s.rd o 3 = 3 ∨ (s.rd o 3 = 1 ∧ rising = true) ∨ (s.rd o 3 = 2 ∧ rising = false)) →
      Completes (.tscapEdge k rising) s (fun u => u.rd o 5 = min (s.rd o 5 + 1) (2 ^ 32 - 1) ∧
        (s.rd 0xA200 2 = 0 → s.now + 5 < 2 ^ 64 → s.now ≤ u.rd o 4 + 5 ∧ u.rd o 4 ≤ s.now + 5))) ∧
    (∀ (n : Fin 10) (level : Bool) (o : Nat), o = lineObj n.val → s.rd o 1 = 1 → s.rd (pinObj (s.linePin n.val)) 1 = s.rd o 2 →
      s.lineOver n.val = false →
      (lineHits (s.rd o 4) (s.line n.val).level level = true → Completes (.pinInterrupt n level) s (fun u =>
        u.rd o 6 = min (s.rd o 6 + 1) (2 ^ 32 - 1) ∧ (u.line n.val).level = level
          ∧ (s.apexUp = true → (s.line n.val).open_ = false → Raises s u 0x0701 3 0 o)
          ∧ (s.apexUp = true → (s.line n.val).open_ = true → (u.line n.val).edges = (s.line n.val).edges + 1)
          ∧ (s.apexUp = false → (u.line n.val).due = true))) ∧
      (lineHits (s.rd o 4) (s.line n.val).level level = false → Completes (.pinInterrupt n level) s (fun u =>
        (u.line n.val).level = level ∧ u.od = s.od ∧ u.out = s.out))) ∧
    (∀ (n : Fin 10) (level : Bool) (o : Nat), o = lineObj n.val → s.lineOver n.val = true → s.apexUp = true →
      (lineActive (s.rd o 4) level = true → Completes (.coalesceWindowClose n level) s (fun u =>
        (u.line n.val).open_ = true ∧ Raises s u 0x0701 3 0 o)) ∧
      (lineActive (s.rd o 4) level = false → Completes (.coalesceWindowClose n level) s (fun u =>
        (u.line n.val).open_ = false ∧ (0 < (s.line n.val).edges → Raises s u 0x0701 3 0 o)
          ∧ ((s.line n.val).edges = 0 → u.out = s.out))))

/-! ### Self-test -/

/-- R534 to R537, R540, R543: an accepted GO posts a SELF_TEST item, or withdraws it; at its start a test is refused with its precondition
or runs with its unit isolated; its end sets RESULT by R540 and raises event 0x0801. -/
def Obligations.SelfTestCompletes : Prop :=
  ∀ (s : State) (k : Fin 16) (r test unit_ : Nat), r = testObj k.val → test = s.rd r 3 → unit_ = s.rd r 4 →
    (∀ q : Req, s.writeAbort q r 7 1 1 = 0 → (∃ i < 256, s.itemState i = 0) → Completes (.testPost q k 1) s (fun u =>
      u.mgt.resp.abort = 0 ∧ u.rd r 8 = 1 ∧ u.rd r 9 = 0 ∧ u.rd r 0xD = 0
        ∧ ∃ i < 256, s.itemState i = 0 ∧ u.itemState i ≠ 0 ∧ u.itemKind i = 4 ∧ (u.item i).ref = k.val)) ∧
    (∀ q : Req, s.writeAbort q r 7 1 2 = 0 →
      (s.rd r 8 = 1 → testUnitOk test unit_ = true → Completes (.testWithdraw q k 2) s (fun u =>
        u.rd r 8 = 0 ∧ u.rd r 9 = 0 ∧ Raises s u 0x0801 3 0 r)) ∧
      (s.rd r 8 ≠ 1 → Completes (.testWithdraw q k 2) s (fun u => u.od = s.od ∧ u.out = s.out))) ∧
    (testUnitOk test unit_ = true → s.rd r 8 = 1 → s.rd 0x7000 (1 + testDie test unit_) = k.val →
      (s.testPre test unit_ ≠ 0 → Completes (.testStart k) s (fun u =>
        u.rd r 8 = 3 ∧ u.rd r 9 = 4 ∧ u.rd r 0xA = s.testPre test unit_ ∧ Raises s u 0x0801 3 1 r)) ∧
      (s.testPre test unit_ = 0 → Completes (.testStart k) s (fun u =>
        u.rd r 8 = 2 ∧ u.rd r 0x11 = s.now ∧ (test ≤ 3 → u.rd (laneObj unit_) 2 = 4)))) ∧
    (testUnitOk test unit_ = true → s.testRuns k.val = true → ∀ o : TestOutcome,
      (∀ x a b, x = trimOutcome test o → (a, b) = testResult test (s.effCount k.val) x (s.freeVal 8) →
        Completes (.testDone k o) s (fun u =>
          u.rd r 8 = 3 ∧ u.rd r 9 = a ∧ u.rd r 0xA = b ∧ u.rd r 0xB = x.signature.toNat ∧ u.rd r 0xC = x.expected.toNat ∧ u.rd r 0xF = x.errors.toNat
            ∧ u.rd 0x7000 3 = min (s.rd 0x7000 3 + 1) (2 ^ 32 - 1) ∧ Raises s u 0x0801 3 (testSeverity a) r)) ∧
      (testEndable test = true → Completes (.testEndingRequest k o) s (fun u =>
        u.rd r 8 = 3 ∧ u.rd r 9 = 3 ∧ u.rd r 0xA = 1 ∧ u.rd r 0xE = 0 ∧ Raises s u 0x0801 3 1 r)) ∧
      (s.rd r 0x11 + 2 * s.testMax k.val ≤ s.now → Completes (.testDurationExpiry k o) s (fun u =>
        u.rd r 8 = 3 ∧ u.rd r 9 = 3 ∧ u.rd r 0xA = 4 ∧ u.rd r 0xE = 0 ∧ Raises s u 0x0801 3 1 r)) ∧
      (test = 2 → s.rd r 0x11 + 100000000 ≤ s.now → Completes (.rayFarNoLock k o) s (fun u =>
        u.rd r 8 = 3 ∧ u.rd r 9 = 3 ∧ u.rd r 0xA = 5 ∧ u.rd r 0xE = 0 ∧ Raises s u 0x0801 3 1 r)))
/-! ### What the commands leave unchanged -/

/-- R46, R65, R95, R101, R117, R131, R163, R169: commands of the fabric leave every part of the block but the one they act on as it was.
An LU changes alone, with the acknowledges, the tokens and the joined requests that settle; a fence command its fence; a Prism or Pool
operation its own unit and the tokens it takes; a log, replay or margin command its stream, its monitor and the objects named. None of
them but a logged grant stores to memory, and that one stores to the spill part of its stream's log queue alone. -/
def Obligations.FabricFrame : Prop :=
  (∀ (u : LuLoc) (s : State), ∀ c ∈ ([.drCapture u, .drEmpty u, .joinedRequestRise u, .bdCapture u, .bdEmpty u, .ceOutputChange u,
      .mxGrantRelease u] : List Instr),
    Relates c s (fun s t => t = { s with fab := withAcks s.fab t.fab, out := t.out }
      ∧ LusKept s t (un u) ∧ UnitsSettled s.fab t.fab
      ∧ (c ≠ .drCapture u → t.out = s.out))) ∧
  (∀ (u : LuLoc) (s : State), Relates (.mxGrant u) s (fun s t =>
      t = { s with dev := { s.dev with freeCtr := t.dev.freeCtr },
                   fab := { withAcks s.fab t.fab with streams := t.fab.streams },
                   loc := withQueues s.loc t.loc,
                   mem := withSpill s.mem t.mem, od := t.od, out := t.out }
      ∧ LusKept s t (un u) ∧ UnitsSettled s.fab t.fab ∧ StreamsKept (un u / 16384) s t
      ∧ ObjectsKept (LogKeys (un u / 16384)) s t ∧ SpillOnly (IsLog (un u / 16384) s) s t)) ∧
  (∀ (q : Req) (r : Region) (v : BitVec 8) (s : State), Relates (.resetCtrlWrite q r v) s (fun s t =>
      t = { s with fab := { s.fab with fences := t.fab.fences, resets := t.fab.resets }, mgt := withAnswer s.mgt t.mgt, od := t.od }
      ∧ ObjectsKept (fun a => FenceKeys a ∨ a = oa (regObj (rn r)) 7) s t)) ∧
  (∀ (r : Region) (s : State), Relates (.regionResetStart r) s (fun s t =>
      t = { s with fab := { s.fab with fences := t.fab.fences, resets := t.fab.resets }, od := t.od }
      ∧ ObjectsKept (fun a => FenceKeys a ∨ a = oa (regObj (rn r)) 7) s t)) ∧
  (∀ (r : Region) (ch : BitVec 32) (s : State), Relates (.borderChannelClose r ch) s (fun s t =>
      t = { s with fab := { withAcks s.fab t.fab with fences := t.fab.fences } } ∧ (∀ m, m ≠ rn r → t.fab.fence m = s.fab.fence m)
      ∧ (∀ u, LuFalls (s.fab.lu u) (t.fab.lu u)) ∧ UnitsSettled s.fab t.fab)) ∧
  (∀ (r : Region) (s : State), Relates (.regionSettled r) s (fun s t =>
      t = { s with fab := { s.fab with fences := t.fab.fences }, od := t.od, out := t.out }
      ∧ ObjectsKept (fun a => FenceKeys a ∨ ∃ m, m < 64 ∧ a = oa (regObj m) 8) s t)) ∧
  (∀ (r : Region) (side : Fin 4) (seg : Fin 32) (rx : Bool) (s : State), Relates (.relayStationTransfer r side seg rx) s (fun s t =>
      t = { s with fab := { withTokens s.fab t.fab with arcTx := t.fab.arcTx, pace := t.fab.pace } }
      ∧ UnitsKept noUnit noUnit s.fab t.fab)) ∧
  (∀ (east : Bool) (ch : Fin 64) (s : State), Relates (.bisectorSend east ch) s (fun s t =>
      t = { s with fab := { withTokens s.fab t.fab with pace := t.fab.pace } } ∧ UnitsKept noUnit noUnit s.fab t.fab)) ∧
  (∀ (east : Bool) (ch : Fin 64) (ecc : Ecc) (w : Word) (s : State), Relates (.bisectorReceive east ch ecc w) s (fun s t =>
      t = { s with fab := { s.fab with bis := t.fab.bis }, od := t.od, out := t.out }
      ∧ (∀ k, k ≠ bisNum east ch.val → t.fab.bisCh k = s.fab.bisCh k)
      ∧ ObjectsKept (fun a => a = oa 0xC200 3 ∨ a = oa 0xC200 4 ∨ a = oa 0xC200 5) s t)) ∧
  (∀ (east : Bool) (ch : Fin 64) (s : State), Relates (.bisectorCreditReturn east ch) s (fun s t =>
      t = { s with fab := { s.fab with bis := t.fab.bis } } ∧ ∀ k, k ≠ bisNum east ch.val → t.fab.bisCh k = s.fab.bisCh k)) ∧
  (∀ (c : Clu) (s : State), Relates (.prismOperation c) s (fun s t =>
      t = { s with fab := withTokens s.fab t.fab } ∧ UnitsKept (fun k => k = cn c) noUnit s.fab t.fab)) ∧
  (∀ (k : Clu) (p : Fin 2) (e0 e1 : Ecc) (s : State), ∀ c ∈ ([.poolCmdRead k p e0, .poolCmdWrite k p, .poolSeqRead k p e0, .poolSeqWrite k p,
      .poolFifoRead k e0, .poolFifoWrite k, .poolPair k e0 e1] : List Instr),
    Relates c s (fun s t => t = { s with dev := { s.dev with freeCtr := t.dev.freeCtr }, fab := withTokens s.fab t.fab, od := t.od, out := t.out }
      ∧ UnitsKept noUnit (fun j => j = cn k) s.fab t.fab
      ∧ ObjectsKept (fun a => a = oa (unitObj (cn k / 64)) 3 ∨ a = oa (unitObj (cn k / 64)) 4 ∨ a = oa (unitObj (cn k / 64)) 5
          ∨ a = oa (unitObj (cn k / 64)) 6) s t)) ∧
  (∀ (st : Stream) (s : State), ∀ c ∈ ([.logStalled st, .replayStalled st] : List Instr),
    Relates c s (fun s t => t = { s with fab := { s.fab with streams := t.fab.streams }, out := t.out }
      ∧ ∀ k, k ≠ streamKey st → t.stream k = s.stream k)) ∧
  (∀ (st : Stream) (s : State), Relates (.replayDecision st) s (fun s t =>
      t = { s with fab := { s.fab with streams := t.fab.streams }, loc := withQueues s.loc t.loc, mem := withColumns s.mem t.mem, od := t.od, out := t.out }
      ∧ StreamsKept (streamKey st) s t ∧ ObjectsKept (LogKeys (streamKey st)) s t)) ∧
  (∀ (r : Region) (a b : Nat) (ok : Bool) (s : State), Relates (.marginCheck r a b ok) s (fun s t =>
      t = { s with fab := { s.fab with fences := t.fab.fences, marginPasses := t.fab.marginPasses, marginAt := t.fab.marginAt }, od := t.od, out := t.out }
      ∧ ObjectsKept (fun a => FenceKeys a ∨ a = oa (detObj (rn r)) 8 ∨ a = oa (detObj (rn r)) 0xA ∨ a = oa (detObj (rn r)) 0xB
          ∨ a = oa (intObj (rn r)) 3) s t)) ∧
  (∀ (q : Req) (r : Region) (v : BitVec 16) (s : State), Relates (.logQueueWrite q r v) s (fun s t =>
      t = { s with mgt := withAnswer s.mgt t.mgt, od := t.od }
      ∧ ObjectsKept (fun a => a = oa (detObj (rn r)) 1) s t)) ∧
  (∀ (q : Req) (st : Stream) (v : BitVec 16) (s : State), Relates (.replayQueueWrite q st v) s (fun s t =>
      t = { s with mgt := withAnswer s.mgt t.mgt, od := t.od }
      ∧ ObjectsKept (fun a => a = oa (replayObj (streamKey st)).1 (replayObj (streamKey st)).2 
          ∨ ∃ n, n < 512 ∧ a = oa (queueObj (s.streamDie (streamKey st)) n) 4) s t)) ∧
  (∀ (q : Req) (r : Region) (v : BitVec 8) (s : State), Relates (.siteModeWrite q r v) s (fun s t =>
      t = { s with mgt := withAnswer s.mgt t.mgt, od := t.od } ∧ ObjectsKept (fun a => a = oa (detObj (rn r)) 3) s t))

/-- R174 to R187, R190 to R203: a crossing changes its own cell alone, with the tokens it takes, its stream's log and a pin's edge count; a
clock command changes its own loop and the records of that loop and its island, ends a self-test of the loop, or resets the cells that the
loop clocks; a time command the time objects. A crossing stores to memory nowhere but in the spill part of its stream's log queue, and a
clock or time command nowhere. -/
def Obligations.CrossingFrame : Prop :=
  (∀ (site : Site) (w : Word) (s : State), ∀ c ∈ ([.wordFifoFabricWrite site w, .valueFabricWrite site w, .valueReadRequest site w,
      .pulseReturnToggle site, .fabricPulse site, .countFabricToken site] : List Instr),
    Relates c s (fun s t =>
      t = { s with cell := { s.cell with recs := t.cell.recs },
                   fab := { withTokens s.fab t.fab with pace := t.fab.pace, streams := t.fab.streams },
                   loc := withQueues s.loc t.loc, mem := withSpill s.mem t.mem,
                   pin := { s.pin with meter := t.pin.meter, launched := t.pin.launched }, od := t.od, out := t.out }
      ∧ (∀ k, k ≠ siteNum site → t.cellAt k = s.cellAt k) ∧ UnitsKept noUnit noUnit s.fab t.fab ∧ StreamsKept (siteRegion site) s t
      ∧ ObjectsKept (fun a => LogKeys (siteRegion site) a ∨ ∃ p, p < 40 ∧ a = oa (pinObj p) 9) s t
      ∧ SpillOnly (IsLog (siteRegion site) s) s t)) ∧
  (∀ (d : Fin 2) (k : Fin 64) (w : Word) (s : State), Relates (.wordFifoIslandWrite (.user d k) w) s (fun s t =>
      t = { s with fab := { s.fab with siteOut := t.fab.siteOut }, od := t.od, out := t.out }
      ∧ ObjectsKept (fun a => a = oa (siteObj d.val k.val) 6) s t)) ∧
  (∀ (d : Fin 2) (p : Fin 32) (w : Word) (s : State), Relates (.wordFifoIslandWrite (.memory d p) w) s (fun s t =>
      t = { s with fab := { s.fab with siteOut := t.fab.siteOut }, mem := { s.mem with ports := t.mem.ports }, od := t.od, out := t.out }
      ∧ (∀ k, k ≠ 64 * d.val + p.val → t.mport k = s.mport k)
      ∧ ObjectsKept (fun a => ∃ j, 7 ≤ j ∧ j ≤ 0xB ∧ a = oa (mportObj d.val p.val) j) s t)) ∧
  (∀ (d : Fin 2) (l : Fin 8) (k : Fin 4) (w : Word) (s : State), Relates (.wordFifoIslandWrite (.lane d l k) w) s (fun s t =>
      t = { s with fab := { s.fab with siteOut := t.fab.siteOut }, ray := { s.ray with lanes := t.ray.lanes, ports := t.ray.ports }, od := t.od }
      ∧ ObjectsKept (fun a => a = oa (rportObj ((s.portOf (8 * d.val + l.val)).getD (8 * d.val + l.val))) 0x11) s t)) ∧
  (∀ (h : Fin 32) (d : Fin 2) (server : Bool) (c : Fin 40) (w : Word) (s : State), ∀ site ∈ ([.host h, .object d server, .pin c] : List Site),
    Relates (.wordFifoIslandWrite site w) s (fun s t => t = s)) ∧
  (∀ (site : Site) (v : BitVec 128) (s : State), Relates (.valueIslandWrite site v) s (fun s t =>
      t = { s with cell := { s.cell with recs := t.cell.recs }, od := t.od }
      ∧ (∀ k, k ≠ siteNum site → t.cellAt k = s.cellAt k)
      ∧ ObjectsKept (fun a => ∃ p : Fin 40, site = .pin p ∧ a = oa (pinObj p.val) 7) s t)) ∧
  (∀ (site : Site) (s : State), ∀ c ∈ ([.islandPulse site, .countIslandEvent site] : List Instr),
    Relates c s (fun s t =>
      t = { s with cell := { s.cell with recs := t.cell.recs }, fab := withAcks s.fab t.fab, od := t.od, out := t.out }
      ∧ (∀ k, k ≠ siteNum site → t.cellAt k = s.cellAt k) ∧ (∀ u, LuFalls (s.fab.lu u) (t.fab.lu u)) ∧ UnitsSettled s.fab t.fab
      ∧ ObjectsKept (fun a => a = oa (siteRecord site) 5 ∨ a = oa (siteRecord site) 6) s t)) ∧
  (∀ (site : Site) (half : Bool) (s : State), Relates (.skew site half) s (fun s t =>
      t = { s with cell := { s.cell with recs := t.cell.recs }, fab := withDrops s.fab t.fab, od := t.od, out := t.out }
      ∧ (∀ k, k ≠ siteNum site → t.cellAt k = s.cellAt k) ∧ (∀ u, LuFalls (s.fab.lu u) (t.fab.lu u)) ∧ UnitsSettled s.fab t.fab
      ∧ ObjectsKept (fun a => a = oa (siteRecord site) 4 ∨ a = oa (siteRecord site) 7 ∨ a = oa (siteRecord site) 8
          ∨ ∃ h : Fin 32, site = .host h ∧ (a = oa (0x5300 + h.val) 4 ∨ a = oa (0x5320 + h.val) 4)) s t)) ∧
  (∀ (r : Region) (s : State), Relates (.timeSiteRequest r) s (fun s t =>
      t = { s with dev := { s.dev with timeWaiters := t.dev.timeWaiters },
                   fab := { withTokens s.fab t.fab with pace := t.fab.pace } } ∧ UnitsKept noUnit noUnit s.fab t.fab)) ∧
  (∀ (l : Loop) (s : State), ∀ c ∈ ([.islandWake l, .pllLock l, .pllRelock l, .pllIdleStop l, .pllLockTimeout l, .pllLockLost l] : List Instr),
    Relates c s (fun s t =>
      t = { s with cell := { s.cell with loops := t.cell.loops }, od := t.od, out := t.out }
      ∧ (∀ m, loopNum m ≠ loopNum l → t.loop m = s.loop m) ∧ ObjectsKept (LoopKeys l) s t
      ∧ (c ∈ ([.islandWake l, .pllLock l, .pllIdleStop l, .pllLockLost l] : List Instr) → t.out = s.out))) ∧
  (∀ (l : Loop) (s : State), Relates (.pllStart l) s (fun s t =>
      t = { s with cell := { s.cell with loops := t.cell.loops }, dev := { s.dev with freeCtr := t.dev.freeCtr },
                   tst := { s.tst with stuck := t.tst.stuck }, od := t.od, out := t.out }
      ∧ (∀ m, loopNum m ≠ loopNum l → t.loop m = s.loop m) ∧ ObjectsKept (fun a => LoopKeys l a ∨ TestKeys a) s t
      ∧ (s.loopTested l = false → ObjectsKept (LoopKeys l) s t ∧ t.out = s.out ∧ t.tst = s.tst ∧ t.dev = s.dev))) ∧
  (∀ (l : Loop) (s : State), Relates (.pllHoldoverExpiry l) s (fun s t =>
      t = { s with cell := { s.cell with loops := t.cell.loops, recs := t.cell.recs, resetting := t.cell.resetting },
                   fab := withDrops s.fab t.fab, od := t.od, out := t.out }
      ∧ (∀ m, loopNum m ≠ loopNum l → t.loop m = s.loop m ∧ t.resetWait m = s.resetWait m)
      ∧ (∀ u, LuFalls (s.fab.lu u) (t.fab.lu u)) ∧ UnitsSettled s.fab t.fab ∧ ObjectsKept (fun a => LoopKeys l a ∨ CellKeys a) s t)) ∧
  (∀ (q : Req) (i : Island) (v : BitVec 8) (s : State), ∀ c ∈ ([.islandEnable q i v, .islandReset q i v] : List Instr),
    Relates c s (fun s t =>
      t = { s with cell := { s.cell with loops := t.cell.loops, recs := t.cell.recs, resetting := t.cell.resetting },
                   fab := withDrops s.fab t.fab, mgt := withAnswer s.mgt t.mgt, od := t.od, out := t.out }
      ∧ (∀ m, loopNum m ≠ loopNum (islandLoop i) → t.loop m = s.loop m ∧ t.resetWait m = s.resetWait m)
      ∧ (∀ u, LuFalls (s.fab.lu u) (t.fab.lu u)) ∧ UnitsSettled s.fab t.fab
      ∧ ObjectsKept (fun a => LoopKeys (islandLoop i) a ∨ CellKeys a ∨ a = oa (islObj i.die.val i.i.val) 3) s t)) ∧
  (∀ s : State, Relates .rcTrim s (fun s t => t = s)) ∧
  (∀ s : State, ∀ c ∈ ([.aoClockFail, .aoCrystalReturn] : List Instr),
    Relates c s (fun s t => t = { s with od := t.od, out := t.out }
      ∧ ObjectsKept (fun a => a = oa 0xA000 1 ∨ a = oa 0xA000 3) s t)) ∧
  (∀ s : State, ∀ c ∈ ([.refclkLost, .refclkRestored] : List Instr),
    Relates c s (fun s t => t = { s with od := t.od, out := t.out }
      ∧ ObjectsKept (fun a => a = oa 0xA000 2 ∨ a = oa 0xA200 2 ∨ a = oa 0xA200 3) s t)) ∧
  (∀ (q : Req) (v : BitVec 64) (s : State), Relates (.offsetAdjust q v) s (fun s t =>
      t = { withMeters s t with
                   dev := { s.dev with slew := t.dev.slew },
                   led := { s.led with windowStart := t.led.windowStart, closing := t.led.closing, m := t.led.m },
                   pin := { s.pin with lines := t.pin.lines, meter := t.pin.meter }, mgt := withAnswer s.mgt t.mgt, od := t.od, out := t.out }
      ∧ ObjectsKept (fun a => a = oa 0xA200 1 ∨ a = oa 0xA200 0xC) s t)) ∧
  (∀ s : State, Relates .timeSyncSend s (fun s t =>
      t = { s with cell := { s.cell with lastSent := t.cell.lastSent, syncSeq := t.cell.syncSeq },
                   mgt := { s.mgt with sent := t.mgt.sent } })) ∧
  (∀ (f : KFrame) (x : Nat) (s : State), Relates (.timeSync f x) s (fun s t =>
      t = { withMeters s t with
                   cell := { s.cell with lastSync := t.cell.lastSync, synced := t.cell.synced },
                   dev := { s.dev with slew := t.dev.slew, awake := t.dev.awake, freeCtr := t.dev.freeCtr },
                   led := { s.led with windowStart := t.led.windowStart, closing := t.led.closing, m := t.led.m },
                   pin := { s.pin with lines := t.pin.lines, meter := t.pin.meter },
                   mgt := withForward s.mgt t.mgt, od := t.od, out := t.out }
      ∧ ObjectsKept (fun a => a = oa 0x1010 9 ∨ a = oa 0x1010 0xA ∨ a = oa 0xA000 3 ∨ a = oa 0xA200 1 ∨ a = oa 0xA200 2 ∨ a = oa 0xA200 3
          ∨ a = oa 0xA200 9 ∨ a = oa 0xA200 0xA ∨ a = oa 0xA200 0xB ∨ a = oa 0xA200 0xC) s t)) ∧
  (∀ s : State, Relates .timeSyncLost s (fun s t =>
      t = { s with cell := { s.cell with synced := t.cell.synced }, od := t.od, out := t.out }
      ∧ ObjectsKept (fun a => a = oa 0xA200 9) s t))

/-- R205 to R227, R234 to R258: a Locus command changes the ports and queues it names, with the tokens of its port, its counters and the
spill part of its queue; an Annulus command its port, its pseudo-channel or its stack. A request that is admitted stores to its own words
alone, a read to none, but for the record of its order; training clears its stack and zeroing of a window that window alone; no other
command of the two blocks changes a byte of memory. -/
def Obligations.QueueAndMemoryFrame : Prop :=
  (∀ (die : Fin 2) (p : Fin 128) (w : Word) (s : State), Relates (.locusTagWord die p w) s (fun s t =>
      t = { s with fab := { withTokens s.fab t.fab with pace := t.fab.pace }, loc := { s.loc with ports := t.loc.ports }, od := t.od,
                   out := t.out }
      ∧ (∀ k, k ≠ 128 * die.val + p.val → t.loc.ports.get (fun _ => {}) k = s.loc.ports.get (fun _ => {}) k)
      ∧ UnitsKept noUnit noUnit s.fab t.fab
      ∧ ObjectsKept (fun a => a = oa (queueObj die.val (w.data.toNat % 512)) 0x18) s t)) ∧
  (∀ (die : Fin 2) (p : Fin 128) (w : Word) (s : State), Relates (.locusItemWord die p w) s (fun s t =>
      t = { s with fab := { withTokens s.fab t.fab with pace := t.fab.pace }, loc := t.loc,
                   mem := withSpill s.mem t.mem, od := t.od, out := t.out }
      ∧ (∀ k, k ≠ 128 * die.val + p.val → t.loc.ports.get (fun _ => {}) k = s.loc.ports.get (fun _ => {}) k)
      ∧ (∀ k, (∀ q, AtQueue die.val p.val s q → k ≠ 512 * die.val + q) → t.loc.queues.get (fun _ => {}) k = s.loc.queues.get (fun _ => {}) k)
      ∧ UnitsKept noUnit noUnit s.fab t.fab
      ∧ ObjectsKept (fun a => ColumnKeys a ∨ ∃ q, AtQueue die.val p.val s q ∧
          (a = oa (queueObj die.val q) 0x15 ∨ a = oa (queueObj die.val q) 0x18)) s t
      ∧ SpillOnly (fun d q => d = die.val ∧ AtQueue die.val p.val s q) s t)) ∧
  (∀ (die : Fin 2) (p : Fin 128) (s : State), Relates (.locusRead die p) s (fun s t =>
      t = { s with fab := { s.fab with siteOut := t.fab.siteOut, streams := t.fab.streams },
                   loc := withQueues s.loc t.loc, mem := withColumns s.mem t.mem, od := t.od, out := t.out }
      ∧ (∀ q, q < 512 → q ≠ s.po die.val p.val 5 → t.q die.val q = s.q die.val q) ∧ (∀ q, t.q (1 - die.val) q = s.q (1 - die.val) q ∨ 512 ≤ q)
      ∧ StreamsKept (64 + 512 * die.val + s.po die.val p.val 5) s t ∧ ObjectsKept QueueKeys s t)) ∧
  (∀ (die : Fin 2) (q : Fin 512) (s : State), Relates (.spillReturn die q) s (fun s t =>
      t = { s with loc := { s.loc with queues := t.loc.queues }, mem := withColumns s.mem t.mem, od := t.od, out := t.out }
      ∧ (∀ k, k < 512 → k ≠ q.val → t.q die.val k = s.q die.val k)
      ∧ ObjectsKept (fun a => ColumnKeys a ∨ a = oa (0xB000 + die.val) 5) s t)) ∧
  (∀ (die : Fin 2) (q : Fin 512) (s : State), Relates (.idleTimeout die q) s (fun s t =>
      t = { s with fab := { withAcks s.fab t.fab with streams := t.fab.streams }, loc := withQueues s.loc t.loc,
                   mem := withSpill s.mem t.mem, od := t.od, out := t.out }
      ∧ (∀ u, LuFalls (s.fab.lu u) (t.fab.lu u)) ∧ UnitsSettled s.fab t.fab ∧ StreamsKept (64 + 512 * die.val + q.val) s t
      ∧ ObjectsKept QueueKeys s t
      ∧ SpillOnly (fun d n => IsLog (64 + 512 * die.val + q.val) s d n ∨ d = die.val ∧ n = s.qo die.val q.val 0x10) s t)) ∧
  (∀ (die : Fin 2) (q : Fin 512) (s : State), Relates (.handoff die q) s (fun s t =>
      t = { s with loc := withQueues s.loc t.loc, mem := withSpill s.mem t.mem, od := t.od, out := t.out }
      ∧ (∀ k, k < 512 → k ≠ q.val → k ≠ s.qo die.val q.val 0x10 → t.q die.val k = s.q die.val k)
      ∧ ObjectsKept QueueKeys s t ∧ SpillOnly (fun d n => d = die.val ∧ n = s.qo die.val q.val 0x10) s t)) ∧
  (∀ (q : Req) (die : Fin 2) (n : Fin 512) (v : BitVec 8) (s : State), Relates (.flush q die n v) s (fun s t =>
      t = { s with loc := { s.loc with queues := t.loc.queues }, mgt := withAnswer s.mgt t.mgt, od := t.od }
      ∧ (∀ k, k < 512 → k ≠ n.val → t.q die.val k = s.q die.val k) ∧ ObjectsKept (fun a => a = oa (queueObj die.val n.val) 2) s t)) ∧
  (∀ (die : Fin 2) (q : Fin 512) (s : State), Relates (.flushed die q) s (fun s t =>
      t = { s with loc := { s.loc with queues := t.loc.queues, ports := t.loc.ports }, od := t.od, out := t.out }
      ∧ (∀ k, k < 512 → k ≠ q.val → t.q die.val k = s.q die.val k)
      ∧ ObjectsKept (fun a => a = oa (queueObj die.val q.val) 2 ∨ a = oa (queueObj die.val q.val) 0x17) s t)) ∧
  (∀ (die : Fin 2) (p : Fin 32) (w : Word) (data : List Word) (s : State),
      ∀ c ∈ ([.memoryRead die p w, .memoryWrite die p w data, .memoryWriteAck die p w data, .memoryOpReserved die p w] : List Instr),
    Relates c s (fun s t =>
      t = { s with cell := { s.cell with recs := t.cell.recs }, fab := { withTokens s.fab t.fab with pace := t.fab.pace },
                   mem := { s.mem with ports := t.mem.ports, idleFrom := t.mem.idleFrom }, od := t.od }
      ∧ (∀ k, k ≠ siteNum (.memory die p) → t.cellAt k = s.cellAt k)
      ∧ (∀ k, k ≠ 64 * die.val + p.val → t.mport k = s.mport k) ∧ UnitsKept noUnit noUnit s.fab t.fab
      ∧ ObjectsKept (fun a => a = oa (mportObj die.val p.val) 7 ∨ a = oa (mportObj die.val p.val) 8) s t)) ∧
  (∀ (die : Fin 2) (p : Fin 32) (s : State), Relates (.requestAdmission die p) s (fun s t =>
      t = { s with fab := { s.fab with siteOut := t.fab.siteOut, streams := t.fab.streams },
                   loc := withQueues s.loc t.loc, cfg := { s.cfg with slots := t.cfg.slots },
                   mem := { withSpill s.mem t.mem with ports := t.mem.ports, idleFrom := t.mem.idleFrom }, od := t.od, out := t.out }
      ∧ (∀ k, k ≠ 64 * die.val + p.val → t.mport k = s.mport k) ∧ SlotsKept s t
      ∧ (∀ r l, (s.mport (64 * die.val + p.val)).reqs = r :: l → StreamsKept (1088 + r.window) s t)
      ∧ ObjectsKept (fun a => QueueKeys a ∨ ∃ j, 7 ≤ j ∧ j ≤ 0xB ∧ a = oa (mportObj die.val p.val) j) s t
      ∧ KeptOutside (fun a => ∃ r l, (s.mport (64 * die.val + p.val)).reqs = r :: l ∧
          (r.op ≠ 0 ∧ WordOf (s.reqAddr r) r.data.length a
            ∨ s.rd (winObj r.window) 7 = 1 ∧ SpillWord (IsLog (1088 + r.window) s) s a)) s t)) ∧
  (∀ (die : Fin 2) (pc : Fin 32) (ecc : List Ecc) (s : State), Relates (.pcCommandIssue die pc ecc) s (fun s t =>
      t = { s with dev := { s.dev with freeCtr := t.dev.freeCtr },
                   mem := { withColumns s.mem t.mem with ports := t.mem.ports, errs := t.mem.errs }, od := t.od, out := t.out }
      ∧ (∀ c, c ≠ 32 * die.val + pc.val → t.pc c = s.pc c)
      ∧ ObjectsKept (fun a => (∃ j, j ∈ [1, 3, 4] ∧ a = oa (pcRec (32 * die.val + pc.val)) j)
          ∨ ∃ d j, d < 2 ∧ j ∈ [8, 0xA, 0xB] ∧ a = oa (ctlObj d) j) s t)) ∧
  (∀ (die : Fin 2) (pc : Fin 32) (s : State), Relates (.ageExceeded die pc) s (fun s t =>
      t = { s with mem := { s.mem with pcs := t.mem.pcs }, out := t.out }
      ∧ ∀ c, c ≠ 32 * die.val + pc.val → t.pc c = s.pc c)) ∧
  (∀ (die : Fin 2) (pc : Fin 32) (s : State), ∀ c ∈ ([.perBankRefreshDue die pc, .refreshComplete die pc, .refreshDebtLimit die pc,
      .powerDownEntry die pc] : List Instr),
    Relates c s (fun s t =>
      t = { s with mem := { s.mem with pcs := t.mem.pcs, meter := t.mem.meter }, od := t.od, out := t.out }
      ∧ (∀ k, k ≠ 32 * die.val + pc.val → t.pc k = s.pc k)
      ∧ ObjectsKept (fun a => ∃ j, j ∈ [1, 3, 4] ∧ a = oa (pcRec (32 * die.val + pc.val)) j) s t)) ∧
  (∀ (die : Fin 2) (x : Int) (s : State), Relates (.stackTempSample die x) s (fun s t =>
      t = { s with mem := { s.mem with pcs := t.mem.pcs }, od := t.od, out := t.out }
      ∧ (∀ k, k / 32 ≠ die.val → t.pc k = s.pc k)
      ∧ ObjectsKept (fun a => a = oa (ctlObj die.val) 2 ∨ a = oa (ctlObj die.val) 3
          ∨ ∃ c j, c / 32 = die.val ∧ j ∈ [1, 3, 4] ∧ a = oa (pcRec c) j) s t)) ∧
  (∀ (die : Fin 2) (ch : Fin 16) (s : State), Relates (.parityAlert die ch) s (fun s t =>
      t = { s with fab := { s.fab with siteOut := t.fab.siteOut }, cfg := { s.cfg with slots := t.cfg.slots },
                   mem := { s.mem with pcs := t.mem.pcs, meter := t.mem.meter, ports := t.mem.ports, replaying := t.mem.replaying },
                   od := t.od, out := t.out }
      ∧ (∀ k, k / 2 ≠ 16 * die.val + ch.val → t.pc k = s.pc k) ∧ SlotsKept s t
      ∧ ObjectsKept (fun a => a = oa (ctlObj die.val) 1 ∨ a = oa (ctlObj die.val) 0xD
          ∨ (∃ c, c / 2 = 16 * die.val + ch.val ∧ a = oa (pcRec c) 1) ∨ ∃ k j, j ∈ [7, 8, 9, 0xB] ∧ a = oa (mpObj k) j) s t)) ∧
  (∀ (die : Fin 2) (ch : Fin 16) (s : State), Relates (.parityReplay die ch) s (fun s t =>
      t = { s with fab := { s.fab with siteOut := t.fab.siteOut },
                   mem := { s.mem with pcs := t.mem.pcs, meter := t.mem.meter, ports := t.mem.ports, replaying := t.mem.replaying },
                   od := t.od, out := t.out }
      ∧ ObjectsKept (fun a => a = oa (ctlObj die.val) 0xC ∨ (∃ c, c < 64 ∧ a = oa (pcRec c) 1)
          ∨ ∃ k j, j ∈ [7, 8, 9, 0xB] ∧ a = oa (mpObj k) j) s t)) ∧
  (∀ (die : Fin 2) (f : Option (Fin 16)) (s : State), Relates (.stackTraining die f) s (fun s t =>
      t = { s with mem := { s.mem with bytes := t.mem.bytes, poison := t.mem.poison, errs := t.mem.errs, pcs := t.mem.pcs,
                                       meter := t.mem.meter, idleFrom := t.mem.idleFrom, failedStacks := t.mem.failedStacks },
                   od := t.od, out := t.out }
      ∧ (∀ k, k / 32 ≠ die.val → t.pc k = s.pc k) ∧ ObjectsKept (fun a => a = oa (ctlObj die.val) 1) s t
      ∧ KeysKept (fun a => f = none ∧ a / 2 ^ 34 = die.val) s t)) ∧
  (∀ (die : Fin 2) (s : State), Relates (.selfRefreshEntry die) s (fun s t =>
      t = { s with mem := { s.mem with pcs := t.mem.pcs, meter := t.mem.meter }, od := t.od }
      ∧ (∀ k, k / 32 ≠ die.val → t.pc k = s.pc k)
      ∧ ObjectsKept (fun a => a = oa (ctlObj die.val) 1 ∨ ∃ c, c / 32 = die.val ∧ a = oa (pcRec c) 1) s t)) ∧
  (∀ (die : Fin 2) (s : State), Relates (.selfRefreshExit die) s (fun s t =>
      t = { s with cell := { s.cell with loops := t.cell.loops }, dev := { s.dev with freeCtr := t.dev.freeCtr },
                   mem := { s.mem with pcs := t.mem.pcs, idleFrom := t.mem.idleFrom }, tst := { s.tst with stuck := t.tst.stuck },
                   od := t.od, out := t.out }
      ∧ (∀ k, k / 32 ≠ die.val → t.pc k = s.pc k)
      ∧ ObjectsKept (fun a => a = oa (ctlObj die.val) 1 ∨ (∃ c, c / 32 = die.val ∧ a = oa (pcRec c) 1)
          ∨ LoopKeys ⟨die, 2⟩ a ∨ TestKeys a) s t
      ∧ (s.stackTested die.val = false → t.out = s.out ∧ t.tst = s.tst ∧ t.dev = s.dev))) ∧
  (∀ (w : Fin 64) (s : State), Relates (.windowZeroing w) s (fun s t =>
      t = { s with mem := { s.mem with bytes := t.mem.bytes, poison := t.mem.poison, errs := t.mem.errs, meter := t.mem.meter,
                                       zeroing := t.mem.zeroing }, od := t.od, out := t.out }
      ∧ ObjectsKept (fun a => a = oa (winObj w.val) 0xA) s t
      ∧ KeysKept (fun a => s.rd (winObj w.val) 2 ≤ s.memPhys a ∧ s.memPhys a < s.rd (winObj w.val) 2 + s.rd (winObj w.val) 3) s t))

/-- R265 to R293, R296 to R331: a Ray command changes its lanes and ports, its counters, and the words of its FIFOs; a host command its
function's mailbox, its engine, the tags, its ring or its link state, and the objects named. A stack that an access wakes leaves
self-refresh, which may end self-tests of it. Only an aperture write, those that wait before an aperture access, a transfer to a window and
an item put into a queue with spill store to memory, each to its own words. -/
def Obligations.LinkFrame : Prop :=
  (∀ (l : Lane) (x : Bool) (s : State), ∀ c ∈ ([.laneUp l, .laneDown l x] : List Instr),
    Relates c s (fun s t => t = { s with ray := { s.ray with lanes := t.ray.lanes }, od := t.od, out := t.out }
      ∧ (∀ k, k ≠ laneNum l → t.lane k = s.lane k)
      ∧ ObjectsKept (fun a => (∃ j, j ∈ [2, 0xD, 0xE] ∧ a = oa (laneObj (laneNum l)) j)
          ∨ a = oa (0x58C0 + l.die.val) 5 ∨ ∃ p, s.portOf (laneNum l) = some p ∧ a = oa (rportObj p) 2) s t)) ∧
  (∀ (l : Lane) (s : State), ∀ c ∈ ([.portUp l, .remoteFault l, .remoteFaultCleared l] : List Instr),
    Relates c s (fun s t => t = { s with ray := { s.ray with ports := t.ray.ports }, od := t.od, out := t.out }
      ∧ (∀ p, p ≠ laneNum l → t.rport p = s.rport p)
      ∧ ObjectsKept (fun a => a = oa (rportObj (laneNum l)) 2 ∨ a = oa (rportObj (laneNum l)) 0x11) s t)) ∧
  (∀ (l : Lane) (s : State), Relates (.portDown l) s (fun s t =>
      t = { s with dev := { s.dev with freeCtr := t.dev.freeCtr }, od := t.od, out := t.out }
      ∧ ObjectsKept (fun a => a = oa (rportObj (laneNum l)) 2) s t)) ∧
  (∀ (die : Fin 2) (s : State), ∀ c ∈ ([.refclkLostRay die, .rayRefclkPresent die] : List Instr),
    Relates c s (fun s t => t = { s with dev := { s.dev with freeCtr := t.dev.freeCtr }, ray := { s.ray with lanes := t.ray.lanes },
                                         od := t.od, out := t.out }
      ∧ (∀ k, k / 8 ≠ die.val → t.lane k = s.lane k)
      ∧ ObjectsKept (fun a => a = oa 0x5800 3 ∨ a = oa (0x58C0 + die.val) 5
          ∨ ∃ k, k / 8 = die.val ∧ ((∃ j, j ∈ [2, 0xD, 0xE] ∧ a = oa (laneObj k) j) ∨ a = oa (eqObj k) 7 ∨ a = oa (eqObj k) 8
            ∨ ∃ p, s.portOf k = some p ∧ a = oa (rportObj p) 2)) s t)) ∧
  (∀ (l : Lane) (f : RxFrame) (s : State), Relates (.rxFrame l f) s (fun s t =>
      t = { s with fab := { s.fab with siteOut := t.fab.siteOut }, ray := { s.ray with lanes := t.ray.lanes, ports := t.ray.ports },
                   od := t.od, out := t.out }
      ∧ (∀ k, k ≠ laneNum l → t.lane k = s.lane k)
      ∧ (∀ p, p ≠ laneNum l → s.portOf (laneNum l) ≠ some p → t.rport p = s.rport p)
      ∧ ObjectsKept (fun a => (∃ j, j ∈ [9, 0xB, 0xC, 0xE, 0xF, 0x10] ∧ a = oa (rportObj (laneNum l)) j)
          ∨ ∃ p, (p = laneNum l ∨ s.portOf (laneNum l) = some p) ∧ a = oa (rportObj p) 0x11) s t)) ∧
  (∀ (l : Lane) (x : Bool) (s : State), ∀ c ∈ ([.txFrameStart l x, .txUnderrunError l] : List Instr),
    Relates c s (fun s t =>
      t = { s with cell := { s.cell with recs := t.cell.recs }, ray := { s.ray with ports := t.ray.ports, line := t.ray.line },
                   od := t.od, out := t.out }
      ∧ (∀ p, p ≠ laneNum l → t.rport p = s.rport p)
      ∧ ObjectsKept (fun a => ∃ j, j ∈ [0xA, 0xD, 0x11, 0x12] ∧ a = oa (rportObj (laneNum l)) j) s t)) ∧
  (∀ (l : Lane) (b : BitVec 128) (s : State), Relates (.rawRxWord l b) s (fun s t =>
      t = { s with fab := { s.fab with siteOut := t.fab.siteOut }, ray := { s.ray with lanes := t.ray.lanes }, od := t.od, out := t.out }
      ∧ (∀ k, k ≠ laneNum l → t.lane k = s.lane k) ∧ ObjectsKept (fun a => a = oa (laneObj (laneNum l)) 0xB) s t)) ∧
  (∀ (l : Lane) (s : State), Relates (.rawFill l) s (fun s t =>
      t = { s with ray := { s.ray with line := t.ray.line }, od := t.od }
      ∧ ObjectsKept (fun a => a = oa (laneObj (laneNum l)) 0xC) s t)) ∧
  (∀ (q : Req) (l : Lane) (v : BitVec 8) (s : State), Relates (.rxSlip q l v) s (fun s t =>
      t = { s with ray := { s.ray with lanes := t.ray.lanes }, mgt := withAnswer s.mgt t.mgt }
      ∧ ∀ k, k ≠ laneNum l → t.lane k = s.lane k)) ∧
  (∀ (l : Lane) (w : Word) (s : State), Relates (.transmitStampRequest l w) s (fun s t =>
      t = { s with fab := { withTokens s.fab t.fab with pace := t.fab.pace, streams := t.fab.streams },
                   loc := withQueues s.loc t.loc, mem := withSpill s.mem t.mem,
                   ray := { s.ray with ports := t.ray.ports }, od := t.od, out := t.out }
      ∧ (∀ p, p ≠ laneNum l → t.rport p = s.rport p) ∧ UnitsKept noUnit noUnit s.fab t.fab
      ∧ StreamsKept (fifoPlace (laneNum l) 0).1 s t
      ∧ ObjectsKept (fun a => LogKeys (fifoPlace (laneNum l) 0).1 a ∨ a = oa (rportObj (laneNum l)) 0x11) s t
      ∧ SpillOnly (IsLog (fifoPlace (laneNum l) 0).1 s) s t)) ∧
  (∀ (q : Req) (l : Lane) (tap : Fin 4) (v : BitVec 16) (s : State), Relates (.txTapWrite q l tap v) s (fun s t =>
      t = { s with mgt := withAnswer s.mgt t.mgt, od := t.od }
      ∧ ObjectsKept (fun a => a = oa (eqObj (laneNum l)) (1 + tap.val)) s t)) ∧
  (∀ (f : Func) (a : CfgAccess) (s : State), Relates (.configurationRequest f a) s (fun s t =>
      t = { s with dev := { s.dev with freeCtr := t.dev.freeCtr },
                   host := { s.host with barSize := t.host.barSize, cfgResp := t.host.cfgResp, cfgData := t.host.cfgData, fns := t.host.fns },
                   od := t.od, out := { s.out with msix := t.out.msix, msixTab := t.out.msixTab, pba := t.out.pba } }
      ∧ (∀ c, c ≠ funcCode f → t.fn c = s.fn c)
      ∧ ObjectsKept (fun a => a = oa 0x5000 7 ∨ a = oa (pfObj f.f.val) 2 ∨ (∃ g, g < 9 ∧ a = oa (pfObj g) 4)
          ∨ ∃ v, v < 32 ∧ a = oa (vfObj f.f.val (v + 1)) 1) s t)) ∧
  (∀ (f : Fin 9) (idx : BitVec 16) (sub : BitVec 8) (data : List Byte) (vec : BitVec 16) (s : State),
      ∀ c ∈ ([.mailboxRead f idx sub vec, .mailboxWrite f idx sub data vec, .mailboxOverlap f] : List Instr),
    Relates c s (fun s t => t = { s with host := { s.host with boxes := t.host.boxes } }
      ∧ ∀ g, g ≠ f.val → t.box g = s.box g)) ∧
  (∀ (tag : Fin 4096) (s : State), Relates (.completionArrival tag) s (fun s t =>
      t = { s with host := { s.host with tags := t.host.tags, engines := t.host.engines, tagWait := t.host.tagWait }, od := t.od }
      ∧ TagsMove (fun k => k = tag.val) (fun _ => False) s t ∧ ObjectsKept (fun a => a = oa 0x5000 6) s t)) ∧
  (∀ (tag : Fin 4096) (s : State), Relates (.completionTimeout tag) s (fun s t =>
      t = { s with dev := { s.dev with freeCtr := t.dev.freeCtr },
                   host := { s.host with tags := t.host.tags, engines := t.host.engines, tagWait := t.host.tagWait, fns := t.host.fns },
                   od := t.od, out := t.out }
      ∧ TagsMove (fun k => k = tag.val) (fun e => ∃ x, s.host.tags.get (fun _ => none) tag.val = some x ∧ e = x.engine) s t
      ∧ ObjectsKept (fun a => a = oa 0x5000 6
          ∨ ∃ x, s.host.tags.get (fun _ => none) tag.val = some x ∧ a = oa (engObj x.engine) 0xA) s t)) ∧
  (∀ (f : Func) (e : Fin 64) (v : BitVec 32) (s : State), ∀ c ∈ ([.dmaTail f e v, .dmaRestart f e] : List Instr),
    Relates c s (fun s t =>
      t = { s with host := { s.host with tags := t.host.tags, engines := t.host.engines, tagWait := t.host.tagWait }, od := t.od }
      ∧ TagsMove (fun _ => False) (fun k => k = e.val) s t ∧ ObjectsKept (fun a => a = oa 0x5000 6) s t)) ∧
  (∀ (f : Func) (e : Fin 64) (base : BitVec 64) (n : Nat) (s : State), ∀ c ∈ ([.dmaRun f e base n, .dmaStop f e] : List Instr),
    Relates c s (fun s t => t = { s with host := { s.host with engines := t.host.engines } } ∧ ∀ k, k ≠ e.val → t.eng k = s.eng k)) ∧
  (∀ (e : Fin 64) (d : Descriptor) (data : List Byte) (bad : List Nat) (err : Bool) (s : State),
    Relates (.dmaDescriptorComplete e d data bad err) s (fun s t =>
      t = { s with cell := { s.cell with recs := t.cell.recs, loops := t.cell.loops }, dev := { s.dev with freeCtr := t.dev.freeCtr },
                   fab := { s.fab with siteOut := t.fab.siteOut, streams := t.fab.streams },
                   host := { s.host with meter := t.host.meter, tags := t.host.tags, engines := t.host.engines, tagWait := t.host.tagWait },
                   loc := withQueues s.loc t.loc, mem := { withSpill s.mem t.mem with idleFrom := t.mem.idleFrom },
                   tst := { s.tst with stuck := t.tst.stuck }, od := t.od, out := t.out }
      ∧ (∀ k x, s.host.tags.get (fun _ => none) k = some x → x.engine ≠ e.val → t.host.tags.get (fun _ => none) k = some x)
      ∧ (∀ k, k ≠ e.val → t.eng k = { s.eng k with asked := (t.eng k).asked })
      ∧ (∀ j, t.stream j = { s.stream j with reads := (t.stream j).reads })
      ∧ ObjectsKept (fun a => QueueKeys a ∨ WakeKeys a ∨ a = oa 0x5000 6 ∨ (∃ j, 8 ≤ j ∧ j ≤ 0xA ∧ a = oa (engObj e.val) j)
          ∨ a = oa (0x5300 + s.rd (engObj e.val) 4) 3 ∨ a = oa (0x5320 + s.rd (engObj e.val) 5) 3) s t
      ∧ KeptOutside (fun p => d.d2h = false ∧
          (d.target = 0 ∧ WordOf (s.rd (winObj d.window) 2 + d.offset) ((data.length + 15) / 16) p
            ∨ d.target = 2 ∧ SpillWord (fun die q => die = d.die ∧ q = d.queue) s p)) s t)) ∧
  (∀ (f : Fin 9) (off : Nat) (wr : Option (List Byte)) (len : Nat) (inStream : Bool) (s : State),
    Relates (.apertureAccess f off wr len inStream) s (fun s t =>
      t = { s with cell := { s.cell with loops := t.cell.loops }, dev := { s.dev with freeCtr := t.dev.freeCtr },
                   host := { s.host with meter := t.host.meter, barReads := t.host.barReads, barWait := t.host.barWait, fns := t.host.fns },
                   mem := { withSpill s.mem t.mem with idleFrom := t.mem.idleFrom }, tst := { s.tst with stuck := t.tst.stuck },
                   od := t.od, out := t.out }
      ∧ ObjectsKept (fun a => a = oa (tdiAt (256 * f.val)).1 (tdiAt (256 * f.val)).2 ∨ ColumnKeys a ∨ WakeKeys a) s t
      ∧ KeptOutside (fun p => (∃ b l, b ∈ s.host.barWait ∧ b.write = some l ∧ BytesWord b.addr l.length p)
          ∨ ∃ l w o, wr = some l ∧
              (s.aperture f.val).find? (fun p => decide (p.2 ≤ off) && decide (off + l.length ≤ p.2 + s.rd (winObj p.1) 3)) = some (w, o) ∧
              BytesWord (s.rd (winObj w) 2 + (off - o)) l.length p) s t)) ∧
  (∀ (f : Func) (r : Fin 256) (base : BitVec 64) (x y z v : BitVec 32) (s : State),
      ∀ c ∈ ([.ringEnable f r base x y z, .ringHead f r v, .moderationWindowClose r] : List Instr),
    Relates c s (fun s t => t = { s with out := { s.out with rings := t.out.rings, msix := t.out.msix, pba := t.out.pba } }
      ∧ ∀ k, k ≠ r.val → t.out.ring k = s.out.ring k)) ∧
  (∀ (f : Fin 9) (new : Bool) (s : State), Relates (.spdmMessage f new) s (fun s t =>
      t = { s with host := { s.host with sessions := t.host.sessions } })) ∧
  (∀ (f : Fin 9) (k : Fin 9) (s : State), Relates (.ideKm f k) s (fun s t => t = { s with host := { s.host with ide := t.host.ide } })) ∧
  (∀ (k : Fin 9) (s : State), Relates (.ideFailure k) s (fun s t =>
      t = { s with host := { s.host with ide := t.host.ide }, od := t.od, out := t.out }
      ∧ ObjectsKept (fun a => ∃ code, code ∈ tdis ∧ a = oa (tdiAt code).1 (tdiAt code).2) s t)) ∧
  (∀ (f : Func) (op : TdispOp) (k : Fin 9) (s : State), Relates (.tdispMessage f op k) s (fun s t =>
      t = { s with host := { s.host with tdiStream := t.host.tdiStream }, od := t.od }
      ∧ ObjectsKept (fun a => a = oa (tdiAt (funcCode f)).1 (tdiAt (funcCode f)).2) s t)) ∧
  (∀ (v : BitVec 10) (n : Nat) (s : State), Relates (.setSlotPowerLimit v n) s (fun s t =>
      t = { s with od := t.od, out := t.out } ∧ ObjectsKept (fun a => a = oa 0x5000 5 ∨ a = oa 0x3000 2) s t)) ∧
  (∀ (w : BitVec 8) (rate : Fin 8) (flit : Bool) (s : State), Relates (.linkTrainingDone w rate flit) s (fun s t =>
      t = { s with dev := { s.dev with freeCtr := t.dev.freeCtr }, tst := { s.tst with stuck := t.tst.stuck }, od := t.od, out := t.out }
      ∧ ObjectsKept (fun a => TestKeys a ∨ ∃ j, 1 ≤ j ∧ j ≤ 4 ∧ a = oa 0x5000 j) s t))

/-- R333 to R366, R386 to R396, R424 to R430, R504 to R530, R534 to R543, R561: commands of the Ledger, of configuration and snapshots, of
the Perimeter, of self-test and of shutdown leave every part of the block but those named as it was. No command named here changes a byte
of memory. -/
def Obligations.LedgerAndPinFrame : Prop :=
  (∀ (die : Fin 2) (rail : Fin 3) (mv : Int) (s : State), Relates (.railTrim die rail mv) s (fun s t =>
      t = { withMeters s t with led := { s.led with trimAt := t.led.trimAt, m := t.led.m }, od := t.od }
      ∧ ObjectsKept (fun a => a = oa (railObj (4 * die.val + rail.val)) 1) s t)) ∧
  (∀ (die : Fin 2) (rail : Fin 4) (mv : BitVec 16) (s : State), Relates (.regulatorFault die rail mv) s (fun s t =>
      t = { s with fab := { s.fab with fences := t.fab.fences }, led := { s.led with faulted := t.led.faulted }, od := t.od, out := t.out }
      ∧ ObjectsKept (fun a => FenceKeys a ∨ a = oa (railObj (4 * die.val + rail.val)) 5
          ∨ rail.val = 3 ∧ ((∃ n, n < 9 ∧ a = oa (0xA010 + 16 * die.val + n) 2) ∨ ∃ i, i < 4 ∧ a = oa (islObj die.val i) 2)) s t)) ∧
  (∀ (ma : BitVec 32) (s : State), Relates (.overLimit ma) s (fun s t =>
      t = { s with led := { s.led with overStart := t.led.overStart }, out := t.out })) ∧
  (∀ (r : Region) (target : Fin 3) (cause : Fin 6) (s : State), ∀ c ∈ ([.railHop r target cause, .railHopDone r] : List Instr),
    Relates c s (fun s t => t = { withMeters s t with led := { s.led with hops := t.led.hops, m := t.led.m }, od := t.od, out := t.out }
      ∧ (∀ n, n ≠ rn r → t.hop n = s.hop n) ∧ ObjectsKept (fun a => a = oa (enObj (rn r)) 2 ∨ a = oa (enObj (rn r)) 7) s t)) ∧
  (∀ (die : Fin 2) (s : State), Relates (.thermalHop die) s (fun s t =>
      t = { s with led := { s.led with hops := t.led.hops, thermDies := t.led.thermDies, thermal := t.led.thermal }, out := t.out })) ∧
  (∀ (v : Vector Nat 8) (l : List (Region × Nat)) (s : State), Relates (.calibration v l) s (fun s t =>
      t = { withMeters s t with dev := { s.dev with freeCtr := t.dev.freeCtr },
                                led := { s.led with calAt := t.led.calAt, calNext := t.led.calNext, m := t.led.m }, out := t.out })) ∧
  (∀ (q : Req) (v : BitVec 64) (s : State), Relates (.reserveUjWrite q v) s (fun s t =>
      t = { s with mgt := withAnswer s.mgt t.mgt, od := t.od, out := t.out }
      ∧ ObjectsKept (fun a => a = oa 0x3000 2 ∨ a = oa 0x3000 5) s t)) ∧
  (∀ (i : Fin 256) (s : State), Relates (.deadlineMissed i) s (fun s t =>
      t = { s with od := t.od, out := t.out } ∧ ObjectsKept (fun a => a = oa 0x3400 3 ∨ a = oa (itemObj i.val) 6) s t)) ∧
  (∀ (ts : List (Region × Int)) (v : Vector Nat 8) (e : Nat) (s : State), Relates (.windowBoundary ts v e) s (fun s t =>
      t = { withMeters s t with
                   dev := { s.dev with freeCtr := t.dev.freeCtr },
                   fab := { s.fab with fences := t.fab.fences, streams := t.fab.streams, meter := t.fab.meter }, led := t.led,
                   loc := withQueues s.loc t.loc, mem := withColumns s.mem t.mem, tst := { s.tst with stuck := t.tst.stuck },
                   od := t.od, out := t.out }
      ∧ ObjectsKept (fun a => FenceKeys a ∨ TestKeys a ∨ (∃ k, LogKeys k a) ∨ (∃ j, j ∈ [1, 8, 9] ∧ a = oa 0x3000 j)
          ∨ (∃ k j, k < 10 ∧ j ∈ [1, 2, 3, 9, 0xA, 0xB, 0xC, 0xD] ∧ a = oa (accObj k) j)
          ∨ (∃ n j, n < 64 ∧ j ∈ [5, 8, 9] ∧ a = oa (enObj n) j) ∨ ∃ k, a = oa (railObj k) 3) s t)) ∧
  (∀ (q : Req) (a : Fin 10) (v : BitVec 8) (r : Region) (f : Bool) (s : State),
      ∀ c ∈ ([.resume q a v, .marginClear q r v, .fenceSetUser q r f, .fenceClearUser q r f] : List Instr),
    Relates c s (fun s t =>
      t = { s with dev := { s.dev with freeCtr := t.dev.freeCtr },
                   fab := { s.fab with fences := t.fab.fences, streams := t.fab.streams }, mgt := withAnswer s.mgt t.mgt,
                   loc := withQueues s.loc t.loc, mem := withColumns s.mem t.mem, tst := { s.tst with stuck := t.tst.stuck }, od := t.od, out := t.out }
      ∧ ObjectsKept (fun k => FenceKeys k ∨ TestKeys k ∨ (∃ j, LogKeys j k) ∨ k = oa (accObj a.val) 0xC ∨ k = oa (detObj (rn r)) 8) s t)) ∧
  (∀ (q : Req) (s : State), ∀ c ∈ ([.powerStateStandby q, .powerStateStandbyGated q, .powerStateRun q, .deviceWake] : List Instr),
    Relates c s (fun s t =>
      t = { withMeters s t with
                   cfg := { s.cfg with slots := t.cfg.slots }, dev := { s.dev with freeCtr := t.dev.freeCtr },
                   fab := { s.fab with fences := t.fab.fences, streams := t.fab.streams, resets := t.fab.resets, meter := t.fab.meter },
                   led := { s.led with hops := t.led.hops, m := t.led.m },
                   loc := withQueues s.loc t.loc, mem := withColumns s.mem t.mem, mgt := withAnswer s.mgt t.mgt,
                   pin := { s.pin with pads := t.pin.pads, meter := t.pin.meter },
                   ray := { s.ray with lanes := t.ray.lanes }, tst := { s.tst with stuck := t.tst.stuck }, od := t.od, out := t.out }
      ∧ ObjectsKept (fun a => FenceKeys a ∨ TestKeys a ∨ (∃ k, LogKeys k a) ∨ a = oa 0x3000 0xA ∨ a = oa 0x2800 2
          ∨ (∃ k, k < 64 ∧ a = oa (slotObj k) 8) ∨ (∃ k n, n ∈ (s.slot k).held ∧ a = oa (regObj n) 4)
          ∨ (∃ n, n < 64 ∧ (a = oa (enObj n) 2 ∨ a = oa (regObj n) 7)) ∨ (∃ p, p < 40 ∧ a = oa (pinObj p) 8)
          ∨ (∃ d, d < 2 ∧ a = oa (0x58C0 + d) 5) ∨ (∃ p, p < 16 ∧ a = oa (rportObj p) 2)
          ∨ ∃ k, k < 16 ∧ (a = oa (laneObj k) 2 ∨ a = oa (laneObj k) 0xD ∨ a = oa (laneObj k) 0xE ∨ a = oa (eqObj k) 7 ∨ a = oa (eqObj k) 8))
          s t)) ∧
  (∀ (q : Req) (k : Fin 64) (v : BitVec 8) (s : State), ∀ c ∈ ([.snapshot q k v, .rollback q k v] : List Instr),
    Relates c s (fun s t =>
      t = { s with cfg := { s.cfg with slots := t.cfg.slots }, fab := { s.fab with fences := t.fab.fences }, mgt := withAnswer s.mgt t.mgt,
                   od := t.od }
      ∧ ObjectsKept (fun a => FenceKeys a ∨ (∃ n, n ∈ (s.slot k.val).held ∧ a = oa (regObj n) 4) ∨ a = oa (slotObj k.val) 8 ∨ a = oa 0x2800 2) s t
      ∧ ∀ j, j ≠ k.val → t.slot j = s.slot j)) ∧
  (∀ (q : Req) (v : BitVec 8) (otp : OtpResult) (s : State), Relates (.accept q v otp) s (fun s t =>
      t = { s with cfg := { s.cfg with accepting := t.cfg.accepting }, mgt := withAnswer s.mgt t.mgt,
                   sec := { s.sec with fused := t.sec.fused, pendingCtr := t.sec.pendingCtr, retryAt := t.sec.retryAt },
                   od := t.od, out := t.out }
      ∧ ObjectsKept (fun a => a = oa 0x2000 6 ∨ a = oa 0x8000 0xA ∨ a = oa 0x8020 0x41 ∨ a = oa 0x8020 (1 + s.cfg.counter)) s t)) ∧
  (∀ (q : Req) (die : Fin 2) (v : BitVec 8) (s : State), Relates (.loadGo q die v) s (fun s t =>
      t = { s with cfg := { s.cfg with loads := t.cfg.loads, tried := t.cfg.tried },
                   dev := { s.dev with bootHeld := t.dev.bootHeld, doneLow := t.dev.doneLow, initLow := t.dev.initLow },
                   mgt := withAnswer s.mgt t.mgt, od := t.od, out := t.out }
      ∧ ObjectsKept (fun a => a = oa (loadObj die.val) 5 ∨ a = oa (loadObj die.val) 7 ∨ a = oa 0x2000 1) s t
      ∧ ∀ d, d ≠ die.val → t.load d = s.load d)) ∧
  (∀ (c : Fin 40) (w : Word) (s : State), ∀ i ∈ ([.fabricOut c w, .fabricIn c w] : List Instr),
    Relates i s (fun s t =>
      t = { s with cell := { s.cell with recs := t.cell.recs },
                   fab := { withTokens s.fab t.fab with pace := t.fab.pace, streams := t.fab.streams },
                   loc := withQueues s.loc t.loc,
                   mem := withSpill s.mem t.mem, pin := { s.pin with meter := t.pin.meter }, od := t.od, out := t.out }
      ∧ (∀ k, k ≠ siteNum (.pin c) → t.cellAt k = s.cellAt k) ∧ UnitsKept noUnit noUnit s.fab t.fab
      ∧ StreamsKept (siteRegion (.pin c)) s t
      ∧ ObjectsKept (fun a => LogKeys (siteRegion (.pin c)) a ∨ ∃ p, p < 40 ∧ a = oa (pinObj p) 9) s t
      ∧ SpillOnly (IsLog (siteRegion (.pin c)) s) s t)) ∧
  (∀ (q : Req) (p : Fin 40) (v : BitVec 16) (s : State), Relates (.funcWrite q p v) s (fun s t =>
      t = { s with mgt := withAnswer s.mgt t.mgt, pin := { s.pin with pads := t.pin.pads, meter := t.pin.meter }, od := t.od, out := t.out }
      ∧ ObjectsKept (fun a => a = oa (pinObj p.val) 2 ∨ a = oa (pinObj p.val) 9 ∨ a = oa 0x6000 1 ∨ ∃ j, j < 40 ∧ a = oa (pinObj j) 0xA) s t)) ∧
  (∀ (q : Req) (p : Fin 40) (x : PinSetting) (v : BitVec 8) (s : State), Relates (.pinSettingWrite q p x v) s (fun s t =>
      t = { s with mgt := withAnswer s.mgt t.mgt, pin := { s.pin with meter := t.pin.meter }, od := t.od }
      ∧ ObjectsKept (fun a => a = oa (pinObj p.val) (settingSub x) ∨ a = oa (pinObj p.val) 9) s t)) ∧
  (∀ (q : Req) (k : Fin 2) (l : List Byte) (b : Byte) (s : State), ∀ c ∈ ([.uartXfer q k l, .uartRxRead q k, .uartByteReceived k b] : List Instr),
    Relates c s (fun s t =>
      t = { s with mgt := withAnswer s.mgt t.mgt, pin := { s.pin with serial := t.pin.serial }, od := t.od }
      ∧ (∀ j, j ≠ k.val → t.serial j = s.serial j) ∧ ObjectsKept (fun a => a = oa (serialObj k.val) 6) s t)) ∧
  (∀ (q : Req) (k : Fin 2) (l : List Byte) (s : State), Relates (.i2cXfer q k l) s (fun s t =>
      t = { s with mgt := withAnswer s.mgt t.mgt, pin := { s.pin with serial := t.pin.serial }, od := t.od }
      ∧ (∀ j, j ≠ 2 + k.val → t.serial j = s.serial j) ∧ ObjectsKept (fun a => a = oa (serialObj (2 + k.val)) 6) s t)) ∧
  (∀ (q : Req) (l : List Byte) (s : State), Relates (.spiXfer q l) s (fun s t =>
      t = { s with mgt := withAnswer s.mgt t.mgt, pin := { s.pin with serial := t.pin.serial }, od := t.od }
      ∧ (∀ j, j ≠ 4 → t.serial j = s.serial j) ∧ ObjectsKept (fun a => a = oa (serialObj 4) 6) s t)) ∧
  (∀ (k : Fin 3) (nack : Bool) (l : List Byte) (s : State), Relates (.serialTransferComplete k nack l) s (fun s t =>
      t = { s with pin := { s.pin with serial := t.pin.serial }, od := t.od }
      ∧ (∀ j, j ≠ 2 + k.val → t.serial j = s.serial j) ∧ ObjectsKept (fun a => a = oa (serialObj (2 + k.val)) 6) s t)) ∧
  (∀ (k : Fin 4) (s : State), Relates (.pwmPeriodStart k) s (fun s t =>
      t = { s with pin := { s.pin with pwm := t.pin.pwm, meter := t.pin.meter }, od := t.od }
      ∧ (∀ j, j ≠ k.val → t.pwm j = s.pwm j) ∧ ObjectsKept (fun a => ∃ p, p < 40 ∧ a = oa (pinObj p) 9) s t)) ∧
  (∀ (k : Fin 4) (up : Bool) (s : State), Relates (.tscapEdge k up) s (fun s t =>
      t = { s with dev := { s.dev with freeCtr := t.dev.freeCtr }, od := t.od }
      ∧ ObjectsKept (fun a => a = oa (tscapObj k.val) 4 ∨ a = oa (tscapObj k.val) 5) s t)) ∧
  (∀ (n : Fin 10) (b : Bool) (s : State), ∀ c ∈ ([.pinInterrupt n b, .coalesceWindowClose n b] : List Instr),
    Relates c s (fun s t => t = { s with pin := { s.pin with lines := t.pin.lines }, od := t.od, out := t.out }
      ∧ ObjectsKept (fun a => a = oa (lineObj n.val) 6) s t)) ∧
  (∀ (q : Option Req) (s : State), Relates (.holdReleased q) s (fun s t =>
      t = { s with mgt := withAnswer s.mgt t.mgt, pin := { s.pin with meter := t.pin.meter }, od := t.od, out := t.out }
      ∧ ObjectsKept (fun a => ∃ p, p < 40 ∧ (a = oa (pinObj p) 8 ∨ a = oa (pinObj p) 9)) s t)) ∧
  (∀ (b : Fin 4) (mv : BitVec 16) (s : State), Relates (.vccioMeasurement b mv) s (fun s t =>
      t = { s with dev := { s.dev with freeCtr := t.dev.freeCtr }, pin := { s.pin with banks := t.pin.banks },
                   tst := { s.tst with stuck := t.tst.stuck }, od := t.od, out := t.out }
      ∧ (∀ k, k ≠ b.val → t.bank k = s.bank k)
      ∧ ObjectsKept (fun a => TestKeys a ∨ a = oa (bankObj b.val) 2 ∨ a = oa (bankObj b.val) 3) s t)) ∧
  (∀ (q : Req) (k : Fin 16) (v : BitVec 8) (s : State), ∀ c ∈ ([.testPost q k v, .testWithdraw q k v] : List Instr),
    Relates c s (fun s t =>
      t = { s with dev := { s.dev with freeCtr := t.dev.freeCtr }, led := { s.led with items := t.led.items, posted := t.led.posted },
                   mgt := withAnswer s.mgt t.mgt, tst := { s.tst with slots := t.tst.slots }, od := t.od, out := t.out }
      ∧ ObjectsKept (fun a => (∃ j, 8 ≤ j ∧ j ≤ 0x12 ∧ a = oa (testObj k.val) j) ∨ a = oa 0x7000 1 ∨ a = oa 0x7000 2
          ∨ a = oa 0x3400 1 ∨ a = oa 0x3400 4 ∨ ∃ i j, i < 256 ∧ 1 ≤ j ∧ j ≤ 6 ∧ a = oa (itemObj i) j) s t)) ∧
  (∀ (k : Fin 16) (s : State), Relates (.testStart k) s (fun s t =>
      t = { s with cell := { s.cell with loops := t.cell.loops }, od := t.od, out := t.out }
      ∧ ObjectsKept (fun a => TestKeys a ∨ a = oa (laneObj (s.rd (testObj k.val) 4)) 2 ∨ a = oa (pinObj (s.rd (testObj k.val) 4)) 8) s t)) ∧
  (∀ (k : Fin 16) (o : TestOutcome) (s : State), ∀ c ∈ ([.testDone k o, .testEndingRequest k o, .testDurationExpiry k o,
      .rayFarNoLock k o] : List Instr),
    Relates c s (fun s t =>
      t = { s with dev := { s.dev with freeCtr := t.dev.freeCtr },
                   tst := { s.tst with stuck := t.tst.stuck }, od := t.od, out := t.out }
      ∧ ObjectsKept TestKeys s t)) ∧
  (∀ (x : Int) (s : State), Relates (.thermN x) s (fun s t =>
      t = { s with dev := { s.dev with thermLow := t.dev.thermLow }, led := { s.led with thermDies := t.led.thermDies } })) ∧
  (∀ s : State, Relates .shutdownRecovery s (fun s t => t = { s with dev := { s.dev with shutdown := t.dev.shutdown } }))

/-- R434 to R470, R471 to R503: commands of Sebex, JTAG, Apex and the Kimbe chain leave every part of the block but those named as it was;
none named here changes a byte of memory or the fabric, but for the items that the prime's answers put at a user-object channel. -/
def Obligations.ManagementFrame : Prop :=
  (∀ (f : Option (Fin 2)) (ok : Bool) (s : State), Relates (.keyDerivation f ok) s (fun s t =>
      t = { s with dev := { s.dev with freeCtr := t.dev.freeCtr, keysDue := t.dev.keysDue },
                   sec := { s.sec with drbgLive := t.sec.drbgLive, drbgRequests := t.sec.drbgRequests, packageKey := t.sec.packageKey,
                                       reseededAt := t.sec.reseededAt }, od := t.od, out := t.out }
      ∧ ObjectsKept (fun a => (∃ d, d ∈ tokenDomains ∧ a = oa (tokObj d) 1) ∨ a = oa 0x8000 3 ∨ a = oa 0x8000 8 ∨ a = oa 0x8000 0xC) s t)) ∧
  (∀ (q : Req) (k : Fin 4) (v : BitVec 384) (otp : OtpResult) (s : State), ∀ c ∈ ([.ecHashWrite q k v otp, .mlHashWrite q k v otp] : List Instr),
    Relates c s (fun s t =>
      t = { s with mgt := withAnswer s.mgt t.mgt, sec := { s.sec with wroteEc := t.sec.wroteEc, wroteMl := t.sec.wroteMl }, od := t.od,
                   out := t.out }
      ∧ ObjectsKept (fun a => (∃ j, 1 ≤ j ∧ j ≤ 3 ∧ a = oa (0x8010 + k.val) j) ∨ a = oa 0x8000 2 ∨ a = oa 0x8000 0xA) s t)) ∧
  (∀ (q : Req) (k : Fin 4) (v : BitVec 8) (otp : OtpResult) (s : State), Relates (.keyRevoked q k v otp) s (fun s t =>
      t = { s with mgt := withAnswer s.mgt t.mgt, od := t.od, out := t.out }
      ∧ ObjectsKept (fun a => a = oa (0x8010 + k.val) 3 ∨ a = oa 0x8000 0xA) s t)) ∧
  (∀ (q : Req) (f : OtpField) (v : BitVec 256) (otp : OtpResult) (s : State), Relates (.policyOtpWrite q f v otp) s (fun s t =>
      t = { s with mgt := withAnswer s.mgt t.mgt, od := t.od, out := t.out }
      ∧ ObjectsKept (fun a => a = oa (otpPlace f).1 (otpPlace f).2.1 ∨ a = oa 0x8000 0xA) s t)) ∧
  (∀ (q : Req) (l : List Byte) (ok : Bool) (otp : OtpResult) (s : State), Relates (.ownerCekBlobWrite q l ok otp) s (fun s t =>
      t = { s with mgt := withAnswer s.mgt t.mgt, od := t.od, out := t.out }
      ∧ ObjectsKept (fun a => a = oa 0x8000 0xC ∨ a = oa 0x8000 0xA) s t)) ∧
  (∀ (k : Fin 64) (otp : OtpResult) (s : State), Relates (.counterRetry k otp) s (fun s t =>
      t = { s with sec := { s.sec with fused := t.sec.fused, pendingCtr := t.sec.pendingCtr, retryAt := t.sec.retryAt }, od := t.od,
                   out := t.out }
      ∧ ObjectsKept (fun a => a = oa 0x8020 (1 + k.val) ∨ a = oa 0x8020 0x41 ∨ a = oa 0x8000 0xA) s t)) ∧
  (∀ (q : Req) (d : BitVec 4) (v : BitVec 256) (s : State), Relates (.nonce q d v) s (fun s t =>
      t = { s with mgt := withAnswer s.mgt t.mgt, od := t.od }
      ∧ ObjectsKept (fun a => ∃ j, 1 ≤ j ∧ j ≤ 7 ∧ a = oa (quoteObj d.toNat) j) s t)) ∧
  (∀ (d : BitVec 4) (s : State), Relates (.quoteReady d) s (fun s t =>
      t = { s with dev := { s.dev with freeCtr := t.dev.freeCtr }, od := t.od }
      ∧ ObjectsKept (fun a => ∃ j, 2 ≤ j ∧ j ≤ 7 ∧ a = oa (quoteObj d.toNat) j) s t)) ∧
  (∀ (q : Req) (d : BitVec 4) (l : List Byte) (s : State), Relates (.tokenAppend q d l) s (fun s t =>
      t = { s with mgt := withAnswer s.mgt t.mgt, sec := { s.sec with buffers := t.sec.buffers } })) ∧
  (∀ (q : Req) (d : BitVec 4) (v : BitVec 8) (x : DebugToken) (s : State),
      ∀ c ∈ ([.tokenSubmit q d v x, .tokenDiscard q d v, .tokenRevoke q d v, .tokenExpiry d] : List Instr),
    Relates c s (fun s t =>
      t = { s with dev := { s.dev with freeCtr := t.dev.freeCtr }, mgt := withAnswer s.mgt t.mgt,
                   sec := { s.sec with buffers := t.sec.buffers, drbgRequests := t.sec.drbgRequests, lastReject := t.sec.lastReject },
                   od := t.od, out := t.out }
      ∧ ObjectsKept (fun a => ∃ j, (j = 1 ∨ j = 4 ∨ j = 5 ∨ j = 6 ∨ j = 8) ∧ a = oa (tokObj d.toNat) j) s t)) ∧
  (∀ (b : BitVec 120) (o : BitVec 8) (r : Region) (s : State),
      ∀ c ∈ ([.samplePreload b, .idcode, .bypass, .dbgChallenge o, .dbgStatus, .stateRead r, .apexAccess] : List Instr),
    Relates c s (fun s t =>
      t = { s with dev := { s.dev with bscan := t.dev.bscan, dr := t.dev.dr, ir := t.dev.ir, irOut := t.dev.irOut, freeCtr := t.dev.freeCtr },
                   pin := { s.pin with jtag := t.pin.jtag } })) ∧
  (∀ (b : BitVec 120) (s : State), ∀ c ∈ ([.highz, .clamp, .extest b] : List Instr),
    Relates c s (fun s t =>
      t = { s with dev := { s.dev with bscan := t.dev.bscan, dr := t.dev.dr, ir := t.dev.ir, irOut := t.dev.irOut },
                   pin := { s.pin with jtag := t.pin.jtag, pads := t.pin.pads }, out := t.out })) ∧
  (∀ (x : DebugToken) (s : State), Relates (.dbgToken x) s (fun s t =>
      t = { s with dev := { s.dev with dr := t.dev.dr, ir := t.dev.ir, irOut := t.dev.irOut, freeCtr := t.dev.freeCtr },
                   pin := { s.pin with jtag := t.pin.jtag },
                   sec := { s.sec with drbgRequests := t.sec.drbgRequests, lastReject := t.sec.lastReject }, od := t.od, out := t.out }
      ∧ ObjectsKept (fun a => ∃ j, (j = 1 ∨ j = 4 ∨ j = 5 ∨ j = 6 ∨ j = 8) ∧ a = oa (tokObj (x.domain % 256)) j) s t)) ∧
  (∀ s : State, Relates .drbgReseed s (fun s t =>
      t = { s with sec := { s.sec with drbgRequests := t.sec.drbgRequests, reseededAt := t.sec.reseededAt } })) ∧
  (∀ (k : Fin 3) (s : State), Relates (.entropyFail k) s (fun s t =>
      t = { s with od := t.od, out := t.out } ∧ ObjectsKept (fun a => a = oa 0x8000 8) s t)) ∧
  (∀ (q : Req) (v : BitVec 8) (s : State), Relates (.tamperAck q v) s (fun s t =>
      t = { s with cfg := { s.cfg with tried := t.cfg.tried },
                   dev := { s.dev with tamperLatch := t.dev.tamperLatch, bootHeld := t.dev.bootHeld, doneLow := t.dev.doneLow,
                                       initLow := t.dev.initLow },
                   mgt := withAnswer s.mgt t.mgt, od := t.od, out := t.out }
      ∧ ObjectsKept (fun a => a = oa 0x8050 1 ∨ a = oa 0x2000 1) s t)) ∧
  (∀ s : State, Relates .tamperNRelease s (fun s t =>
      t = { s with dev := { s.dev with tamperLow := t.dev.tamperLow }, od := t.od } ∧ ObjectsKept (fun a => a = oa 0x8050 2) s t)) ∧
  (∀ (die : Fin 2) (s : State), Relates (.apexWake die) s (fun s t =>
      t = { s with dev := { s.dev with awake := t.dev.awake }, mgt := { s.mgt with served := t.mgt.served, idleFrom := t.mgt.idleFrom },
                   pin := { s.pin with lines := t.pin.lines }, od := t.od, out := t.out }
      ∧ ObjectsKept (fun a => a = oa 0xA000 3 ∨ a = oa 0xA200 2 ∨ a = oa 0xA200 3) s t)) ∧
  (∀ (die : Fin 2) (s : State), Relates (.apexIdle die) s (fun s t =>
      t = { s with dev := { s.dev with awake := t.dev.awake }, od := t.od }
      ∧ ObjectsKept (fun a => a = oa 0xA000 3 ∨ a = oa 0xA200 2 ∨ a = oa 0xA200 3) s t)) ∧
  (∀ (die : Fin 2) (s : State), Relates (.apexWatchdog die) s (fun s t =>
      t = { s with fab := { s.fab with siteOut := t.fab.siteOut }, host := { s.host with boxes := t.host.boxes }, mgt := t.mgt, od := t.od,
                   out := t.out } ∧ ObjectsKept (fun a => a = oa 0x1030 6) s t)) ∧
  (∀ (die : Fin 2) (s : State), Relates (.userTimeout die) s (fun s t =>
      t = { s with fab := { s.fab with siteOut := t.fab.siteOut }, host := { s.host with boxes := t.host.boxes }, mgt := t.mgt,
                   out := t.out })) ∧
  (∀ (die : Fin 2) (h : Word) (l : List Byte) (s : State), Relates (.userObjectServerResponse die h l) s (fun s t =>
      t = { s with cell := { s.cell with recs := t.cell.recs }, fab := { withTokens s.fab t.fab with pace := t.fab.pace },
                   host := { s.host with boxes := t.host.boxes }, mgt := t.mgt, out := { s.out with msix := t.out.msix, pba := t.out.pba } }
      ∧ (∀ k, k ≠ siteNum (.object die true) → t.cellAt k = s.cellAt k) ∧ UnitsKept noUnit noUnit s.fab t.fab)) ∧
  (∀ (f : KFrame) (s : State), Relates (.assign f) s (fun s t =>
      t = { s with dev := { s.dev with awake := t.dev.awake, freeCtr := t.dev.freeCtr },
                   mgt := { withForward s.mgt t.mgt with assignAt := t.mgt.assignAt, follower := t.mgt.follower }, od := t.od, out := t.out }
      ∧ ObjectsKept (fun a => (∃ j, (j = 2 ∨ j = 3 ∨ j = 4 ∨ j = 9 ∨ j = 0xA) ∧ a = oa 0x1010 j)
          ∨ a = oa 0xA000 3 ∨ a = oa 0xA200 2 ∨ a = oa 0xA200 3) s t)) ∧
  (∀ (q : Req) (v : BitVec 8) (s : State), Relates (.assignGo q v) s (fun s t =>
      t = { s with mgt := { withAnswer s.mgt t.mgt with assignAt := t.mgt.assignAt, sent := t.mgt.sent }, od := t.od }
      ∧ ObjectsKept (fun a => a = oa 0x1010 2) s t)) ∧
  (∀ s : State, Relates .ringDetectTimeout s (fun s t =>
      t = { s with mgt := { s.mgt with assignAt := t.mgt.assignAt }, od := t.od }
      ∧ ObjectsKept (fun a => a = oa 0x1010 3 ∨ a = oa 0x1010 4) s t)) ∧
  (∀ (a b : Bool) (s : State), Relates (.kimbeLink a b) s (fun s t =>
      t = { s with mgt := { s.mgt with assignAt := t.mgt.assignAt, sent := t.mgt.sent }, od := t.od, out := t.out }
      ∧ ObjectsKept (fun a => a = oa 0x1010 2 ∨ a = oa 0x1010 5) s t)) ∧
  (∀ (f : KFrame) (s : State), ∀ c ∈ ([.odResp f, .eventFrame f, .ping f] : List Instr),
    Relates c s (fun s t =>
      t = { s with dev := { s.dev with awake := t.dev.awake, freeCtr := t.dev.freeCtr }, mgt := withForward s.mgt t.mgt, od := t.od,
                   out := t.out }
      ∧ ObjectsKept (fun a => a = oa 0x1010 9 ∨ a = oa 0x1010 0xA ∨ a = oa 0xA000 3 ∨ a = oa 0xA200 2 ∨ a = oa 0xA200 3) s t)) ∧
  (∀ s : State, Relates .kimbeFrameForward s (fun s t =>
      t = { s with dev := { s.dev with freeCtr := t.dev.freeCtr },
                   mgt := { s.mgt with held := t.mgt.held, heldCfg := t.mgt.heldCfg, lastCfg := t.mgt.lastCfg, sent := t.mgt.sent },
                   out := { s.out with kimbeEvents := t.out.kimbeEvents } })) ∧
  (∀ s : State, Relates .leaseSend s (fun s t =>
      t = { s with mgt := { s.mgt with leaseSentAt := t.mgt.leaseSentAt, served := t.mgt.served } })) ∧
  (∀ (die : Fin 2) (s : State), Relates (.tieLineRelease die) s (fun s t =>
      t = { s with mgt := { s.mgt with released := t.mgt.released, tieLow := t.mgt.tieLow } })) ∧
  (∀ (die : Fin 2) (e : BitVec 32) (c : Bool) (s : State), Relates (.lease die e c) s (fun s t =>
      t = { s with mgt := { s.mgt with ackLapsed := t.mgt.ackLapsed, epochs := t.mgt.epochs, lastAck := t.mgt.lastAck,
                                       lastLease := t.mgt.lastLease, released := t.mgt.released, served := t.mgt.served }, od := t.od,
                   out := t.out }
      ∧ ObjectsKept (fun a => a = oa 0x1030 3) s t)) ∧
  (∀ (e : BitVec 32) (s : State), Relates (.splitHold e) s (fun s t =>
      t = { s with mgt := { s.mgt with epochs := t.mgt.epochs }, od := t.od, out := t.out } ∧ ObjectsKept (fun a => a = oa 0x1030 3) s t))


/-! ### Rules of the units, of a step and of the whole block -/

/-- R44: an unused input is presented to F and G as 0, whatever its select holds; in DR mode both inputs of a pair
are used when either USE bit is set (R43). The carry-in that R58 puts in the place of IN4 and IN5 is no
input. -/
def Obligations.UnusedInputsReadZero : Prop :=
  ∀ (f : FabSt) (u i : Nat) (c : LuCfg), i < 6 →
    (if c.mode = 0 then c.use.testBit (i / 2 * 2) = false ∧ c.use.testBit (i / 2 * 2 + 1) = false else c.use.testBit i = false) →
    ¬(c.mode = 0 ∧ c.carry ≠ 0 ∧ 4 ≤ i) →
    (f.index u c).testBit i = false

/-- R61: INIT sets the latch of a DR or BD LU, where its configuration takes its place and again as GSR is released at STARTUP: EMPTY holds
no token, FULL0 and FULL1 hold one, in DR mode on the rail of their value and in BD mode in both captured bits. -/
def Obligations.InitSetsTheLatch : Prop :=
  let latch (c : LuCfg) (x : LuSt) : Prop :=
    (c.init = 0 → x.full = false) ∧
    (c.init = 1 → x.full = true ∧ x.oF = false ∧ x.oG = decide (c.mode = 0)) ∧
    (c.init = 2 → x.full = true ∧ x.oF = true ∧ x.oG = decide (c.mode = 1))
  (∀ (f : FabSt) (u : LuLoc) (c : LuCfg), c.mode < 2 → latch c ((f.putSetting (.lu u c)).lu (un u))) ∧
  ∀ (s : State) (u : LuLoc) (c : LuCfg), s.rd 0x2000 1 = 2 → s.dev.doneLow = false → s.regState (rn ⟨u.die, u.region⟩) = 1 →
    (s.fab.lu (un u)).cfg = some c → c.mode < 2 → Completes .startup s (fun t => latch c (t.fab.lu (un u)))

/-- R120: the source codes of an operand of a Prism, and the sideband of an operand that is not a channel token. `ws` holds the tokens taken
from channels X (0) and Y (1). -/
def Obligations.PrismSources : Prop :=
  (∀ (x : PrismSt) (g : PrismCfg) (ws : List (Nat × Word)),
    (∀ k w, k < 2 → cellsFind ws k = some w → x.operand g ws k = (w.data.toNat, w.poison)) ∧
    (∀ j v p, j < 4 → x.l[j]? = some (v, p) → x.operand g ws (2 + j) = (v.toNat, p)) ∧
    x.operand g ws 6 = (g.k.toNat, false) ∧ x.operand g ws 7 = (0, false)) ∧
  (∀ (e : Nat) (ws : List (Nat × Word)),
    (fieldAt e 40 2 = 0 → 2 ≤ opSrcA e → resultSide e ws = (false, false, false)) ∧
    (fieldAt e 40 2 = 1 → 2 ≤ opSrcB e → resultSide e ws = (false, false, false)) ∧
    (fieldAt e 40 2 = 2 → 2 ≤ opSrcA e → resultSide e ws = ((sideOf ws (readsB (opCode e)) (opSrcB e)).1, false, false)) ∧
    (fieldAt e 40 2 = 2 → 2 ≤ opSrcB e → resultSide e ws = sideOf ws (readsA (opCode e)) (opSrcA e)))

/-- A step takes the command at the front of the queue and is its effect on the block with the rest of the queue; on an empty queue the block
idles, which is the model's choice (notes/assumptions/1.md). -/
def Obligations.StepRunsFront : Prop :=
  (∀ (c : Instr) (rest : List Instr) (s : State), s.pending = c :: rest → step s = exec c { s with pending := rest }) ∧
  ∀ s : State, s.pending = [] → step s = .next s

/-- Every command that its protocol can carry has an effect or none, and the block goes on; one whose operands do not fit together is refused
by name. No command ends in a fault. -/
def Obligations.WellFormedCommandsRun : Prop :=
  ∀ (i : Instr) (s : State),
    (i.wellFormed = true → ∃ t, exec i s = .next t) ∧ (i.wellFormed = false → ∃ m, exec i s = .refused (.illFormed m))

/-- R67, R386, R481: at reset the power-on reset is asserted and GSR with it, the queue is empty and no event has been raised, every object
reads as its default, and memory, whose content the spec leaves open, is in its canonical form and lists nothing (reading 0, the model's
choice). The invariants of the block hold. -/
def Obligations.ResetState : Prop :=
  State.reset.pending = [] ∧ State.reset.dev.por = true ∧ State.reset.fab.gsr = true ∧ State.reset.out.log = []
    ∧ (∀ idx sub, State.reset.rd idx sub = odDefault (oa idx sub))
    ∧ (∀ u, (State.reset.fab.lu u).cfg = none) ∧ (∀ n, State.reset.regState n = 0)
    ∧ (∀ p, State.reset.mem.load p = Word.zero) ∧ State.reset.mem.wf = true ∧ AllRailsOk State.reset

/-- Every step keeps the canonical form of memory, from every state that has it. -/
def Obligations.StepKeepsMemoryForm : Prop :=
  ∀ s t : State, s.mem.wf = true → step s = .next t → t.mem.wf = true

/-- R45, R55, R56: every step keeps the rails of every LU: no DR LU drives both rails high, and it drives one exactly while it holds a token;
the outputs of a Muller cell stay complements; and no MX LU raises both grants. -/
def Obligations.StepKeepsRails : Prop :=
  ∀ s t : State, AllRailsOk s → step s = .next t → AllRailsOk t
end

