-- ==== Sys2Proof/Laws/SMap.lean ====
section
/-! SUPPORT. Laws of the sparse maps: a read after a write, and that every operation keeps the canonical form. -/

namespace Sys2Proof.Machine

variable {α : Type}

theorem cellsFind_insert (l : List (Nat × α)) (n m : Nat) (x : α) :
    cellsFind (cellsInsert l n x) m = if m = n then some x else cellsFind l m := by
  induction l with
  | nil => simp [cellsInsert, cellsFind]
  | cons c l ih =>
    obtain ⟨k, v⟩ := c
    simp only [cellsInsert]
    split
    · simp [cellsFind]
    · split
      · next h => subst h; simp only [cellsFind]; split <;> rfl
      · next h =>
        simp only [cellsFind, ih]
        split
        · next h2 => subst h2; rw [if_neg (Ne.symm h)]
        · rfl

theorem cellsFind_erase (l : List (Nat × α)) (n m : Nat) :
    cellsFind (cellsErase l n) m = if m = n then none else cellsFind l m := by
  induction l with
  | nil => simp [cellsErase, cellsFind]
  | cons c l ih =>
    obtain ⟨k, v⟩ := c
    simp only [cellsErase]
    split
    · next h => subst h; rw [ih]; simp only [cellsFind]; split <;> simp_all
    · next h =>
      simp only [cellsFind, ih]
      split
      · next h2 => subst h2; rw [if_neg (Ne.symm h)]
      · rfl

/-- A read after a write: the value written at its key, and what stood at every other. -/
theorem SMap.get_put [DecidableEq α] (d : Nat → α) (m : SMap α) (k j : Nat) (v : α) :
    (m.put d k v).get d j = if j = k then v else m.get d j := by
  by_cases h : v = d k
  · by_cases hj : j = k <;> simp [SMap.put, SMap.get, h, cellsFind_erase, hj]
  · by_cases hj : j = k <;> simp [SMap.put, SMap.get, h, cellsFind_insert, hj]

@[simp] theorem SMap.get_put_same [DecidableEq α] (d : Nat → α) (m : SMap α) (k : Nat) (v : α) :
    (m.put d k v).get d k = v := by simp [SMap.get_put]

theorem SMap.get_put_ne [DecidableEq α] (d : Nat → α) (m : SMap α) {k j : Nat} (v : α) (h : j ≠ k) :
    (m.put d k v).get d j = m.get d j := by simp [SMap.get_put, h]

@[simp] theorem SMap.get_nil (d : Nat → α) (k : Nat) : (⟨[]⟩ : SMap α).get d k = d k := rfl

theorem cellsRising_mono {l : List (Nat × α)} {a b : Nat} (h : a ≤ b) : cellsRising b l = true → cellsRising a l = true := by
  cases l with
  | nil => simp [cellsRising]
  | cons c l => 
    obtain ⟨k, v⟩ := c
    simp only [cellsRising, Bool.and_eq_true, decide_eq_true_eq]
    exact fun ⟨h1, h2⟩ => ⟨by omega, h2⟩

theorem cellsRising_insert (l : List (Nat × α)) (a n : Nat) (x : α) (ha : a ≤ n) :
    cellsRising a l = true → cellsRising a (cellsInsert l n x) = true := by
  induction l generalizing a with
  | nil => intro _; simp [cellsInsert, cellsRising, ha]
  | cons c l ih =>
    obtain ⟨k, v⟩ := c
    simp only [cellsInsert, cellsRising, Bool.and_eq_true, decide_eq_true_eq]
    rintro ⟨h1, h2⟩
    split
    · next h => simp only [cellsRising, Bool.and_eq_true, decide_eq_true_eq]; exact ⟨ha, by omega, h2⟩
    · split
      · next h => subst h; simp only [cellsRising, Bool.and_eq_true, decide_eq_true_eq]; exact ⟨h1, h2⟩
      · simp only [cellsRising, Bool.and_eq_true, decide_eq_true_eq]; exact ⟨h1, ih (k + 1) (by omega) h2⟩

theorem cellsErase_mem {l : List (Nat × α)} {n : Nat} {c : Nat × α} (h : c ∈ cellsErase l n) : c ∈ l := by
  induction l with
  | nil => simp [cellsErase] at h
  | cons a l ih =>
    obtain ⟨k, v⟩ := a
    simp only [cellsErase] at h
    split at h
    · exact List.mem_cons_of_mem _ (ih h)
    · rcases List.mem_cons.mp h with h | h
      · exact h ▸ List.mem_cons_self ..
      · exact List.mem_cons_of_mem _ (ih h)

theorem cellsInsert_mem {l : List (Nat × α)} {n : Nat} {x : α} {c : Nat × α} (h : c ∈ cellsInsert l n x) : c = (n, x) ∨ c ∈ l := by
  induction l with
  | nil => simpa [cellsInsert] using h
  | cons a l ih =>
    obtain ⟨k, v⟩ := a
    simp only [cellsInsert] at h
    split at h
    · rcases List.mem_cons.mp h with h | h
      · exact Or.inl h
      · exact Or.inr h
    · split at h
      · rcases List.mem_cons.mp h with h | h
        · exact Or.inl h
        · exact Or.inr (List.mem_cons_of_mem _ h)
      · rcases List.mem_cons.mp h with h | h
        · exact Or.inr (h ▸ List.mem_cons_self ..)
        · exact (ih h).imp id (List.mem_cons_of_mem _)

theorem cellsRising_filter (l : List (Nat × α)) (p : Nat × α → Bool) (a : Nat) :
    cellsRising a l = true → cellsRising a (l.filter p) = true := by
  induction l generalizing a with
  | nil => simp [cellsRising]
  | cons c l ih =>
    obtain ⟨k, v⟩ := c
    simp only [cellsRising, Bool.and_eq_true, decide_eq_true_eq]
    rintro ⟨h1, h2⟩
    simp only [List.filter]
    split
    · simp only [cellsRising, Bool.and_eq_true, decide_eq_true_eq]; exact ⟨h1, ih _ h2⟩
    · exact cellsRising_mono (by omega) (ih _ h2)

theorem cellsErase_eq_filter (l : List (Nat × α)) (n : Nat) : cellsErase l n = l.filter (fun c => decide (n ≠ c.1)) := by
  induction l with
  | nil => rfl
  | cons c l ih =>
    obtain ⟨k, v⟩ := c
    by_cases h : n = k
    · subst h; simp [cellsErase, ih]
    · simp [cellsErase, ih, h]

/-- A write keeps the canonical form. -/
theorem SMap.put_wf [DecidableEq α] {d : Nat → α} {m : SMap α} (k : Nat) (v : α) (h : m.wf d = true) : (m.put d k v).wf d = true := by
  simp only [SMap.wf, Bool.and_eq_true, List.all_eq_true, decide_eq_true_eq] at *
  obtain ⟨h1, h2⟩ := h
  simp only [SMap.put]
  split
  · refine ⟨?_, fun c hc => h2 c (cellsErase_mem hc)⟩
    simpa [cellsErase_eq_filter] using cellsRising_filter _ _ _ h1
  · next hv =>
    refine ⟨cellsRising_insert _ _ _ _ (Nat.zero_le _) h1, fun c hc => ?_⟩
    rcases cellsInsert_mem hc with rfl | hc
    · exact hv
    · exact h2 c hc

/-- Dropping entries keeps the canonical form. -/
theorem SMap.dropKeys_wf [DecidableEq α] {d : Nat → α} {m : SMap α} (p : Nat → Bool) (h : m.wf d = true) :
    (m.dropKeys p).wf d = true := by
  simp only [SMap.wf, Bool.and_eq_true, List.all_eq_true, decide_eq_true_eq, SMap.dropKeys] at *
  exact ⟨cellsRising_filter _ _ _ h.1, fun c hc => h.2 c ((List.mem_filter.mp hc).1)⟩

@[simp] theorem SMap.nil_wf [DecidableEq α] (d : Nat → α) : (⟨[]⟩ : SMap α).wf d = true := rfl

end Sys2Proof.Machine
end

