-- ==== Sys2Proof/Laws/State.lean ====
section
/-! SUPPORT. Laws of the state's named reads and updates: what a register reads as after each, and which fields an update leaves as they
were. -/

namespace Sys2Proof.Machine

variable (s : State) (idx sub v i j : Nat)

/-! ### The register file -/

theorem oa_inj {a b c d : Nat} (hb : b < 256) (hd : d < 256) : oa a b = oa c d ↔ a = c ∧ b = d := by
  simp only [oa]; omega

/-- A register after a write: the value written at its own place, what stood there at every other. -/
theorem State.rd_wr : (s.wr idx sub v).rd i j = if oa i j = oa idx sub then v else s.rd i j := by
  simp only [State.rd, State.wr, SMap.get_put]

@[simp] theorem State.rd_wr_same : (s.wr idx sub v).rd idx sub = v := by simp [State.rd_wr]

theorem State.rd_wr_ne (h : oa i j ≠ oa idx sub) : (s.wr idx sub v).rd i j = s.rd i j := by simp [State.rd_wr, h]

@[simp] theorem State.wrs_nil : s.wrs idx [] = s := rfl
@[simp] theorem State.wrs_cons (l : List (Nat × Nat)) : s.wrs idx ((sub, v) :: l) = (s.wr idx sub v).wrs idx l := rfl

theorem State.rd_bump (b n : Nat) :
    (s.bump idx sub b n).rd i j = if oa i j = oa idx sub then min (s.rd idx sub + n) (256 ^ b - 1) else s.rd i j := State.rd_wr ..

theorem State.rd_tally (n : Nat) :
    (s.tally idx sub n).rd i j = if oa i j = oa idx sub then (s.rd idx sub + n) % 2 ^ 64 else s.rd i j := State.rd_wr ..

@[simp] theorem State.rd_with_pending (x : List Instr) : ({ s with pending := x } : State).rd i j = s.rd i j := rfl
@[simp] theorem State.rd_with_out (x : OutSt) : ({ s with out := x } : State).rd i j = s.rd i j := rfl
@[simp] theorem State.rd_with_dev (x : DevSt) : ({ s with dev := x } : State).rd i j = s.rd i j := rfl
@[simp] theorem State.rd_with_fab (x : FabSt) : ({ s with fab := x } : State).rd i j = s.rd i j := rfl
@[simp] theorem State.rd_with_cell (x : CellSt) : ({ s with cell := x } : State).rd i j = s.rd i j := rfl
@[simp] theorem State.rd_with_loc (x : LocSt) : ({ s with loc := x } : State).rd i j = s.rd i j := rfl
@[simp] theorem State.rd_with_mem (x : MemSt) : ({ s with mem := x } : State).rd i j = s.rd i j := rfl
@[simp] theorem State.rd_with_ray (x : RaySt) : ({ s with ray := x } : State).rd i j = s.rd i j := rfl
@[simp] theorem State.rd_with_host (x : HostSt) : ({ s with host := x } : State).rd i j = s.rd i j := rfl
@[simp] theorem State.rd_with_led (x : LedSt) : ({ s with led := x } : State).rd i j = s.rd i j := rfl
@[simp] theorem State.rd_with_cfg (x : CfgSt) : ({ s with cfg := x } : State).rd i j = s.rd i j := rfl
@[simp] theorem State.rd_with_sec (x : SecSt) : ({ s with sec := x } : State).rd i j = s.rd i j := rfl
@[simp] theorem State.rd_with_mgt (x : MgtSt) : ({ s with mgt := x } : State).rd i j = s.rd i j := rfl
@[simp] theorem State.rd_with_pin (x : PinSt) : ({ s with pin := x } : State).rd i j = s.rd i j := rfl
@[simp] theorem State.rd_with_tst (x : TstSt) : ({ s with tst := x } : State).rd i j = s.rd i j := rfl

/-! ### `State.wr` -/

@[simp] theorem State.wr_pending : (s.wr idx sub v).pending = s.pending := by first | rfl | (simp only [State.wr]; split <;> rfl)
@[simp] theorem State.wr_out : (s.wr idx sub v).out = s.out := by first | rfl | (simp only [State.wr]; split <;> rfl)
@[simp] theorem State.wr_dev : (s.wr idx sub v).dev = s.dev := by first | rfl | (simp only [State.wr]; split <;> rfl)
@[simp] theorem State.wr_fab : (s.wr idx sub v).fab = s.fab := by first | rfl | (simp only [State.wr]; split <;> rfl)
@[simp] theorem State.wr_cell : (s.wr idx sub v).cell = s.cell := by first | rfl | (simp only [State.wr]; split <;> rfl)
@[simp] theorem State.wr_loc : (s.wr idx sub v).loc = s.loc := by first | rfl | (simp only [State.wr]; split <;> rfl)
@[simp] theorem State.wr_mem : (s.wr idx sub v).mem = s.mem := by first | rfl | (simp only [State.wr]; split <;> rfl)
@[simp] theorem State.wr_ray : (s.wr idx sub v).ray = s.ray := by first | rfl | (simp only [State.wr]; split <;> rfl)
@[simp] theorem State.wr_host : (s.wr idx sub v).host = s.host := by first | rfl | (simp only [State.wr]; split <;> rfl)
@[simp] theorem State.wr_led : (s.wr idx sub v).led = s.led := by first | rfl | (simp only [State.wr]; split <;> rfl)
@[simp] theorem State.wr_cfg : (s.wr idx sub v).cfg = s.cfg := by first | rfl | (simp only [State.wr]; split <;> rfl)
@[simp] theorem State.wr_sec : (s.wr idx sub v).sec = s.sec := by first | rfl | (simp only [State.wr]; split <;> rfl)
@[simp] theorem State.wr_mgt : (s.wr idx sub v).mgt = s.mgt := by first | rfl | (simp only [State.wr]; split <;> rfl)
@[simp] theorem State.wr_pin : (s.wr idx sub v).pin = s.pin := by first | rfl | (simp only [State.wr]; split <;> rfl)
@[simp] theorem State.wr_tst : (s.wr idx sub v).tst = s.tst := by first | rfl | (simp only [State.wr]; split <;> rfl)

/-! ### `State.bump` -/

@[simp] theorem State.bump_pending (b n : Nat) : (s.bump idx sub b n).pending = s.pending := by first | rfl | (simp only [State.bump]; split <;> rfl)
@[simp] theorem State.bump_out (b n : Nat) : (s.bump idx sub b n).out = s.out := by first | rfl | (simp only [State.bump]; split <;> rfl)
@[simp] theorem State.bump_dev (b n : Nat) : (s.bump idx sub b n).dev = s.dev := by first | rfl | (simp only [State.bump]; split <;> rfl)
@[simp] theorem State.bump_fab (b n : Nat) : (s.bump idx sub b n).fab = s.fab := by first | rfl | (simp only [State.bump]; split <;> rfl)
@[simp] theorem State.bump_cell (b n : Nat) : (s.bump idx sub b n).cell = s.cell := by first | rfl | (simp only [State.bump]; split <;> rfl)
@[simp] theorem State.bump_loc (b n : Nat) : (s.bump idx sub b n).loc = s.loc := by first | rfl | (simp only [State.bump]; split <;> rfl)
@[simp] theorem State.bump_mem (b n : Nat) : (s.bump idx sub b n).mem = s.mem := by first | rfl | (simp only [State.bump]; split <;> rfl)
@[simp] theorem State.bump_ray (b n : Nat) : (s.bump idx sub b n).ray = s.ray := by first | rfl | (simp only [State.bump]; split <;> rfl)
@[simp] theorem State.bump_host (b n : Nat) : (s.bump idx sub b n).host = s.host := by first | rfl | (simp only [State.bump]; split <;> rfl)
@[simp] theorem State.bump_led (b n : Nat) : (s.bump idx sub b n).led = s.led := by first | rfl | (simp only [State.bump]; split <;> rfl)
@[simp] theorem State.bump_cfg (b n : Nat) : (s.bump idx sub b n).cfg = s.cfg := by first | rfl | (simp only [State.bump]; split <;> rfl)
@[simp] theorem State.bump_sec (b n : Nat) : (s.bump idx sub b n).sec = s.sec := by first | rfl | (simp only [State.bump]; split <;> rfl)
@[simp] theorem State.bump_mgt (b n : Nat) : (s.bump idx sub b n).mgt = s.mgt := by first | rfl | (simp only [State.bump]; split <;> rfl)
@[simp] theorem State.bump_pin (b n : Nat) : (s.bump idx sub b n).pin = s.pin := by first | rfl | (simp only [State.bump]; split <;> rfl)
@[simp] theorem State.bump_tst (b n : Nat) : (s.bump idx sub b n).tst = s.tst := by first | rfl | (simp only [State.bump]; split <;> rfl)

/-! ### `State.tally` -/

@[simp] theorem State.tally_pending (n : Nat) : (s.tally idx sub n).pending = s.pending := by first | rfl | (simp only [State.tally]; split <;> rfl)
@[simp] theorem State.tally_out (n : Nat) : (s.tally idx sub n).out = s.out := by first | rfl | (simp only [State.tally]; split <;> rfl)
@[simp] theorem State.tally_dev (n : Nat) : (s.tally idx sub n).dev = s.dev := by first | rfl | (simp only [State.tally]; split <;> rfl)
@[simp] theorem State.tally_fab (n : Nat) : (s.tally idx sub n).fab = s.fab := by first | rfl | (simp only [State.tally]; split <;> rfl)
@[simp] theorem State.tally_cell (n : Nat) : (s.tally idx sub n).cell = s.cell := by first | rfl | (simp only [State.tally]; split <;> rfl)
@[simp] theorem State.tally_loc (n : Nat) : (s.tally idx sub n).loc = s.loc := by first | rfl | (simp only [State.tally]; split <;> rfl)
@[simp] theorem State.tally_mem (n : Nat) : (s.tally idx sub n).mem = s.mem := by first | rfl | (simp only [State.tally]; split <;> rfl)
@[simp] theorem State.tally_ray (n : Nat) : (s.tally idx sub n).ray = s.ray := by first | rfl | (simp only [State.tally]; split <;> rfl)
@[simp] theorem State.tally_host (n : Nat) : (s.tally idx sub n).host = s.host := by first | rfl | (simp only [State.tally]; split <;> rfl)
@[simp] theorem State.tally_led (n : Nat) : (s.tally idx sub n).led = s.led := by first | rfl | (simp only [State.tally]; split <;> rfl)
@[simp] theorem State.tally_cfg (n : Nat) : (s.tally idx sub n).cfg = s.cfg := by first | rfl | (simp only [State.tally]; split <;> rfl)
@[simp] theorem State.tally_sec (n : Nat) : (s.tally idx sub n).sec = s.sec := by first | rfl | (simp only [State.tally]; split <;> rfl)
@[simp] theorem State.tally_mgt (n : Nat) : (s.tally idx sub n).mgt = s.mgt := by first | rfl | (simp only [State.tally]; split <;> rfl)
@[simp] theorem State.tally_pin (n : Nat) : (s.tally idx sub n).pin = s.pin := by first | rfl | (simp only [State.tally]; split <;> rfl)
@[simp] theorem State.tally_tst (n : Nat) : (s.tally idx sub n).tst = s.tst := by first | rfl | (simp only [State.tally]; split <;> rfl)

/-! ### `State.raise` -/

@[simp] theorem State.rd_raise (code cls sev : Nat) (pay : List (Nat × Nat × Nat)) : (s.raise code cls sev idx pay).rd i j = s.rd i j := by first | rfl | (simp only [State.raise]; split <;> rfl)
@[simp] theorem State.raise_pending (code cls sev : Nat) (pay : List (Nat × Nat × Nat)) : (s.raise code cls sev idx pay).pending = s.pending := by first | rfl | (simp only [State.raise]; split <;> rfl)
@[simp] theorem State.raise_od (code cls sev : Nat) (pay : List (Nat × Nat × Nat)) : (s.raise code cls sev idx pay).od = s.od := by first | rfl | (simp only [State.raise]; split <;> rfl)
@[simp] theorem State.raise_dev (code cls sev : Nat) (pay : List (Nat × Nat × Nat)) : (s.raise code cls sev idx pay).dev = s.dev := by first | rfl | (simp only [State.raise]; split <;> rfl)
@[simp] theorem State.raise_fab (code cls sev : Nat) (pay : List (Nat × Nat × Nat)) : (s.raise code cls sev idx pay).fab = s.fab := by first | rfl | (simp only [State.raise]; split <;> rfl)
@[simp] theorem State.raise_cell (code cls sev : Nat) (pay : List (Nat × Nat × Nat)) : (s.raise code cls sev idx pay).cell = s.cell := by first | rfl | (simp only [State.raise]; split <;> rfl)
@[simp] theorem State.raise_loc (code cls sev : Nat) (pay : List (Nat × Nat × Nat)) : (s.raise code cls sev idx pay).loc = s.loc := by first | rfl | (simp only [State.raise]; split <;> rfl)
@[simp] theorem State.raise_mem (code cls sev : Nat) (pay : List (Nat × Nat × Nat)) : (s.raise code cls sev idx pay).mem = s.mem := by first | rfl | (simp only [State.raise]; split <;> rfl)
@[simp] theorem State.raise_ray (code cls sev : Nat) (pay : List (Nat × Nat × Nat)) : (s.raise code cls sev idx pay).ray = s.ray := by first | rfl | (simp only [State.raise]; split <;> rfl)
@[simp] theorem State.raise_host (code cls sev : Nat) (pay : List (Nat × Nat × Nat)) : (s.raise code cls sev idx pay).host = s.host := by first | rfl | (simp only [State.raise]; split <;> rfl)
@[simp] theorem State.raise_led (code cls sev : Nat) (pay : List (Nat × Nat × Nat)) : (s.raise code cls sev idx pay).led = s.led := by first | rfl | (simp only [State.raise]; split <;> rfl)
@[simp] theorem State.raise_cfg (code cls sev : Nat) (pay : List (Nat × Nat × Nat)) : (s.raise code cls sev idx pay).cfg = s.cfg := by first | rfl | (simp only [State.raise]; split <;> rfl)
@[simp] theorem State.raise_sec (code cls sev : Nat) (pay : List (Nat × Nat × Nat)) : (s.raise code cls sev idx pay).sec = s.sec := by first | rfl | (simp only [State.raise]; split <;> rfl)
@[simp] theorem State.raise_mgt (code cls sev : Nat) (pay : List (Nat × Nat × Nat)) : (s.raise code cls sev idx pay).mgt = s.mgt := by first | rfl | (simp only [State.raise]; split <;> rfl)
@[simp] theorem State.raise_pin (code cls sev : Nat) (pay : List (Nat × Nat × Nat)) : (s.raise code cls sev idx pay).pin = s.pin := by first | rfl | (simp only [State.raise]; split <;> rfl)
@[simp] theorem State.raise_tst (code cls sev : Nat) (pay : List (Nat × Nat × Nat)) : (s.raise code cls sev idx pay).tst = s.tst := by first | rfl | (simp only [State.raise]; split <;> rfl)

/-! ### `State.raiseDone` -/

@[simp] theorem State.rd_raiseDone (ring : Nat) (pay : List (Nat × Nat × Nat)) : (s.raiseDone ring idx pay).rd i j = s.rd i j := by first | rfl | (simp only [State.raiseDone]; split <;> rfl)
@[simp] theorem State.raiseDone_pending (ring : Nat) (pay : List (Nat × Nat × Nat)) : (s.raiseDone ring idx pay).pending = s.pending := by first | rfl | (simp only [State.raiseDone]; split <;> rfl)
@[simp] theorem State.raiseDone_od (ring : Nat) (pay : List (Nat × Nat × Nat)) : (s.raiseDone ring idx pay).od = s.od := by first | rfl | (simp only [State.raiseDone]; split <;> rfl)
@[simp] theorem State.raiseDone_dev (ring : Nat) (pay : List (Nat × Nat × Nat)) : (s.raiseDone ring idx pay).dev = s.dev := by first | rfl | (simp only [State.raiseDone]; split <;> rfl)
@[simp] theorem State.raiseDone_fab (ring : Nat) (pay : List (Nat × Nat × Nat)) : (s.raiseDone ring idx pay).fab = s.fab := by first | rfl | (simp only [State.raiseDone]; split <;> rfl)
@[simp] theorem State.raiseDone_cell (ring : Nat) (pay : List (Nat × Nat × Nat)) : (s.raiseDone ring idx pay).cell = s.cell := by first | rfl | (simp only [State.raiseDone]; split <;> rfl)
@[simp] theorem State.raiseDone_loc (ring : Nat) (pay : List (Nat × Nat × Nat)) : (s.raiseDone ring idx pay).loc = s.loc := by first | rfl | (simp only [State.raiseDone]; split <;> rfl)
@[simp] theorem State.raiseDone_mem (ring : Nat) (pay : List (Nat × Nat × Nat)) : (s.raiseDone ring idx pay).mem = s.mem := by first | rfl | (simp only [State.raiseDone]; split <;> rfl)
@[simp] theorem State.raiseDone_ray (ring : Nat) (pay : List (Nat × Nat × Nat)) : (s.raiseDone ring idx pay).ray = s.ray := by first | rfl | (simp only [State.raiseDone]; split <;> rfl)
@[simp] theorem State.raiseDone_host (ring : Nat) (pay : List (Nat × Nat × Nat)) : (s.raiseDone ring idx pay).host = s.host := by first | rfl | (simp only [State.raiseDone]; split <;> rfl)
@[simp] theorem State.raiseDone_led (ring : Nat) (pay : List (Nat × Nat × Nat)) : (s.raiseDone ring idx pay).led = s.led := by first | rfl | (simp only [State.raiseDone]; split <;> rfl)
@[simp] theorem State.raiseDone_cfg (ring : Nat) (pay : List (Nat × Nat × Nat)) : (s.raiseDone ring idx pay).cfg = s.cfg := by first | rfl | (simp only [State.raiseDone]; split <;> rfl)
@[simp] theorem State.raiseDone_sec (ring : Nat) (pay : List (Nat × Nat × Nat)) : (s.raiseDone ring idx pay).sec = s.sec := by first | rfl | (simp only [State.raiseDone]; split <;> rfl)
@[simp] theorem State.raiseDone_mgt (ring : Nat) (pay : List (Nat × Nat × Nat)) : (s.raiseDone ring idx pay).mgt = s.mgt := by first | rfl | (simp only [State.raiseDone]; split <;> rfl)
@[simp] theorem State.raiseDone_pin (ring : Nat) (pay : List (Nat × Nat × Nat)) : (s.raiseDone ring idx pay).pin = s.pin := by first | rfl | (simp only [State.raiseDone]; split <;> rfl)
@[simp] theorem State.raiseDone_tst (ring : Nat) (pay : List (Nat × Nat × Nat)) : (s.raiseDone ring idx pay).tst = s.tst := by first | rfl | (simp only [State.raiseDone]; split <;> rfl)

/-! ### `State.freeNext` -/

@[simp] theorem State.rd_freeNext : (s.freeNext).rd i j = s.rd i j := by first | rfl | (simp only [State.freeNext]; split <;> rfl)
@[simp] theorem State.freeNext_pending : (s.freeNext).pending = s.pending := by first | rfl | (simp only [State.freeNext]; split <;> rfl)
@[simp] theorem State.freeNext_od : (s.freeNext).od = s.od := by first | rfl | (simp only [State.freeNext]; split <;> rfl)
@[simp] theorem State.freeNext_out : (s.freeNext).out = s.out := by first | rfl | (simp only [State.freeNext]; split <;> rfl)
@[simp] theorem State.freeNext_fab : (s.freeNext).fab = s.fab := by first | rfl | (simp only [State.freeNext]; split <;> rfl)
@[simp] theorem State.freeNext_cell : (s.freeNext).cell = s.cell := by first | rfl | (simp only [State.freeNext]; split <;> rfl)
@[simp] theorem State.freeNext_loc : (s.freeNext).loc = s.loc := by first | rfl | (simp only [State.freeNext]; split <;> rfl)
@[simp] theorem State.freeNext_mem : (s.freeNext).mem = s.mem := by first | rfl | (simp only [State.freeNext]; split <;> rfl)
@[simp] theorem State.freeNext_ray : (s.freeNext).ray = s.ray := by first | rfl | (simp only [State.freeNext]; split <;> rfl)
@[simp] theorem State.freeNext_host : (s.freeNext).host = s.host := by first | rfl | (simp only [State.freeNext]; split <;> rfl)
@[simp] theorem State.freeNext_led : (s.freeNext).led = s.led := by first | rfl | (simp only [State.freeNext]; split <;> rfl)
@[simp] theorem State.freeNext_cfg : (s.freeNext).cfg = s.cfg := by first | rfl | (simp only [State.freeNext]; split <;> rfl)
@[simp] theorem State.freeNext_sec : (s.freeNext).sec = s.sec := by first | rfl | (simp only [State.freeNext]; split <;> rfl)
@[simp] theorem State.freeNext_mgt : (s.freeNext).mgt = s.mgt := by first | rfl | (simp only [State.freeNext]; split <;> rfl)
@[simp] theorem State.freeNext_pin : (s.freeNext).pin = s.pin := by first | rfl | (simp only [State.freeNext]; split <;> rfl)
@[simp] theorem State.freeNext_tst : (s.freeNext).tst = s.tst := by first | rfl | (simp only [State.freeNext]; split <;> rfl)

/-! ### `State.setRegState` -/

@[simp] theorem State.setRegState_pending (n st : Nat) : (s.setRegState n st).pending = s.pending := by first | rfl | (simp only [State.setRegState]; split <;> rfl)
@[simp] theorem State.setRegState_out (n st : Nat) : (s.setRegState n st).out = s.out := by first | rfl | (simp only [State.setRegState]; split <;> rfl)
@[simp] theorem State.setRegState_dev (n st : Nat) : (s.setRegState n st).dev = s.dev := by first | rfl | (simp only [State.setRegState]; split <;> rfl)
@[simp] theorem State.setRegState_fab (n st : Nat) : (s.setRegState n st).fab = s.fab := by first | rfl | (simp only [State.setRegState]; split <;> rfl)
@[simp] theorem State.setRegState_cell (n st : Nat) : (s.setRegState n st).cell = s.cell := by first | rfl | (simp only [State.setRegState]; split <;> rfl)
@[simp] theorem State.setRegState_loc (n st : Nat) : (s.setRegState n st).loc = s.loc := by first | rfl | (simp only [State.setRegState]; split <;> rfl)
@[simp] theorem State.setRegState_mem (n st : Nat) : (s.setRegState n st).mem = s.mem := by first | rfl | (simp only [State.setRegState]; split <;> rfl)
@[simp] theorem State.setRegState_ray (n st : Nat) : (s.setRegState n st).ray = s.ray := by first | rfl | (simp only [State.setRegState]; split <;> rfl)
@[simp] theorem State.setRegState_host (n st : Nat) : (s.setRegState n st).host = s.host := by first | rfl | (simp only [State.setRegState]; split <;> rfl)
@[simp] theorem State.setRegState_led (n st : Nat) : (s.setRegState n st).led = s.led := by first | rfl | (simp only [State.setRegState]; split <;> rfl)
@[simp] theorem State.setRegState_cfg (n st : Nat) : (s.setRegState n st).cfg = s.cfg := by first | rfl | (simp only [State.setRegState]; split <;> rfl)
@[simp] theorem State.setRegState_sec (n st : Nat) : (s.setRegState n st).sec = s.sec := by first | rfl | (simp only [State.setRegState]; split <;> rfl)
@[simp] theorem State.setRegState_mgt (n st : Nat) : (s.setRegState n st).mgt = s.mgt := by first | rfl | (simp only [State.setRegState]; split <;> rfl)
@[simp] theorem State.setRegState_pin (n st : Nat) : (s.setRegState n st).pin = s.pin := by first | rfl | (simp only [State.setRegState]; split <;> rfl)
@[simp] theorem State.setRegState_tst (n st : Nat) : (s.setRegState n st).tst = s.tst := by first | rfl | (simp only [State.setRegState]; split <;> rfl)

/-! ### `State.modFence` -/

@[simp] theorem State.rd_modFence (n : Nat) (g : FenceSt → FenceSt) : (s.modFence n g).rd i j = s.rd i j := by first | rfl | (simp only [State.modFence]; split <;> rfl)
@[simp] theorem State.modFence_pending (n : Nat) (g : FenceSt → FenceSt) : (s.modFence n g).pending = s.pending := by first | rfl | (simp only [State.modFence]; split <;> rfl)
@[simp] theorem State.modFence_od (n : Nat) (g : FenceSt → FenceSt) : (s.modFence n g).od = s.od := by first | rfl | (simp only [State.modFence]; split <;> rfl)
@[simp] theorem State.modFence_out (n : Nat) (g : FenceSt → FenceSt) : (s.modFence n g).out = s.out := by first | rfl | (simp only [State.modFence]; split <;> rfl)
@[simp] theorem State.modFence_dev (n : Nat) (g : FenceSt → FenceSt) : (s.modFence n g).dev = s.dev := by first | rfl | (simp only [State.modFence]; split <;> rfl)
@[simp] theorem State.modFence_cell (n : Nat) (g : FenceSt → FenceSt) : (s.modFence n g).cell = s.cell := by first | rfl | (simp only [State.modFence]; split <;> rfl)
@[simp] theorem State.modFence_loc (n : Nat) (g : FenceSt → FenceSt) : (s.modFence n g).loc = s.loc := by first | rfl | (simp only [State.modFence]; split <;> rfl)
@[simp] theorem State.modFence_mem (n : Nat) (g : FenceSt → FenceSt) : (s.modFence n g).mem = s.mem := by first | rfl | (simp only [State.modFence]; split <;> rfl)
@[simp] theorem State.modFence_ray (n : Nat) (g : FenceSt → FenceSt) : (s.modFence n g).ray = s.ray := by first | rfl | (simp only [State.modFence]; split <;> rfl)
@[simp] theorem State.modFence_host (n : Nat) (g : FenceSt → FenceSt) : (s.modFence n g).host = s.host := by first | rfl | (simp only [State.modFence]; split <;> rfl)
@[simp] theorem State.modFence_led (n : Nat) (g : FenceSt → FenceSt) : (s.modFence n g).led = s.led := by first | rfl | (simp only [State.modFence]; split <;> rfl)
@[simp] theorem State.modFence_cfg (n : Nat) (g : FenceSt → FenceSt) : (s.modFence n g).cfg = s.cfg := by first | rfl | (simp only [State.modFence]; split <;> rfl)
@[simp] theorem State.modFence_sec (n : Nat) (g : FenceSt → FenceSt) : (s.modFence n g).sec = s.sec := by first | rfl | (simp only [State.modFence]; split <;> rfl)
@[simp] theorem State.modFence_mgt (n : Nat) (g : FenceSt → FenceSt) : (s.modFence n g).mgt = s.mgt := by first | rfl | (simp only [State.modFence]; split <;> rfl)
@[simp] theorem State.modFence_pin (n : Nat) (g : FenceSt → FenceSt) : (s.modFence n g).pin = s.pin := by first | rfl | (simp only [State.modFence]; split <;> rfl)
@[simp] theorem State.modFence_tst (n : Nat) (g : FenceSt → FenceSt) : (s.modFence n g).tst = s.tst := by first | rfl | (simp only [State.modFence]; split <;> rfl)

/-! ### `State.setQ` -/

@[simp] theorem State.rd_setQ (d q : Nat) (x : QueueSt) : (s.setQ d q x).rd i j = s.rd i j := by first | rfl | (simp only [State.setQ]; split <;> rfl)
@[simp] theorem State.setQ_pending (d q : Nat) (x : QueueSt) : (s.setQ d q x).pending = s.pending := by first | rfl | (simp only [State.setQ]; split <;> rfl)
@[simp] theorem State.setQ_od (d q : Nat) (x : QueueSt) : (s.setQ d q x).od = s.od := by first | rfl | (simp only [State.setQ]; split <;> rfl)
@[simp] theorem State.setQ_out (d q : Nat) (x : QueueSt) : (s.setQ d q x).out = s.out := by first | rfl | (simp only [State.setQ]; split <;> rfl)
@[simp] theorem State.setQ_dev (d q : Nat) (x : QueueSt) : (s.setQ d q x).dev = s.dev := by first | rfl | (simp only [State.setQ]; split <;> rfl)
@[simp] theorem State.setQ_fab (d q : Nat) (x : QueueSt) : (s.setQ d q x).fab = s.fab := by first | rfl | (simp only [State.setQ]; split <;> rfl)
@[simp] theorem State.setQ_cell (d q : Nat) (x : QueueSt) : (s.setQ d q x).cell = s.cell := by first | rfl | (simp only [State.setQ]; split <;> rfl)
@[simp] theorem State.setQ_mem (d q : Nat) (x : QueueSt) : (s.setQ d q x).mem = s.mem := by first | rfl | (simp only [State.setQ]; split <;> rfl)
@[simp] theorem State.setQ_ray (d q : Nat) (x : QueueSt) : (s.setQ d q x).ray = s.ray := by first | rfl | (simp only [State.setQ]; split <;> rfl)
@[simp] theorem State.setQ_host (d q : Nat) (x : QueueSt) : (s.setQ d q x).host = s.host := by first | rfl | (simp only [State.setQ]; split <;> rfl)
@[simp] theorem State.setQ_led (d q : Nat) (x : QueueSt) : (s.setQ d q x).led = s.led := by first | rfl | (simp only [State.setQ]; split <;> rfl)
@[simp] theorem State.setQ_cfg (d q : Nat) (x : QueueSt) : (s.setQ d q x).cfg = s.cfg := by first | rfl | (simp only [State.setQ]; split <;> rfl)
@[simp] theorem State.setQ_sec (d q : Nat) (x : QueueSt) : (s.setQ d q x).sec = s.sec := by first | rfl | (simp only [State.setQ]; split <;> rfl)
@[simp] theorem State.setQ_mgt (d q : Nat) (x : QueueSt) : (s.setQ d q x).mgt = s.mgt := by first | rfl | (simp only [State.setQ]; split <;> rfl)
@[simp] theorem State.setQ_pin (d q : Nat) (x : QueueSt) : (s.setQ d q x).pin = s.pin := by first | rfl | (simp only [State.setQ]; split <;> rfl)
@[simp] theorem State.setQ_tst (d q : Nat) (x : QueueSt) : (s.setQ d q x).tst = s.tst := by first | rfl | (simp only [State.setQ]; split <;> rfl)

/-! ### `State.setLport` -/

@[simp] theorem State.rd_setLport (d p : Nat) (x : LPortSt) : (s.setLport d p x).rd i j = s.rd i j := by first | rfl | (simp only [State.setLport]; split <;> rfl)
@[simp] theorem State.setLport_pending (d p : Nat) (x : LPortSt) : (s.setLport d p x).pending = s.pending := by first | rfl | (simp only [State.setLport]; split <;> rfl)
@[simp] theorem State.setLport_od (d p : Nat) (x : LPortSt) : (s.setLport d p x).od = s.od := by first | rfl | (simp only [State.setLport]; split <;> rfl)
@[simp] theorem State.setLport_out (d p : Nat) (x : LPortSt) : (s.setLport d p x).out = s.out := by first | rfl | (simp only [State.setLport]; split <;> rfl)
@[simp] theorem State.setLport_dev (d p : Nat) (x : LPortSt) : (s.setLport d p x).dev = s.dev := by first | rfl | (simp only [State.setLport]; split <;> rfl)
@[simp] theorem State.setLport_fab (d p : Nat) (x : LPortSt) : (s.setLport d p x).fab = s.fab := by first | rfl | (simp only [State.setLport]; split <;> rfl)
@[simp] theorem State.setLport_cell (d p : Nat) (x : LPortSt) : (s.setLport d p x).cell = s.cell := by first | rfl | (simp only [State.setLport]; split <;> rfl)
@[simp] theorem State.setLport_mem (d p : Nat) (x : LPortSt) : (s.setLport d p x).mem = s.mem := by first | rfl | (simp only [State.setLport]; split <;> rfl)
@[simp] theorem State.setLport_ray (d p : Nat) (x : LPortSt) : (s.setLport d p x).ray = s.ray := by first | rfl | (simp only [State.setLport]; split <;> rfl)
@[simp] theorem State.setLport_host (d p : Nat) (x : LPortSt) : (s.setLport d p x).host = s.host := by first | rfl | (simp only [State.setLport]; split <;> rfl)
@[simp] theorem State.setLport_led (d p : Nat) (x : LPortSt) : (s.setLport d p x).led = s.led := by first | rfl | (simp only [State.setLport]; split <;> rfl)
@[simp] theorem State.setLport_cfg (d p : Nat) (x : LPortSt) : (s.setLport d p x).cfg = s.cfg := by first | rfl | (simp only [State.setLport]; split <;> rfl)
@[simp] theorem State.setLport_sec (d p : Nat) (x : LPortSt) : (s.setLport d p x).sec = s.sec := by first | rfl | (simp only [State.setLport]; split <;> rfl)
@[simp] theorem State.setLport_mgt (d p : Nat) (x : LPortSt) : (s.setLport d p x).mgt = s.mgt := by first | rfl | (simp only [State.setLport]; split <;> rfl)
@[simp] theorem State.setLport_pin (d p : Nat) (x : LPortSt) : (s.setLport d p x).pin = s.pin := by first | rfl | (simp only [State.setLport]; split <;> rfl)
@[simp] theorem State.setLport_tst (d p : Nat) (x : LPortSt) : (s.setLport d p x).tst = s.tst := by first | rfl | (simp only [State.setLport]; split <;> rfl)

/-! ### `State.setCell` -/

@[simp] theorem State.rd_setCell (k : Nat) (x : CellRec) : (s.setCell k x).rd i j = s.rd i j := by first | rfl | (simp only [State.setCell]; split <;> rfl)
@[simp] theorem State.setCell_pending (k : Nat) (x : CellRec) : (s.setCell k x).pending = s.pending := by first | rfl | (simp only [State.setCell]; split <;> rfl)
@[simp] theorem State.setCell_od (k : Nat) (x : CellRec) : (s.setCell k x).od = s.od := by first | rfl | (simp only [State.setCell]; split <;> rfl)
@[simp] theorem State.setCell_out (k : Nat) (x : CellRec) : (s.setCell k x).out = s.out := by first | rfl | (simp only [State.setCell]; split <;> rfl)
@[simp] theorem State.setCell_dev (k : Nat) (x : CellRec) : (s.setCell k x).dev = s.dev := by first | rfl | (simp only [State.setCell]; split <;> rfl)
@[simp] theorem State.setCell_fab (k : Nat) (x : CellRec) : (s.setCell k x).fab = s.fab := by first | rfl | (simp only [State.setCell]; split <;> rfl)
@[simp] theorem State.setCell_loc (k : Nat) (x : CellRec) : (s.setCell k x).loc = s.loc := by first | rfl | (simp only [State.setCell]; split <;> rfl)
@[simp] theorem State.setCell_mem (k : Nat) (x : CellRec) : (s.setCell k x).mem = s.mem := by first | rfl | (simp only [State.setCell]; split <;> rfl)
@[simp] theorem State.setCell_ray (k : Nat) (x : CellRec) : (s.setCell k x).ray = s.ray := by first | rfl | (simp only [State.setCell]; split <;> rfl)
@[simp] theorem State.setCell_host (k : Nat) (x : CellRec) : (s.setCell k x).host = s.host := by first | rfl | (simp only [State.setCell]; split <;> rfl)
@[simp] theorem State.setCell_led (k : Nat) (x : CellRec) : (s.setCell k x).led = s.led := by first | rfl | (simp only [State.setCell]; split <;> rfl)
@[simp] theorem State.setCell_cfg (k : Nat) (x : CellRec) : (s.setCell k x).cfg = s.cfg := by first | rfl | (simp only [State.setCell]; split <;> rfl)
@[simp] theorem State.setCell_sec (k : Nat) (x : CellRec) : (s.setCell k x).sec = s.sec := by first | rfl | (simp only [State.setCell]; split <;> rfl)
@[simp] theorem State.setCell_mgt (k : Nat) (x : CellRec) : (s.setCell k x).mgt = s.mgt := by first | rfl | (simp only [State.setCell]; split <;> rfl)
@[simp] theorem State.setCell_pin (k : Nat) (x : CellRec) : (s.setCell k x).pin = s.pin := by first | rfl | (simp only [State.setCell]; split <;> rfl)
@[simp] theorem State.setCell_tst (k : Nat) (x : CellRec) : (s.setCell k x).tst = s.tst := by first | rfl | (simp only [State.setCell]; split <;> rfl)

/-! ### `State.setLoop` -/

@[simp] theorem State.rd_setLoop (l : Loop) (x : LoopSt) : (s.setLoop l x).rd i j = s.rd i j := by first | rfl | (simp only [State.setLoop]; split <;> rfl)
@[simp] theorem State.setLoop_pending (l : Loop) (x : LoopSt) : (s.setLoop l x).pending = s.pending := by first | rfl | (simp only [State.setLoop]; split <;> rfl)
@[simp] theorem State.setLoop_od (l : Loop) (x : LoopSt) : (s.setLoop l x).od = s.od := by first | rfl | (simp only [State.setLoop]; split <;> rfl)
@[simp] theorem State.setLoop_out (l : Loop) (x : LoopSt) : (s.setLoop l x).out = s.out := by first | rfl | (simp only [State.setLoop]; split <;> rfl)
@[simp] theorem State.setLoop_dev (l : Loop) (x : LoopSt) : (s.setLoop l x).dev = s.dev := by first | rfl | (simp only [State.setLoop]; split <;> rfl)
@[simp] theorem State.setLoop_fab (l : Loop) (x : LoopSt) : (s.setLoop l x).fab = s.fab := by first | rfl | (simp only [State.setLoop]; split <;> rfl)
@[simp] theorem State.setLoop_loc (l : Loop) (x : LoopSt) : (s.setLoop l x).loc = s.loc := by first | rfl | (simp only [State.setLoop]; split <;> rfl)
@[simp] theorem State.setLoop_mem (l : Loop) (x : LoopSt) : (s.setLoop l x).mem = s.mem := by first | rfl | (simp only [State.setLoop]; split <;> rfl)
@[simp] theorem State.setLoop_ray (l : Loop) (x : LoopSt) : (s.setLoop l x).ray = s.ray := by first | rfl | (simp only [State.setLoop]; split <;> rfl)
@[simp] theorem State.setLoop_host (l : Loop) (x : LoopSt) : (s.setLoop l x).host = s.host := by first | rfl | (simp only [State.setLoop]; split <;> rfl)
@[simp] theorem State.setLoop_led (l : Loop) (x : LoopSt) : (s.setLoop l x).led = s.led := by first | rfl | (simp only [State.setLoop]; split <;> rfl)
@[simp] theorem State.setLoop_cfg (l : Loop) (x : LoopSt) : (s.setLoop l x).cfg = s.cfg := by first | rfl | (simp only [State.setLoop]; split <;> rfl)
@[simp] theorem State.setLoop_sec (l : Loop) (x : LoopSt) : (s.setLoop l x).sec = s.sec := by first | rfl | (simp only [State.setLoop]; split <;> rfl)
@[simp] theorem State.setLoop_mgt (l : Loop) (x : LoopSt) : (s.setLoop l x).mgt = s.mgt := by first | rfl | (simp only [State.setLoop]; split <;> rfl)
@[simp] theorem State.setLoop_pin (l : Loop) (x : LoopSt) : (s.setLoop l x).pin = s.pin := by first | rfl | (simp only [State.setLoop]; split <;> rfl)
@[simp] theorem State.setLoop_tst (l : Loop) (x : LoopSt) : (s.setLoop l x).tst = s.tst := by first | rfl | (simp only [State.setLoop]; split <;> rfl)

/-! ### `State.setStream` -/

@[simp] theorem State.rd_setStream (k : Nat) (x : StreamSt) : (s.setStream k x).rd i j = s.rd i j := by first | rfl | (simp only [State.setStream]; split <;> rfl)
@[simp] theorem State.setStream_pending (k : Nat) (x : StreamSt) : (s.setStream k x).pending = s.pending := by first | rfl | (simp only [State.setStream]; split <;> rfl)
@[simp] theorem State.setStream_od (k : Nat) (x : StreamSt) : (s.setStream k x).od = s.od := by first | rfl | (simp only [State.setStream]; split <;> rfl)
@[simp] theorem State.setStream_out (k : Nat) (x : StreamSt) : (s.setStream k x).out = s.out := by first | rfl | (simp only [State.setStream]; split <;> rfl)
@[simp] theorem State.setStream_dev (k : Nat) (x : StreamSt) : (s.setStream k x).dev = s.dev := by first | rfl | (simp only [State.setStream]; split <;> rfl)
@[simp] theorem State.setStream_cell (k : Nat) (x : StreamSt) : (s.setStream k x).cell = s.cell := by first | rfl | (simp only [State.setStream]; split <;> rfl)
@[simp] theorem State.setStream_loc (k : Nat) (x : StreamSt) : (s.setStream k x).loc = s.loc := by first | rfl | (simp only [State.setStream]; split <;> rfl)
@[simp] theorem State.setStream_mem (k : Nat) (x : StreamSt) : (s.setStream k x).mem = s.mem := by first | rfl | (simp only [State.setStream]; split <;> rfl)
@[simp] theorem State.setStream_ray (k : Nat) (x : StreamSt) : (s.setStream k x).ray = s.ray := by first | rfl | (simp only [State.setStream]; split <;> rfl)
@[simp] theorem State.setStream_host (k : Nat) (x : StreamSt) : (s.setStream k x).host = s.host := by first | rfl | (simp only [State.setStream]; split <;> rfl)
@[simp] theorem State.setStream_led (k : Nat) (x : StreamSt) : (s.setStream k x).led = s.led := by first | rfl | (simp only [State.setStream]; split <;> rfl)
@[simp] theorem State.setStream_cfg (k : Nat) (x : StreamSt) : (s.setStream k x).cfg = s.cfg := by first | rfl | (simp only [State.setStream]; split <;> rfl)
@[simp] theorem State.setStream_sec (k : Nat) (x : StreamSt) : (s.setStream k x).sec = s.sec := by first | rfl | (simp only [State.setStream]; split <;> rfl)
@[simp] theorem State.setStream_mgt (k : Nat) (x : StreamSt) : (s.setStream k x).mgt = s.mgt := by first | rfl | (simp only [State.setStream]; split <;> rfl)
@[simp] theorem State.setStream_pin (k : Nat) (x : StreamSt) : (s.setStream k x).pin = s.pin := by first | rfl | (simp only [State.setStream]; split <;> rfl)
@[simp] theorem State.setStream_tst (k : Nat) (x : StreamSt) : (s.setStream k x).tst = s.tst := by first | rfl | (simp only [State.setStream]; split <;> rfl)

/-! ### `State.setMport` -/

@[simp] theorem State.rd_setMport (k : Nat) (x : MPortSt) : (s.setMport k x).rd i j = s.rd i j := by first | rfl | (simp only [State.setMport]; split <;> rfl)
@[simp] theorem State.setMport_pending (k : Nat) (x : MPortSt) : (s.setMport k x).pending = s.pending := by first | rfl | (simp only [State.setMport]; split <;> rfl)
@[simp] theorem State.setMport_od (k : Nat) (x : MPortSt) : (s.setMport k x).od = s.od := by first | rfl | (simp only [State.setMport]; split <;> rfl)
@[simp] theorem State.setMport_out (k : Nat) (x : MPortSt) : (s.setMport k x).out = s.out := by first | rfl | (simp only [State.setMport]; split <;> rfl)
@[simp] theorem State.setMport_dev (k : Nat) (x : MPortSt) : (s.setMport k x).dev = s.dev := by first | rfl | (simp only [State.setMport]; split <;> rfl)
@[simp] theorem State.setMport_fab (k : Nat) (x : MPortSt) : (s.setMport k x).fab = s.fab := by first | rfl | (simp only [State.setMport]; split <;> rfl)
@[simp] theorem State.setMport_cell (k : Nat) (x : MPortSt) : (s.setMport k x).cell = s.cell := by first | rfl | (simp only [State.setMport]; split <;> rfl)
@[simp] theorem State.setMport_loc (k : Nat) (x : MPortSt) : (s.setMport k x).loc = s.loc := by first | rfl | (simp only [State.setMport]; split <;> rfl)
@[simp] theorem State.setMport_ray (k : Nat) (x : MPortSt) : (s.setMport k x).ray = s.ray := by first | rfl | (simp only [State.setMport]; split <;> rfl)
@[simp] theorem State.setMport_host (k : Nat) (x : MPortSt) : (s.setMport k x).host = s.host := by first | rfl | (simp only [State.setMport]; split <;> rfl)
@[simp] theorem State.setMport_led (k : Nat) (x : MPortSt) : (s.setMport k x).led = s.led := by first | rfl | (simp only [State.setMport]; split <;> rfl)
@[simp] theorem State.setMport_cfg (k : Nat) (x : MPortSt) : (s.setMport k x).cfg = s.cfg := by first | rfl | (simp only [State.setMport]; split <;> rfl)
@[simp] theorem State.setMport_sec (k : Nat) (x : MPortSt) : (s.setMport k x).sec = s.sec := by first | rfl | (simp only [State.setMport]; split <;> rfl)
@[simp] theorem State.setMport_mgt (k : Nat) (x : MPortSt) : (s.setMport k x).mgt = s.mgt := by first | rfl | (simp only [State.setMport]; split <;> rfl)
@[simp] theorem State.setMport_pin (k : Nat) (x : MPortSt) : (s.setMport k x).pin = s.pin := by first | rfl | (simp only [State.setMport]; split <;> rfl)
@[simp] theorem State.setMport_tst (k : Nat) (x : MPortSt) : (s.setMport k x).tst = s.tst := by first | rfl | (simp only [State.setMport]; split <;> rfl)

/-! ### `State.setPc` -/

@[simp] theorem State.rd_setPc (c : Nat) (x : PcSt) : (s.setPc c x).rd i j = s.rd i j := by first | rfl | (simp only [State.setPc]; split <;> rfl)
@[simp] theorem State.setPc_pending (c : Nat) (x : PcSt) : (s.setPc c x).pending = s.pending := by first | rfl | (simp only [State.setPc]; split <;> rfl)
@[simp] theorem State.setPc_od (c : Nat) (x : PcSt) : (s.setPc c x).od = s.od := by first | rfl | (simp only [State.setPc]; split <;> rfl)
@[simp] theorem State.setPc_out (c : Nat) (x : PcSt) : (s.setPc c x).out = s.out := by first | rfl | (simp only [State.setPc]; split <;> rfl)
@[simp] theorem State.setPc_dev (c : Nat) (x : PcSt) : (s.setPc c x).dev = s.dev := by first | rfl | (simp only [State.setPc]; split <;> rfl)
@[simp] theorem State.setPc_fab (c : Nat) (x : PcSt) : (s.setPc c x).fab = s.fab := by first | rfl | (simp only [State.setPc]; split <;> rfl)
@[simp] theorem State.setPc_cell (c : Nat) (x : PcSt) : (s.setPc c x).cell = s.cell := by first | rfl | (simp only [State.setPc]; split <;> rfl)
@[simp] theorem State.setPc_loc (c : Nat) (x : PcSt) : (s.setPc c x).loc = s.loc := by first | rfl | (simp only [State.setPc]; split <;> rfl)
@[simp] theorem State.setPc_ray (c : Nat) (x : PcSt) : (s.setPc c x).ray = s.ray := by first | rfl | (simp only [State.setPc]; split <;> rfl)
@[simp] theorem State.setPc_host (c : Nat) (x : PcSt) : (s.setPc c x).host = s.host := by first | rfl | (simp only [State.setPc]; split <;> rfl)
@[simp] theorem State.setPc_led (c : Nat) (x : PcSt) : (s.setPc c x).led = s.led := by first | rfl | (simp only [State.setPc]; split <;> rfl)
@[simp] theorem State.setPc_cfg (c : Nat) (x : PcSt) : (s.setPc c x).cfg = s.cfg := by first | rfl | (simp only [State.setPc]; split <;> rfl)
@[simp] theorem State.setPc_sec (c : Nat) (x : PcSt) : (s.setPc c x).sec = s.sec := by first | rfl | (simp only [State.setPc]; split <;> rfl)
@[simp] theorem State.setPc_mgt (c : Nat) (x : PcSt) : (s.setPc c x).mgt = s.mgt := by first | rfl | (simp only [State.setPc]; split <;> rfl)
@[simp] theorem State.setPc_pin (c : Nat) (x : PcSt) : (s.setPc c x).pin = s.pin := by first | rfl | (simp only [State.setPc]; split <;> rfl)
@[simp] theorem State.setPc_tst (c : Nat) (x : PcSt) : (s.setPc c x).tst = s.tst := by first | rfl | (simp only [State.setPc]; split <;> rfl)

/-! ### `State.setLane` -/

@[simp] theorem State.rd_setLane (k : Nat) (x : LaneSt) : (s.setLane k x).rd i j = s.rd i j := by first | rfl | (simp only [State.setLane]; split <;> rfl)
@[simp] theorem State.setLane_pending (k : Nat) (x : LaneSt) : (s.setLane k x).pending = s.pending := by first | rfl | (simp only [State.setLane]; split <;> rfl)
@[simp] theorem State.setLane_od (k : Nat) (x : LaneSt) : (s.setLane k x).od = s.od := by first | rfl | (simp only [State.setLane]; split <;> rfl)
@[simp] theorem State.setLane_out (k : Nat) (x : LaneSt) : (s.setLane k x).out = s.out := by first | rfl | (simp only [State.setLane]; split <;> rfl)
@[simp] theorem State.setLane_dev (k : Nat) (x : LaneSt) : (s.setLane k x).dev = s.dev := by first | rfl | (simp only [State.setLane]; split <;> rfl)
@[simp] theorem State.setLane_fab (k : Nat) (x : LaneSt) : (s.setLane k x).fab = s.fab := by first | rfl | (simp only [State.setLane]; split <;> rfl)
@[simp] theorem State.setLane_cell (k : Nat) (x : LaneSt) : (s.setLane k x).cell = s.cell := by first | rfl | (simp only [State.setLane]; split <;> rfl)
@[simp] theorem State.setLane_loc (k : Nat) (x : LaneSt) : (s.setLane k x).loc = s.loc := by first | rfl | (simp only [State.setLane]; split <;> rfl)
@[simp] theorem State.setLane_mem (k : Nat) (x : LaneSt) : (s.setLane k x).mem = s.mem := by first | rfl | (simp only [State.setLane]; split <;> rfl)
@[simp] theorem State.setLane_host (k : Nat) (x : LaneSt) : (s.setLane k x).host = s.host := by first | rfl | (simp only [State.setLane]; split <;> rfl)
@[simp] theorem State.setLane_led (k : Nat) (x : LaneSt) : (s.setLane k x).led = s.led := by first | rfl | (simp only [State.setLane]; split <;> rfl)
@[simp] theorem State.setLane_cfg (k : Nat) (x : LaneSt) : (s.setLane k x).cfg = s.cfg := by first | rfl | (simp only [State.setLane]; split <;> rfl)
@[simp] theorem State.setLane_sec (k : Nat) (x : LaneSt) : (s.setLane k x).sec = s.sec := by first | rfl | (simp only [State.setLane]; split <;> rfl)
@[simp] theorem State.setLane_mgt (k : Nat) (x : LaneSt) : (s.setLane k x).mgt = s.mgt := by first | rfl | (simp only [State.setLane]; split <;> rfl)
@[simp] theorem State.setLane_pin (k : Nat) (x : LaneSt) : (s.setLane k x).pin = s.pin := by first | rfl | (simp only [State.setLane]; split <;> rfl)
@[simp] theorem State.setLane_tst (k : Nat) (x : LaneSt) : (s.setLane k x).tst = s.tst := by first | rfl | (simp only [State.setLane]; split <;> rfl)

/-! ### `State.setRport` -/

@[simp] theorem State.setRport_pending (p : Nat) (x : RPortSt) : (s.setRport p x).pending = s.pending := by first | rfl | (simp only [State.setRport]; split <;> rfl)
@[simp] theorem State.setRport_out (p : Nat) (x : RPortSt) : (s.setRport p x).out = s.out := by first | rfl | (simp only [State.setRport]; split <;> rfl)
@[simp] theorem State.setRport_dev (p : Nat) (x : RPortSt) : (s.setRport p x).dev = s.dev := by first | rfl | (simp only [State.setRport]; split <;> rfl)
@[simp] theorem State.setRport_fab (p : Nat) (x : RPortSt) : (s.setRport p x).fab = s.fab := by first | rfl | (simp only [State.setRport]; split <;> rfl)
@[simp] theorem State.setRport_cell (p : Nat) (x : RPortSt) : (s.setRport p x).cell = s.cell := by first | rfl | (simp only [State.setRport]; split <;> rfl)
@[simp] theorem State.setRport_loc (p : Nat) (x : RPortSt) : (s.setRport p x).loc = s.loc := by first | rfl | (simp only [State.setRport]; split <;> rfl)
@[simp] theorem State.setRport_mem (p : Nat) (x : RPortSt) : (s.setRport p x).mem = s.mem := by first | rfl | (simp only [State.setRport]; split <;> rfl)
@[simp] theorem State.setRport_host (p : Nat) (x : RPortSt) : (s.setRport p x).host = s.host := by first | rfl | (simp only [State.setRport]; split <;> rfl)
@[simp] theorem State.setRport_led (p : Nat) (x : RPortSt) : (s.setRport p x).led = s.led := by first | rfl | (simp only [State.setRport]; split <;> rfl)
@[simp] theorem State.setRport_cfg (p : Nat) (x : RPortSt) : (s.setRport p x).cfg = s.cfg := by first | rfl | (simp only [State.setRport]; split <;> rfl)
@[simp] theorem State.setRport_sec (p : Nat) (x : RPortSt) : (s.setRport p x).sec = s.sec := by first | rfl | (simp only [State.setRport]; split <;> rfl)
@[simp] theorem State.setRport_mgt (p : Nat) (x : RPortSt) : (s.setRport p x).mgt = s.mgt := by first | rfl | (simp only [State.setRport]; split <;> rfl)
@[simp] theorem State.setRport_pin (p : Nat) (x : RPortSt) : (s.setRport p x).pin = s.pin := by first | rfl | (simp only [State.setRport]; split <;> rfl)
@[simp] theorem State.setRport_tst (p : Nat) (x : RPortSt) : (s.setRport p x).tst = s.tst := by first | rfl | (simp only [State.setRport]; split <;> rfl)

/-! ### `State.setBox` -/

@[simp] theorem State.rd_setBox (f : Nat) (x : MbSt) : (s.setBox f x).rd i j = s.rd i j := by first | rfl | (simp only [State.setBox]; split <;> rfl)
@[simp] theorem State.setBox_pending (f : Nat) (x : MbSt) : (s.setBox f x).pending = s.pending := by first | rfl | (simp only [State.setBox]; split <;> rfl)
@[simp] theorem State.setBox_od (f : Nat) (x : MbSt) : (s.setBox f x).od = s.od := by first | rfl | (simp only [State.setBox]; split <;> rfl)
@[simp] theorem State.setBox_out (f : Nat) (x : MbSt) : (s.setBox f x).out = s.out := by first | rfl | (simp only [State.setBox]; split <;> rfl)
@[simp] theorem State.setBox_dev (f : Nat) (x : MbSt) : (s.setBox f x).dev = s.dev := by first | rfl | (simp only [State.setBox]; split <;> rfl)
@[simp] theorem State.setBox_fab (f : Nat) (x : MbSt) : (s.setBox f x).fab = s.fab := by first | rfl | (simp only [State.setBox]; split <;> rfl)
@[simp] theorem State.setBox_cell (f : Nat) (x : MbSt) : (s.setBox f x).cell = s.cell := by first | rfl | (simp only [State.setBox]; split <;> rfl)
@[simp] theorem State.setBox_loc (f : Nat) (x : MbSt) : (s.setBox f x).loc = s.loc := by first | rfl | (simp only [State.setBox]; split <;> rfl)
@[simp] theorem State.setBox_mem (f : Nat) (x : MbSt) : (s.setBox f x).mem = s.mem := by first | rfl | (simp only [State.setBox]; split <;> rfl)
@[simp] theorem State.setBox_ray (f : Nat) (x : MbSt) : (s.setBox f x).ray = s.ray := by first | rfl | (simp only [State.setBox]; split <;> rfl)
@[simp] theorem State.setBox_led (f : Nat) (x : MbSt) : (s.setBox f x).led = s.led := by first | rfl | (simp only [State.setBox]; split <;> rfl)
@[simp] theorem State.setBox_cfg (f : Nat) (x : MbSt) : (s.setBox f x).cfg = s.cfg := by first | rfl | (simp only [State.setBox]; split <;> rfl)
@[simp] theorem State.setBox_sec (f : Nat) (x : MbSt) : (s.setBox f x).sec = s.sec := by first | rfl | (simp only [State.setBox]; split <;> rfl)
@[simp] theorem State.setBox_mgt (f : Nat) (x : MbSt) : (s.setBox f x).mgt = s.mgt := by first | rfl | (simp only [State.setBox]; split <;> rfl)
@[simp] theorem State.setBox_pin (f : Nat) (x : MbSt) : (s.setBox f x).pin = s.pin := by first | rfl | (simp only [State.setBox]; split <;> rfl)
@[simp] theorem State.setBox_tst (f : Nat) (x : MbSt) : (s.setBox f x).tst = s.tst := by first | rfl | (simp only [State.setBox]; split <;> rfl)

/-! ### `State.setEng` -/

@[simp] theorem State.rd_setEng (e : Nat) (x : EngSt) : (s.setEng e x).rd i j = s.rd i j := by first | rfl | (simp only [State.setEng]; split <;> rfl)
@[simp] theorem State.setEng_pending (e : Nat) (x : EngSt) : (s.setEng e x).pending = s.pending := by first | rfl | (simp only [State.setEng]; split <;> rfl)
@[simp] theorem State.setEng_od (e : Nat) (x : EngSt) : (s.setEng e x).od = s.od := by first | rfl | (simp only [State.setEng]; split <;> rfl)
@[simp] theorem State.setEng_out (e : Nat) (x : EngSt) : (s.setEng e x).out = s.out := by first | rfl | (simp only [State.setEng]; split <;> rfl)
@[simp] theorem State.setEng_dev (e : Nat) (x : EngSt) : (s.setEng e x).dev = s.dev := by first | rfl | (simp only [State.setEng]; split <;> rfl)
@[simp] theorem State.setEng_fab (e : Nat) (x : EngSt) : (s.setEng e x).fab = s.fab := by first | rfl | (simp only [State.setEng]; split <;> rfl)
@[simp] theorem State.setEng_cell (e : Nat) (x : EngSt) : (s.setEng e x).cell = s.cell := by first | rfl | (simp only [State.setEng]; split <;> rfl)
@[simp] theorem State.setEng_loc (e : Nat) (x : EngSt) : (s.setEng e x).loc = s.loc := by first | rfl | (simp only [State.setEng]; split <;> rfl)
@[simp] theorem State.setEng_mem (e : Nat) (x : EngSt) : (s.setEng e x).mem = s.mem := by first | rfl | (simp only [State.setEng]; split <;> rfl)
@[simp] theorem State.setEng_ray (e : Nat) (x : EngSt) : (s.setEng e x).ray = s.ray := by first | rfl | (simp only [State.setEng]; split <;> rfl)
@[simp] theorem State.setEng_led (e : Nat) (x : EngSt) : (s.setEng e x).led = s.led := by first | rfl | (simp only [State.setEng]; split <;> rfl)
@[simp] theorem State.setEng_cfg (e : Nat) (x : EngSt) : (s.setEng e x).cfg = s.cfg := by first | rfl | (simp only [State.setEng]; split <;> rfl)
@[simp] theorem State.setEng_sec (e : Nat) (x : EngSt) : (s.setEng e x).sec = s.sec := by first | rfl | (simp only [State.setEng]; split <;> rfl)
@[simp] theorem State.setEng_mgt (e : Nat) (x : EngSt) : (s.setEng e x).mgt = s.mgt := by first | rfl | (simp only [State.setEng]; split <;> rfl)
@[simp] theorem State.setEng_pin (e : Nat) (x : EngSt) : (s.setEng e x).pin = s.pin := by first | rfl | (simp only [State.setEng]; split <;> rfl)
@[simp] theorem State.setEng_tst (e : Nat) (x : EngSt) : (s.setEng e x).tst = s.tst := by first | rfl | (simp only [State.setEng]; split <;> rfl)

/-! ### `State.setHop` -/

@[simp] theorem State.rd_setHop (n : Nat) (x : HopSt) : (s.setHop n x).rd i j = s.rd i j := by first | rfl | (simp only [State.setHop]; split <;> rfl)
@[simp] theorem State.setHop_pending (n : Nat) (x : HopSt) : (s.setHop n x).pending = s.pending := by first | rfl | (simp only [State.setHop]; split <;> rfl)
@[simp] theorem State.setHop_od (n : Nat) (x : HopSt) : (s.setHop n x).od = s.od := by first | rfl | (simp only [State.setHop]; split <;> rfl)
@[simp] theorem State.setHop_out (n : Nat) (x : HopSt) : (s.setHop n x).out = s.out := by first | rfl | (simp only [State.setHop]; split <;> rfl)
@[simp] theorem State.setHop_dev (n : Nat) (x : HopSt) : (s.setHop n x).dev = s.dev := by first | rfl | (simp only [State.setHop]; split <;> rfl)
@[simp] theorem State.setHop_fab (n : Nat) (x : HopSt) : (s.setHop n x).fab = s.fab := by first | rfl | (simp only [State.setHop]; split <;> rfl)
@[simp] theorem State.setHop_cell (n : Nat) (x : HopSt) : (s.setHop n x).cell = s.cell := by first | rfl | (simp only [State.setHop]; split <;> rfl)
@[simp] theorem State.setHop_loc (n : Nat) (x : HopSt) : (s.setHop n x).loc = s.loc := by first | rfl | (simp only [State.setHop]; split <;> rfl)
@[simp] theorem State.setHop_mem (n : Nat) (x : HopSt) : (s.setHop n x).mem = s.mem := by first | rfl | (simp only [State.setHop]; split <;> rfl)
@[simp] theorem State.setHop_ray (n : Nat) (x : HopSt) : (s.setHop n x).ray = s.ray := by first | rfl | (simp only [State.setHop]; split <;> rfl)
@[simp] theorem State.setHop_host (n : Nat) (x : HopSt) : (s.setHop n x).host = s.host := by first | rfl | (simp only [State.setHop]; split <;> rfl)
@[simp] theorem State.setHop_cfg (n : Nat) (x : HopSt) : (s.setHop n x).cfg = s.cfg := by first | rfl | (simp only [State.setHop]; split <;> rfl)
@[simp] theorem State.setHop_sec (n : Nat) (x : HopSt) : (s.setHop n x).sec = s.sec := by first | rfl | (simp only [State.setHop]; split <;> rfl)
@[simp] theorem State.setHop_mgt (n : Nat) (x : HopSt) : (s.setHop n x).mgt = s.mgt := by first | rfl | (simp only [State.setHop]; split <;> rfl)
@[simp] theorem State.setHop_pin (n : Nat) (x : HopSt) : (s.setHop n x).pin = s.pin := by first | rfl | (simp only [State.setHop]; split <;> rfl)
@[simp] theorem State.setHop_tst (n : Nat) (x : HopSt) : (s.setHop n x).tst = s.tst := by first | rfl | (simp only [State.setHop]; split <;> rfl)

/-! ### `State.setSlot` -/

@[simp] theorem State.rd_setSlot (k : Nat) (x : SlotSt) : (s.setSlot k x).rd i j = s.rd i j := by first | rfl | (simp only [State.setSlot]; split <;> rfl)
@[simp] theorem State.setSlot_pending (k : Nat) (x : SlotSt) : (s.setSlot k x).pending = s.pending := by first | rfl | (simp only [State.setSlot]; split <;> rfl)
@[simp] theorem State.setSlot_od (k : Nat) (x : SlotSt) : (s.setSlot k x).od = s.od := by first | rfl | (simp only [State.setSlot]; split <;> rfl)
@[simp] theorem State.setSlot_out (k : Nat) (x : SlotSt) : (s.setSlot k x).out = s.out := by first | rfl | (simp only [State.setSlot]; split <;> rfl)
@[simp] theorem State.setSlot_dev (k : Nat) (x : SlotSt) : (s.setSlot k x).dev = s.dev := by first | rfl | (simp only [State.setSlot]; split <;> rfl)
@[simp] theorem State.setSlot_fab (k : Nat) (x : SlotSt) : (s.setSlot k x).fab = s.fab := by first | rfl | (simp only [State.setSlot]; split <;> rfl)
@[simp] theorem State.setSlot_cell (k : Nat) (x : SlotSt) : (s.setSlot k x).cell = s.cell := by first | rfl | (simp only [State.setSlot]; split <;> rfl)
@[simp] theorem State.setSlot_loc (k : Nat) (x : SlotSt) : (s.setSlot k x).loc = s.loc := by first | rfl | (simp only [State.setSlot]; split <;> rfl)
@[simp] theorem State.setSlot_mem (k : Nat) (x : SlotSt) : (s.setSlot k x).mem = s.mem := by first | rfl | (simp only [State.setSlot]; split <;> rfl)
@[simp] theorem State.setSlot_ray (k : Nat) (x : SlotSt) : (s.setSlot k x).ray = s.ray := by first | rfl | (simp only [State.setSlot]; split <;> rfl)
@[simp] theorem State.setSlot_host (k : Nat) (x : SlotSt) : (s.setSlot k x).host = s.host := by first | rfl | (simp only [State.setSlot]; split <;> rfl)
@[simp] theorem State.setSlot_led (k : Nat) (x : SlotSt) : (s.setSlot k x).led = s.led := by first | rfl | (simp only [State.setSlot]; split <;> rfl)
@[simp] theorem State.setSlot_sec (k : Nat) (x : SlotSt) : (s.setSlot k x).sec = s.sec := by first | rfl | (simp only [State.setSlot]; split <;> rfl)
@[simp] theorem State.setSlot_mgt (k : Nat) (x : SlotSt) : (s.setSlot k x).mgt = s.mgt := by first | rfl | (simp only [State.setSlot]; split <;> rfl)
@[simp] theorem State.setSlot_pin (k : Nat) (x : SlotSt) : (s.setSlot k x).pin = s.pin := by first | rfl | (simp only [State.setSlot]; split <;> rfl)
@[simp] theorem State.setSlot_tst (k : Nat) (x : SlotSt) : (s.setSlot k x).tst = s.tst := by first | rfl | (simp only [State.setSlot]; split <;> rfl)

/-! ### `State.setLoad` -/

@[simp] theorem State.rd_setLoad (d : Nat) (x : LoadSt) : (s.setLoad d x).rd i j = s.rd i j := by first | rfl | (simp only [State.setLoad]; split <;> rfl)
@[simp] theorem State.setLoad_pending (d : Nat) (x : LoadSt) : (s.setLoad d x).pending = s.pending := by first | rfl | (simp only [State.setLoad]; split <;> rfl)
@[simp] theorem State.setLoad_od (d : Nat) (x : LoadSt) : (s.setLoad d x).od = s.od := by first | rfl | (simp only [State.setLoad]; split <;> rfl)
@[simp] theorem State.setLoad_out (d : Nat) (x : LoadSt) : (s.setLoad d x).out = s.out := by first | rfl | (simp only [State.setLoad]; split <;> rfl)
@[simp] theorem State.setLoad_dev (d : Nat) (x : LoadSt) : (s.setLoad d x).dev = s.dev := by first | rfl | (simp only [State.setLoad]; split <;> rfl)
@[simp] theorem State.setLoad_fab (d : Nat) (x : LoadSt) : (s.setLoad d x).fab = s.fab := by first | rfl | (simp only [State.setLoad]; split <;> rfl)
@[simp] theorem State.setLoad_cell (d : Nat) (x : LoadSt) : (s.setLoad d x).cell = s.cell := by first | rfl | (simp only [State.setLoad]; split <;> rfl)
@[simp] theorem State.setLoad_loc (d : Nat) (x : LoadSt) : (s.setLoad d x).loc = s.loc := by first | rfl | (simp only [State.setLoad]; split <;> rfl)
@[simp] theorem State.setLoad_mem (d : Nat) (x : LoadSt) : (s.setLoad d x).mem = s.mem := by first | rfl | (simp only [State.setLoad]; split <;> rfl)
@[simp] theorem State.setLoad_ray (d : Nat) (x : LoadSt) : (s.setLoad d x).ray = s.ray := by first | rfl | (simp only [State.setLoad]; split <;> rfl)
@[simp] theorem State.setLoad_host (d : Nat) (x : LoadSt) : (s.setLoad d x).host = s.host := by first | rfl | (simp only [State.setLoad]; split <;> rfl)
@[simp] theorem State.setLoad_led (d : Nat) (x : LoadSt) : (s.setLoad d x).led = s.led := by first | rfl | (simp only [State.setLoad]; split <;> rfl)
@[simp] theorem State.setLoad_sec (d : Nat) (x : LoadSt) : (s.setLoad d x).sec = s.sec := by first | rfl | (simp only [State.setLoad]; split <;> rfl)
@[simp] theorem State.setLoad_mgt (d : Nat) (x : LoadSt) : (s.setLoad d x).mgt = s.mgt := by first | rfl | (simp only [State.setLoad]; split <;> rfl)
@[simp] theorem State.setLoad_pin (d : Nat) (x : LoadSt) : (s.setLoad d x).pin = s.pin := by first | rfl | (simp only [State.setLoad]; split <;> rfl)
@[simp] theorem State.setLoad_tst (d : Nat) (x : LoadSt) : (s.setLoad d x).tst = s.tst := by first | rfl | (simp only [State.setLoad]; split <;> rfl)

/-! ### `State.setSerial` -/

@[simp] theorem State.rd_setSerial (k : Nat) (x : SerialSt) : (s.setSerial k x).rd i j = s.rd i j := by first | rfl | (simp only [State.setSerial]; split <;> rfl)
@[simp] theorem State.setSerial_pending (k : Nat) (x : SerialSt) : (s.setSerial k x).pending = s.pending := by first | rfl | (simp only [State.setSerial]; split <;> rfl)
@[simp] theorem State.setSerial_od (k : Nat) (x : SerialSt) : (s.setSerial k x).od = s.od := by first | rfl | (simp only [State.setSerial]; split <;> rfl)
@[simp] theorem State.setSerial_out (k : Nat) (x : SerialSt) : (s.setSerial k x).out = s.out := by first | rfl | (simp only [State.setSerial]; split <;> rfl)
@[simp] theorem State.setSerial_dev (k : Nat) (x : SerialSt) : (s.setSerial k x).dev = s.dev := by first | rfl | (simp only [State.setSerial]; split <;> rfl)
@[simp] theorem State.setSerial_fab (k : Nat) (x : SerialSt) : (s.setSerial k x).fab = s.fab := by first | rfl | (simp only [State.setSerial]; split <;> rfl)
@[simp] theorem State.setSerial_cell (k : Nat) (x : SerialSt) : (s.setSerial k x).cell = s.cell := by first | rfl | (simp only [State.setSerial]; split <;> rfl)
@[simp] theorem State.setSerial_loc (k : Nat) (x : SerialSt) : (s.setSerial k x).loc = s.loc := by first | rfl | (simp only [State.setSerial]; split <;> rfl)
@[simp] theorem State.setSerial_mem (k : Nat) (x : SerialSt) : (s.setSerial k x).mem = s.mem := by first | rfl | (simp only [State.setSerial]; split <;> rfl)
@[simp] theorem State.setSerial_ray (k : Nat) (x : SerialSt) : (s.setSerial k x).ray = s.ray := by first | rfl | (simp only [State.setSerial]; split <;> rfl)
@[simp] theorem State.setSerial_host (k : Nat) (x : SerialSt) : (s.setSerial k x).host = s.host := by first | rfl | (simp only [State.setSerial]; split <;> rfl)
@[simp] theorem State.setSerial_led (k : Nat) (x : SerialSt) : (s.setSerial k x).led = s.led := by first | rfl | (simp only [State.setSerial]; split <;> rfl)
@[simp] theorem State.setSerial_cfg (k : Nat) (x : SerialSt) : (s.setSerial k x).cfg = s.cfg := by first | rfl | (simp only [State.setSerial]; split <;> rfl)
@[simp] theorem State.setSerial_sec (k : Nat) (x : SerialSt) : (s.setSerial k x).sec = s.sec := by first | rfl | (simp only [State.setSerial]; split <;> rfl)
@[simp] theorem State.setSerial_mgt (k : Nat) (x : SerialSt) : (s.setSerial k x).mgt = s.mgt := by first | rfl | (simp only [State.setSerial]; split <;> rfl)
@[simp] theorem State.setSerial_tst (k : Nat) (x : SerialSt) : (s.setSerial k x).tst = s.tst := by first | rfl | (simp only [State.setSerial]; split <;> rfl)

/-! ### `State.setPwm` -/

@[simp] theorem State.rd_setPwm (k : Nat) (x : PwmSt) : (s.setPwm k x).rd i j = s.rd i j := by first | rfl | (simp only [State.setPwm]; split <;> rfl)
@[simp] theorem State.setPwm_pending (k : Nat) (x : PwmSt) : (s.setPwm k x).pending = s.pending := by first | rfl | (simp only [State.setPwm]; split <;> rfl)
@[simp] theorem State.setPwm_od (k : Nat) (x : PwmSt) : (s.setPwm k x).od = s.od := by first | rfl | (simp only [State.setPwm]; split <;> rfl)
@[simp] theorem State.setPwm_out (k : Nat) (x : PwmSt) : (s.setPwm k x).out = s.out := by first | rfl | (simp only [State.setPwm]; split <;> rfl)
@[simp] theorem State.setPwm_dev (k : Nat) (x : PwmSt) : (s.setPwm k x).dev = s.dev := by first | rfl | (simp only [State.setPwm]; split <;> rfl)
@[simp] theorem State.setPwm_fab (k : Nat) (x : PwmSt) : (s.setPwm k x).fab = s.fab := by first | rfl | (simp only [State.setPwm]; split <;> rfl)
@[simp] theorem State.setPwm_cell (k : Nat) (x : PwmSt) : (s.setPwm k x).cell = s.cell := by first | rfl | (simp only [State.setPwm]; split <;> rfl)
@[simp] theorem State.setPwm_loc (k : Nat) (x : PwmSt) : (s.setPwm k x).loc = s.loc := by first | rfl | (simp only [State.setPwm]; split <;> rfl)
@[simp] theorem State.setPwm_mem (k : Nat) (x : PwmSt) : (s.setPwm k x).mem = s.mem := by first | rfl | (simp only [State.setPwm]; split <;> rfl)
@[simp] theorem State.setPwm_ray (k : Nat) (x : PwmSt) : (s.setPwm k x).ray = s.ray := by first | rfl | (simp only [State.setPwm]; split <;> rfl)
@[simp] theorem State.setPwm_host (k : Nat) (x : PwmSt) : (s.setPwm k x).host = s.host := by first | rfl | (simp only [State.setPwm]; split <;> rfl)
@[simp] theorem State.setPwm_led (k : Nat) (x : PwmSt) : (s.setPwm k x).led = s.led := by first | rfl | (simp only [State.setPwm]; split <;> rfl)
@[simp] theorem State.setPwm_cfg (k : Nat) (x : PwmSt) : (s.setPwm k x).cfg = s.cfg := by first | rfl | (simp only [State.setPwm]; split <;> rfl)
@[simp] theorem State.setPwm_sec (k : Nat) (x : PwmSt) : (s.setPwm k x).sec = s.sec := by first | rfl | (simp only [State.setPwm]; split <;> rfl)
@[simp] theorem State.setPwm_mgt (k : Nat) (x : PwmSt) : (s.setPwm k x).mgt = s.mgt := by first | rfl | (simp only [State.setPwm]; split <;> rfl)
@[simp] theorem State.setPwm_tst (k : Nat) (x : PwmSt) : (s.setPwm k x).tst = s.tst := by first | rfl | (simp only [State.setPwm]; split <;> rfl)

/-! ### `State.setPad` -/

@[simp] theorem State.rd_setPad (p : Nat) (x : PadSt) : (s.setPad p x).rd i j = s.rd i j := by first | rfl | (simp only [State.setPad]; split <;> rfl)
@[simp] theorem State.setPad_pending (p : Nat) (x : PadSt) : (s.setPad p x).pending = s.pending := by first | rfl | (simp only [State.setPad]; split <;> rfl)
@[simp] theorem State.setPad_od (p : Nat) (x : PadSt) : (s.setPad p x).od = s.od := by first | rfl | (simp only [State.setPad]; split <;> rfl)
@[simp] theorem State.setPad_out (p : Nat) (x : PadSt) : (s.setPad p x).out = s.out := by first | rfl | (simp only [State.setPad]; split <;> rfl)
@[simp] theorem State.setPad_dev (p : Nat) (x : PadSt) : (s.setPad p x).dev = s.dev := by first | rfl | (simp only [State.setPad]; split <;> rfl)
@[simp] theorem State.setPad_fab (p : Nat) (x : PadSt) : (s.setPad p x).fab = s.fab := by first | rfl | (simp only [State.setPad]; split <;> rfl)
@[simp] theorem State.setPad_cell (p : Nat) (x : PadSt) : (s.setPad p x).cell = s.cell := by first | rfl | (simp only [State.setPad]; split <;> rfl)
@[simp] theorem State.setPad_loc (p : Nat) (x : PadSt) : (s.setPad p x).loc = s.loc := by first | rfl | (simp only [State.setPad]; split <;> rfl)
@[simp] theorem State.setPad_mem (p : Nat) (x : PadSt) : (s.setPad p x).mem = s.mem := by first | rfl | (simp only [State.setPad]; split <;> rfl)
@[simp] theorem State.setPad_ray (p : Nat) (x : PadSt) : (s.setPad p x).ray = s.ray := by first | rfl | (simp only [State.setPad]; split <;> rfl)
@[simp] theorem State.setPad_host (p : Nat) (x : PadSt) : (s.setPad p x).host = s.host := by first | rfl | (simp only [State.setPad]; split <;> rfl)
@[simp] theorem State.setPad_led (p : Nat) (x : PadSt) : (s.setPad p x).led = s.led := by first | rfl | (simp only [State.setPad]; split <;> rfl)
@[simp] theorem State.setPad_cfg (p : Nat) (x : PadSt) : (s.setPad p x).cfg = s.cfg := by first | rfl | (simp only [State.setPad]; split <;> rfl)
@[simp] theorem State.setPad_sec (p : Nat) (x : PadSt) : (s.setPad p x).sec = s.sec := by first | rfl | (simp only [State.setPad]; split <;> rfl)
@[simp] theorem State.setPad_mgt (p : Nat) (x : PadSt) : (s.setPad p x).mgt = s.mgt := by first | rfl | (simp only [State.setPad]; split <;> rfl)
@[simp] theorem State.setPad_tst (p : Nat) (x : PadSt) : (s.setPad p x).tst = s.tst := by first | rfl | (simp only [State.setPad]; split <;> rfl)

/-! ### `State.setLine` -/

@[simp] theorem State.rd_setLine (n : Nat) (x : LineSt) : (s.setLine n x).rd i j = s.rd i j := by first | rfl | (simp only [State.setLine]; split <;> rfl)
@[simp] theorem State.setLine_pending (n : Nat) (x : LineSt) : (s.setLine n x).pending = s.pending := by first | rfl | (simp only [State.setLine]; split <;> rfl)
@[simp] theorem State.setLine_od (n : Nat) (x : LineSt) : (s.setLine n x).od = s.od := by first | rfl | (simp only [State.setLine]; split <;> rfl)
@[simp] theorem State.setLine_out (n : Nat) (x : LineSt) : (s.setLine n x).out = s.out := by first | rfl | (simp only [State.setLine]; split <;> rfl)
@[simp] theorem State.setLine_dev (n : Nat) (x : LineSt) : (s.setLine n x).dev = s.dev := by first | rfl | (simp only [State.setLine]; split <;> rfl)
@[simp] theorem State.setLine_fab (n : Nat) (x : LineSt) : (s.setLine n x).fab = s.fab := by first | rfl | (simp only [State.setLine]; split <;> rfl)
@[simp] theorem State.setLine_cell (n : Nat) (x : LineSt) : (s.setLine n x).cell = s.cell := by first | rfl | (simp only [State.setLine]; split <;> rfl)
@[simp] theorem State.setLine_loc (n : Nat) (x : LineSt) : (s.setLine n x).loc = s.loc := by first | rfl | (simp only [State.setLine]; split <;> rfl)
@[simp] theorem State.setLine_mem (n : Nat) (x : LineSt) : (s.setLine n x).mem = s.mem := by first | rfl | (simp only [State.setLine]; split <;> rfl)
@[simp] theorem State.setLine_ray (n : Nat) (x : LineSt) : (s.setLine n x).ray = s.ray := by first | rfl | (simp only [State.setLine]; split <;> rfl)
@[simp] theorem State.setLine_host (n : Nat) (x : LineSt) : (s.setLine n x).host = s.host := by first | rfl | (simp only [State.setLine]; split <;> rfl)
@[simp] theorem State.setLine_led (n : Nat) (x : LineSt) : (s.setLine n x).led = s.led := by first | rfl | (simp only [State.setLine]; split <;> rfl)
@[simp] theorem State.setLine_cfg (n : Nat) (x : LineSt) : (s.setLine n x).cfg = s.cfg := by first | rfl | (simp only [State.setLine]; split <;> rfl)
@[simp] theorem State.setLine_sec (n : Nat) (x : LineSt) : (s.setLine n x).sec = s.sec := by first | rfl | (simp only [State.setLine]; split <;> rfl)
@[simp] theorem State.setLine_mgt (n : Nat) (x : LineSt) : (s.setLine n x).mgt = s.mgt := by first | rfl | (simp only [State.setLine]; split <;> rfl)
@[simp] theorem State.setLine_tst (n : Nat) (x : LineSt) : (s.setLine n x).tst = s.tst := by first | rfl | (simp only [State.setLine]; split <;> rfl)

/-! ### `State.pcCount` -/

@[simp] theorem State.rd_pcCount (c acct cls k : Nat) : (s.pcCount c acct cls k).rd i j = s.rd i j := by first | rfl | (simp only [State.pcCount]; split <;> rfl)
@[simp] theorem State.pcCount_pending (c acct cls k : Nat) : (s.pcCount c acct cls k).pending = s.pending := by first | rfl | (simp only [State.pcCount]; split <;> rfl)
@[simp] theorem State.pcCount_od (c acct cls k : Nat) : (s.pcCount c acct cls k).od = s.od := by first | rfl | (simp only [State.pcCount]; split <;> rfl)
@[simp] theorem State.pcCount_out (c acct cls k : Nat) : (s.pcCount c acct cls k).out = s.out := by first | rfl | (simp only [State.pcCount]; split <;> rfl)
@[simp] theorem State.pcCount_dev (c acct cls k : Nat) : (s.pcCount c acct cls k).dev = s.dev := by first | rfl | (simp only [State.pcCount]; split <;> rfl)
@[simp] theorem State.pcCount_fab (c acct cls k : Nat) : (s.pcCount c acct cls k).fab = s.fab := by first | rfl | (simp only [State.pcCount]; split <;> rfl)
@[simp] theorem State.pcCount_cell (c acct cls k : Nat) : (s.pcCount c acct cls k).cell = s.cell := by first | rfl | (simp only [State.pcCount]; split <;> rfl)
@[simp] theorem State.pcCount_loc (c acct cls k : Nat) : (s.pcCount c acct cls k).loc = s.loc := by first | rfl | (simp only [State.pcCount]; split <;> rfl)
@[simp] theorem State.pcCount_ray (c acct cls k : Nat) : (s.pcCount c acct cls k).ray = s.ray := by first | rfl | (simp only [State.pcCount]; split <;> rfl)
@[simp] theorem State.pcCount_host (c acct cls k : Nat) : (s.pcCount c acct cls k).host = s.host := by first | rfl | (simp only [State.pcCount]; split <;> rfl)
@[simp] theorem State.pcCount_led (c acct cls k : Nat) : (s.pcCount c acct cls k).led = s.led := by first | rfl | (simp only [State.pcCount]; split <;> rfl)
@[simp] theorem State.pcCount_cfg (c acct cls k : Nat) : (s.pcCount c acct cls k).cfg = s.cfg := by first | rfl | (simp only [State.pcCount]; split <;> rfl)
@[simp] theorem State.pcCount_sec (c acct cls k : Nat) : (s.pcCount c acct cls k).sec = s.sec := by first | rfl | (simp only [State.pcCount]; split <;> rfl)
@[simp] theorem State.pcCount_mgt (c acct cls k : Nat) : (s.pcCount c acct cls k).mgt = s.mgt := by first | rfl | (simp only [State.pcCount]; split <;> rfl)
@[simp] theorem State.pcCount_pin (c acct cls k : Nat) : (s.pcCount c acct cls k).pin = s.pin := by first | rfl | (simp only [State.pcCount]; split <;> rfl)
@[simp] theorem State.pcCount_tst (c acct cls k : Nat) : (s.pcCount c acct cls k).tst = s.tst := by first | rfl | (simp only [State.pcCount]; split <;> rfl)

/-! ### `State.locCount` -/

@[simp] theorem State.rd_locCount (d q k : Nat) : (s.locCount d q k).rd i j = s.rd i j := by first | rfl | (simp only [State.locCount]; split <;> rfl)
@[simp] theorem State.locCount_pending (d q k : Nat) : (s.locCount d q k).pending = s.pending := by first | rfl | (simp only [State.locCount]; split <;> rfl)
@[simp] theorem State.locCount_od (d q k : Nat) : (s.locCount d q k).od = s.od := by first | rfl | (simp only [State.locCount]; split <;> rfl)
@[simp] theorem State.locCount_out (d q k : Nat) : (s.locCount d q k).out = s.out := by first | rfl | (simp only [State.locCount]; split <;> rfl)
@[simp] theorem State.locCount_dev (d q k : Nat) : (s.locCount d q k).dev = s.dev := by first | rfl | (simp only [State.locCount]; split <;> rfl)
@[simp] theorem State.locCount_fab (d q k : Nat) : (s.locCount d q k).fab = s.fab := by first | rfl | (simp only [State.locCount]; split <;> rfl)
@[simp] theorem State.locCount_cell (d q k : Nat) : (s.locCount d q k).cell = s.cell := by first | rfl | (simp only [State.locCount]; split <;> rfl)
@[simp] theorem State.locCount_mem (d q k : Nat) : (s.locCount d q k).mem = s.mem := by first | rfl | (simp only [State.locCount]; split <;> rfl)
@[simp] theorem State.locCount_ray (d q k : Nat) : (s.locCount d q k).ray = s.ray := by first | rfl | (simp only [State.locCount]; split <;> rfl)
@[simp] theorem State.locCount_host (d q k : Nat) : (s.locCount d q k).host = s.host := by first | rfl | (simp only [State.locCount]; split <;> rfl)
@[simp] theorem State.locCount_led (d q k : Nat) : (s.locCount d q k).led = s.led := by first | rfl | (simp only [State.locCount]; split <;> rfl)
@[simp] theorem State.locCount_cfg (d q k : Nat) : (s.locCount d q k).cfg = s.cfg := by first | rfl | (simp only [State.locCount]; split <;> rfl)
@[simp] theorem State.locCount_sec (d q k : Nat) : (s.locCount d q k).sec = s.sec := by first | rfl | (simp only [State.locCount]; split <;> rfl)
@[simp] theorem State.locCount_mgt (d q k : Nat) : (s.locCount d q k).mgt = s.mgt := by first | rfl | (simp only [State.locCount]; split <;> rfl)
@[simp] theorem State.locCount_pin (d q k : Nat) : (s.locCount d q k).pin = s.pin := by first | rfl | (simp only [State.locCount]; split <;> rfl)
@[simp] theorem State.locCount_tst (d q k : Nat) : (s.locCount d q k).tst = s.tst := by first | rfl | (simp only [State.locCount]; split <;> rfl)

/-! ### `State.hostCount` -/

@[simp] theorem State.rd_hostCount (acct k : Nat) : (s.hostCount acct k).rd i j = s.rd i j := by first | rfl | (simp only [State.hostCount]; split <;> rfl)
@[simp] theorem State.hostCount_pending (acct k : Nat) : (s.hostCount acct k).pending = s.pending := by first | rfl | (simp only [State.hostCount]; split <;> rfl)
@[simp] theorem State.hostCount_od (acct k : Nat) : (s.hostCount acct k).od = s.od := by first | rfl | (simp only [State.hostCount]; split <;> rfl)
@[simp] theorem State.hostCount_out (acct k : Nat) : (s.hostCount acct k).out = s.out := by first | rfl | (simp only [State.hostCount]; split <;> rfl)
@[simp] theorem State.hostCount_dev (acct k : Nat) : (s.hostCount acct k).dev = s.dev := by first | rfl | (simp only [State.hostCount]; split <;> rfl)
@[simp] theorem State.hostCount_fab (acct k : Nat) : (s.hostCount acct k).fab = s.fab := by first | rfl | (simp only [State.hostCount]; split <;> rfl)
@[simp] theorem State.hostCount_cell (acct k : Nat) : (s.hostCount acct k).cell = s.cell := by first | rfl | (simp only [State.hostCount]; split <;> rfl)
@[simp] theorem State.hostCount_loc (acct k : Nat) : (s.hostCount acct k).loc = s.loc := by first | rfl | (simp only [State.hostCount]; split <;> rfl)
@[simp] theorem State.hostCount_mem (acct k : Nat) : (s.hostCount acct k).mem = s.mem := by first | rfl | (simp only [State.hostCount]; split <;> rfl)
@[simp] theorem State.hostCount_ray (acct k : Nat) : (s.hostCount acct k).ray = s.ray := by first | rfl | (simp only [State.hostCount]; split <;> rfl)
@[simp] theorem State.hostCount_led (acct k : Nat) : (s.hostCount acct k).led = s.led := by first | rfl | (simp only [State.hostCount]; split <;> rfl)
@[simp] theorem State.hostCount_cfg (acct k : Nat) : (s.hostCount acct k).cfg = s.cfg := by first | rfl | (simp only [State.hostCount]; split <;> rfl)
@[simp] theorem State.hostCount_sec (acct k : Nat) : (s.hostCount acct k).sec = s.sec := by first | rfl | (simp only [State.hostCount]; split <;> rfl)
@[simp] theorem State.hostCount_mgt (acct k : Nat) : (s.hostCount acct k).mgt = s.mgt := by first | rfl | (simp only [State.hostCount]; split <;> rfl)
@[simp] theorem State.hostCount_pin (acct k : Nat) : (s.hostCount acct k).pin = s.pin := by first | rfl | (simp only [State.hostCount]; split <;> rfl)
@[simp] theorem State.hostCount_tst (acct k : Nat) : (s.hostCount acct k).tst = s.tst := by first | rfl | (simp only [State.hostCount]; split <;> rfl)

/-! ### `State.timeCharge` -/

@[simp] theorem State.rd_timeCharge (dt : Nat) : (s.timeCharge dt).rd i j = s.rd i j := by first | rfl | (simp only [State.timeCharge]; split <;> rfl)
@[simp] theorem State.timeCharge_pending (dt : Nat) : (s.timeCharge dt).pending = s.pending := by first | rfl | (simp only [State.timeCharge]; split <;> rfl)
@[simp] theorem State.timeCharge_od (dt : Nat) : (s.timeCharge dt).od = s.od := by first | rfl | (simp only [State.timeCharge]; split <;> rfl)
@[simp] theorem State.timeCharge_out (dt : Nat) : (s.timeCharge dt).out = s.out := by first | rfl | (simp only [State.timeCharge]; split <;> rfl)
@[simp] theorem State.timeCharge_dev (dt : Nat) : (s.timeCharge dt).dev = s.dev := by first | rfl | (simp only [State.timeCharge]; split <;> rfl)
@[simp] theorem State.timeCharge_fab (dt : Nat) : (s.timeCharge dt).fab = s.fab := by first | rfl | (simp only [State.timeCharge]; split <;> rfl)
@[simp] theorem State.timeCharge_cell (dt : Nat) : (s.timeCharge dt).cell = s.cell := by first | rfl | (simp only [State.timeCharge]; split <;> rfl)
@[simp] theorem State.timeCharge_loc (dt : Nat) : (s.timeCharge dt).loc = s.loc := by first | rfl | (simp only [State.timeCharge]; split <;> rfl)
@[simp] theorem State.timeCharge_mem (dt : Nat) : (s.timeCharge dt).mem = s.mem := by first | rfl | (simp only [State.timeCharge]; split <;> rfl)
@[simp] theorem State.timeCharge_ray (dt : Nat) : (s.timeCharge dt).ray = s.ray := by first | rfl | (simp only [State.timeCharge]; split <;> rfl)
@[simp] theorem State.timeCharge_host (dt : Nat) : (s.timeCharge dt).host = s.host := by first | rfl | (simp only [State.timeCharge]; split <;> rfl)
@[simp] theorem State.timeCharge_cfg (dt : Nat) : (s.timeCharge dt).cfg = s.cfg := by first | rfl | (simp only [State.timeCharge]; split <;> rfl)
@[simp] theorem State.timeCharge_sec (dt : Nat) : (s.timeCharge dt).sec = s.sec := by first | rfl | (simp only [State.timeCharge]; split <;> rfl)
@[simp] theorem State.timeCharge_mgt (dt : Nat) : (s.timeCharge dt).mgt = s.mgt := by first | rfl | (simp only [State.timeCharge]; split <;> rfl)
@[simp] theorem State.timeCharge_pin (dt : Nat) : (s.timeCharge dt).pin = s.pin := by first | rfl | (simp only [State.timeCharge]; split <;> rfl)
@[simp] theorem State.timeCharge_tst (dt : Nat) : (s.timeCharge dt).tst = s.tst := by first | rfl | (simp only [State.timeCharge]; split <;> rfl)

/-! ### `State.tempsRead` -/

@[simp] theorem State.rd_tempsRead (temps : List (Region × Int)) : (s.tempsRead temps).rd i j = s.rd i j := by first | rfl | (simp only [State.tempsRead]; split <;> rfl)
@[simp] theorem State.tempsRead_pending (temps : List (Region × Int)) : (s.tempsRead temps).pending = s.pending := by first | rfl | (simp only [State.tempsRead]; split <;> rfl)
@[simp] theorem State.tempsRead_od (temps : List (Region × Int)) : (s.tempsRead temps).od = s.od := by first | rfl | (simp only [State.tempsRead]; split <;> rfl)
@[simp] theorem State.tempsRead_out (temps : List (Region × Int)) : (s.tempsRead temps).out = s.out := by first | rfl | (simp only [State.tempsRead]; split <;> rfl)
@[simp] theorem State.tempsRead_dev (temps : List (Region × Int)) : (s.tempsRead temps).dev = s.dev := by first | rfl | (simp only [State.tempsRead]; split <;> rfl)
@[simp] theorem State.tempsRead_fab (temps : List (Region × Int)) : (s.tempsRead temps).fab = s.fab := by first | rfl | (simp only [State.tempsRead]; split <;> rfl)
@[simp] theorem State.tempsRead_cell (temps : List (Region × Int)) : (s.tempsRead temps).cell = s.cell := by first | rfl | (simp only [State.tempsRead]; split <;> rfl)
@[simp] theorem State.tempsRead_loc (temps : List (Region × Int)) : (s.tempsRead temps).loc = s.loc := by first | rfl | (simp only [State.tempsRead]; split <;> rfl)
@[simp] theorem State.tempsRead_mem (temps : List (Region × Int)) : (s.tempsRead temps).mem = s.mem := by first | rfl | (simp only [State.tempsRead]; split <;> rfl)
@[simp] theorem State.tempsRead_ray (temps : List (Region × Int)) : (s.tempsRead temps).ray = s.ray := by first | rfl | (simp only [State.tempsRead]; split <;> rfl)
@[simp] theorem State.tempsRead_host (temps : List (Region × Int)) : (s.tempsRead temps).host = s.host := by first | rfl | (simp only [State.tempsRead]; split <;> rfl)
@[simp] theorem State.tempsRead_cfg (temps : List (Region × Int)) : (s.tempsRead temps).cfg = s.cfg := by first | rfl | (simp only [State.tempsRead]; split <;> rfl)
@[simp] theorem State.tempsRead_sec (temps : List (Region × Int)) : (s.tempsRead temps).sec = s.sec := by first | rfl | (simp only [State.tempsRead]; split <;> rfl)
@[simp] theorem State.tempsRead_mgt (temps : List (Region × Int)) : (s.tempsRead temps).mgt = s.mgt := by first | rfl | (simp only [State.tempsRead]; split <;> rfl)
@[simp] theorem State.tempsRead_pin (temps : List (Region × Int)) : (s.tempsRead temps).pin = s.pin := by first | rfl | (simp only [State.tempsRead]; split <;> rfl)
@[simp] theorem State.tempsRead_tst (temps : List (Region × Int)) : (s.tempsRead temps).tst = s.tst := by first | rfl | (simp only [State.tempsRead]; split <;> rfl)

/-! ### `State.losses` -/

@[simp] theorem State.rd_losses (loss : List Nat) : (s.losses loss).rd i j = s.rd i j := by first | rfl | (simp only [State.losses]; split <;> rfl)
@[simp] theorem State.losses_pending (loss : List Nat) : (s.losses loss).pending = s.pending := by first | rfl | (simp only [State.losses]; split <;> rfl)
@[simp] theorem State.losses_od (loss : List Nat) : (s.losses loss).od = s.od := by first | rfl | (simp only [State.losses]; split <;> rfl)
@[simp] theorem State.losses_out (loss : List Nat) : (s.losses loss).out = s.out := by first | rfl | (simp only [State.losses]; split <;> rfl)
@[simp] theorem State.losses_dev (loss : List Nat) : (s.losses loss).dev = s.dev := by first | rfl | (simp only [State.losses]; split <;> rfl)
@[simp] theorem State.losses_fab (loss : List Nat) : (s.losses loss).fab = s.fab := by first | rfl | (simp only [State.losses]; split <;> rfl)
@[simp] theorem State.losses_cell (loss : List Nat) : (s.losses loss).cell = s.cell := by first | rfl | (simp only [State.losses]; split <;> rfl)
@[simp] theorem State.losses_loc (loss : List Nat) : (s.losses loss).loc = s.loc := by first | rfl | (simp only [State.losses]; split <;> rfl)
@[simp] theorem State.losses_mem (loss : List Nat) : (s.losses loss).mem = s.mem := by first | rfl | (simp only [State.losses]; split <;> rfl)
@[simp] theorem State.losses_ray (loss : List Nat) : (s.losses loss).ray = s.ray := by first | rfl | (simp only [State.losses]; split <;> rfl)
@[simp] theorem State.losses_host (loss : List Nat) : (s.losses loss).host = s.host := by first | rfl | (simp only [State.losses]; split <;> rfl)
@[simp] theorem State.losses_cfg (loss : List Nat) : (s.losses loss).cfg = s.cfg := by first | rfl | (simp only [State.losses]; split <;> rfl)
@[simp] theorem State.losses_sec (loss : List Nat) : (s.losses loss).sec = s.sec := by first | rfl | (simp only [State.losses]; split <;> rfl)
@[simp] theorem State.losses_mgt (loss : List Nat) : (s.losses loss).mgt = s.mgt := by first | rfl | (simp only [State.losses]; split <;> rfl)
@[simp] theorem State.losses_pin (loss : List Nat) : (s.losses loss).pin = s.pin := by first | rfl | (simp only [State.losses]; split <;> rfl)
@[simp] theorem State.losses_tst (loss : List Nat) : (s.losses loss).tst = s.tst := by first | rfl | (simp only [State.losses]; split <;> rfl)

/-! ### `State.meterFold` -/

@[simp] theorem State.rd_meterFold : (s.meterFold).rd i j = s.rd i j := by first | rfl | (simp only [State.meterFold]; split <;> rfl)
@[simp] theorem State.meterFold_pending : (s.meterFold).pending = s.pending := by first | rfl | (simp only [State.meterFold]; split <;> rfl)
@[simp] theorem State.meterFold_od : (s.meterFold).od = s.od := by first | rfl | (simp only [State.meterFold]; split <;> rfl)
@[simp] theorem State.meterFold_out : (s.meterFold).out = s.out := by first | rfl | (simp only [State.meterFold]; split <;> rfl)
@[simp] theorem State.meterFold_dev : (s.meterFold).dev = s.dev := by first | rfl | (simp only [State.meterFold]; split <;> rfl)
@[simp] theorem State.meterFold_cell : (s.meterFold).cell = s.cell := by first | rfl | (simp only [State.meterFold]; split <;> rfl)
@[simp] theorem State.meterFold_ray : (s.meterFold).ray = s.ray := by first | rfl | (simp only [State.meterFold]; split <;> rfl)
@[simp] theorem State.meterFold_cfg : (s.meterFold).cfg = s.cfg := by first | rfl | (simp only [State.meterFold]; split <;> rfl)
@[simp] theorem State.meterFold_sec : (s.meterFold).sec = s.sec := by first | rfl | (simp only [State.meterFold]; split <;> rfl)
@[simp] theorem State.meterFold_mgt : (s.meterFold).mgt = s.mgt := by first | rfl | (simp only [State.meterFold]; split <;> rfl)
@[simp] theorem State.meterFold_tst : (s.meterFold).tst = s.tst := by first | rfl | (simp only [State.meterFold]; split <;> rfl)

/-! ### `State.answer` -/

@[simp] theorem State.rd_answer (abort : Nat) (data : List Byte) : (s.answer abort data).rd i j = s.rd i j := by first | rfl | (simp only [State.answer]; split <;> rfl)
@[simp] theorem State.answer_pending (abort : Nat) (data : List Byte) : (s.answer abort data).pending = s.pending := by first | rfl | (simp only [State.answer]; split <;> rfl)
@[simp] theorem State.answer_od (abort : Nat) (data : List Byte) : (s.answer abort data).od = s.od := by first | rfl | (simp only [State.answer]; split <;> rfl)
@[simp] theorem State.answer_out (abort : Nat) (data : List Byte) : (s.answer abort data).out = s.out := by first | rfl | (simp only [State.answer]; split <;> rfl)
@[simp] theorem State.answer_dev (abort : Nat) (data : List Byte) : (s.answer abort data).dev = s.dev := by first | rfl | (simp only [State.answer]; split <;> rfl)
@[simp] theorem State.answer_fab (abort : Nat) (data : List Byte) : (s.answer abort data).fab = s.fab := by first | rfl | (simp only [State.answer]; split <;> rfl)
@[simp] theorem State.answer_cell (abort : Nat) (data : List Byte) : (s.answer abort data).cell = s.cell := by first | rfl | (simp only [State.answer]; split <;> rfl)
@[simp] theorem State.answer_loc (abort : Nat) (data : List Byte) : (s.answer abort data).loc = s.loc := by first | rfl | (simp only [State.answer]; split <;> rfl)
@[simp] theorem State.answer_mem (abort : Nat) (data : List Byte) : (s.answer abort data).mem = s.mem := by first | rfl | (simp only [State.answer]; split <;> rfl)
@[simp] theorem State.answer_ray (abort : Nat) (data : List Byte) : (s.answer abort data).ray = s.ray := by first | rfl | (simp only [State.answer]; split <;> rfl)
@[simp] theorem State.answer_host (abort : Nat) (data : List Byte) : (s.answer abort data).host = s.host := by first | rfl | (simp only [State.answer]; split <;> rfl)
@[simp] theorem State.answer_led (abort : Nat) (data : List Byte) : (s.answer abort data).led = s.led := by first | rfl | (simp only [State.answer]; split <;> rfl)
@[simp] theorem State.answer_cfg (abort : Nat) (data : List Byte) : (s.answer abort data).cfg = s.cfg := by first | rfl | (simp only [State.answer]; split <;> rfl)
@[simp] theorem State.answer_sec (abort : Nat) (data : List Byte) : (s.answer abort data).sec = s.sec := by first | rfl | (simp only [State.answer]; split <;> rfl)
@[simp] theorem State.answer_pin (abort : Nat) (data : List Byte) : (s.answer abort data).pin = s.pin := by first | rfl | (simp only [State.answer]; split <;> rfl)
@[simp] theorem State.answer_tst (abort : Nat) (data : List Byte) : (s.answer abort data).tst = s.tst := by first | rfl | (simp only [State.answer]; split <;> rfl)

/-! ### `State.kmSend` -/

@[simp] theorem State.rd_kmSend (f : KFrame) : (s.kmSend f).rd i j = s.rd i j := by first | rfl | (simp only [State.kmSend]; split <;> rfl)
@[simp] theorem State.kmSend_pending (f : KFrame) : (s.kmSend f).pending = s.pending := by first | rfl | (simp only [State.kmSend]; split <;> rfl)
@[simp] theorem State.kmSend_od (f : KFrame) : (s.kmSend f).od = s.od := by first | rfl | (simp only [State.kmSend]; split <;> rfl)
@[simp] theorem State.kmSend_out (f : KFrame) : (s.kmSend f).out = s.out := by first | rfl | (simp only [State.kmSend]; split <;> rfl)
@[simp] theorem State.kmSend_dev (f : KFrame) : (s.kmSend f).dev = s.dev := by first | rfl | (simp only [State.kmSend]; split <;> rfl)
@[simp] theorem State.kmSend_fab (f : KFrame) : (s.kmSend f).fab = s.fab := by first | rfl | (simp only [State.kmSend]; split <;> rfl)
@[simp] theorem State.kmSend_cell (f : KFrame) : (s.kmSend f).cell = s.cell := by first | rfl | (simp only [State.kmSend]; split <;> rfl)
@[simp] theorem State.kmSend_loc (f : KFrame) : (s.kmSend f).loc = s.loc := by first | rfl | (simp only [State.kmSend]; split <;> rfl)
@[simp] theorem State.kmSend_mem (f : KFrame) : (s.kmSend f).mem = s.mem := by first | rfl | (simp only [State.kmSend]; split <;> rfl)
@[simp] theorem State.kmSend_ray (f : KFrame) : (s.kmSend f).ray = s.ray := by first | rfl | (simp only [State.kmSend]; split <;> rfl)
@[simp] theorem State.kmSend_host (f : KFrame) : (s.kmSend f).host = s.host := by first | rfl | (simp only [State.kmSend]; split <;> rfl)
@[simp] theorem State.kmSend_led (f : KFrame) : (s.kmSend f).led = s.led := by first | rfl | (simp only [State.kmSend]; split <;> rfl)
@[simp] theorem State.kmSend_cfg (f : KFrame) : (s.kmSend f).cfg = s.cfg := by first | rfl | (simp only [State.kmSend]; split <;> rfl)
@[simp] theorem State.kmSend_sec (f : KFrame) : (s.kmSend f).sec = s.sec := by first | rfl | (simp only [State.kmSend]; split <;> rfl)
@[simp] theorem State.kmSend_pin (f : KFrame) : (s.kmSend f).pin = s.pin := by first | rfl | (simp only [State.kmSend]; split <;> rfl)
@[simp] theorem State.kmSend_tst (f : KFrame) : (s.kmSend f).tst = s.tst := by first | rfl | (simp only [State.kmSend]; split <;> rfl)

end Sys2Proof.Machine
end

