-- ==== Sys2Proof/Laws/Events.lean ====
section
/-! SUPPORT. Laws of raising events: the log grows, at its front, by the event and by the overflow events it causes. -/

namespace Sys2Proof.Machine

/-- One log is another with events put before it. -/
def logGrows (a b : List EventRec) : Prop := ∃ l, b = l ++ a

theorem logGrows.refl (a : List EventRec) : logGrows a a := ⟨[], rfl⟩
theorem logGrows.trans {a b c : List EventRec} (h : logGrows a b) (k : logGrows b c) : logGrows a c := by
  obtain ⟨l, rfl⟩ := h; obtain ⟨m, rfl⟩ := k; exact ⟨m ++ l, by simp⟩

@[simp] theorem OutSt.setRing_log (o : OutSt) (r : Nat) (x : RingSt) : (o.setRing r x).log = o.log := rfl
@[simp] theorem OutSt.interrupt_log (o : OutSt) (f v : Nat) : (o.interrupt f v).log = o.log := by
  unfold OutSt.interrupt; split <;> rfl
@[simp] theorem OutSt.signal_log (o : OutSt) (r f : Nat) : (o.signal r f).log = o.log := by simp [OutSt.signal]

@[simp] theorem OutSt.ringWrite_log (o : OutSt) (r f now link : Nat) (e : EventRec) : (o.ringWrite r f now link e).1.log = o.log := by
  simp only [OutSt.ringWrite]
  split <;> split <;> (try split) <;> simp

@[simp] theorem OutSt.kimbeEvent_log (o : OutSt) (e : EventRec) : (o.kimbeEvent e).log = o.log := by
  simp only [OutSt.kimbeEvent]; split <;> rfl

@[simp] theorem State.toRings_log (s : State) (owner : Nat) (e : EventRec) (l : List Nat) :
    ∀ o : OutSt, (s.toRings owner e l o).1.log = o.log := by
  induction l with
  | nil => intro o; rfl
  | cons r l ih =>
    intro o; simp only [State.toRings]; split
    · simp [ih]
    · exact ih o

theorem State.overflows_log (s : State) (k : Nat) : ∀ (l : List Nat) (o : OutSt), logGrows o.log (s.overflows k l o).log := by
  induction k with
  | zero => intro l o; exact .refl _
  | succ k ih =>
    intro l o
    cases l with
    | nil => exact .refl _
    | cons r l =>
      simp only [State.overflows]
      refine .trans ?_ (ih _ _)
      split <;> exact ⟨[_], by simp [State.mkEvent]; rfl⟩

/-- Raising an event puts it, and nothing that was not raised, before the log. -/
theorem State.raise_log (s : State) (code cls sev idx : Nat) (pay : List (Nat × Nat × Nat)) :
    ∃ l e, (s.raise code cls sev idx pay).out.log = l ++ e :: s.out.log ∧ e.code = code ∧ e.cls = cls ∧ e.sev = sev ∧ e.idx = idx
      ∧ e.time = s.now ∧ e.payload = payload pay := by
  let e : EventRec := { code := code, cls := cls, sev := sev, idx := idx, time := s.now, seq := s.out.seq, payload := payload pay }
  suffices h : logGrows (e :: s.out.log) (s.raise code cls sev idx pay).out.log by
    obtain ⟨l, h⟩ := h
    exact ⟨l, e, h, rfl, rfl, rfl, rfl, rfl, rfl⟩
  have h : ∀ (k : Nat) (l : List Nat) (o : OutSt), o.log = e :: s.out.log → logGrows (e :: s.out.log) (s.overflows k l o).log := by
    intro k l o h; rw [← h]; exact s.overflows_log k l o
  apply h
  split <;> simp [e]

/-- Raising an event is one of the growths of `Raises`. -/
theorem State.raises_raise (s : State) (code cls sev idx : Nat) (pay : List (Nat × Nat × Nat)) :
    Raises s (s.raise code cls sev idx pay) code cls sev idx := by
  obtain ⟨l, e, h, h1, h2, h3, h4, -⟩ := s.raise_log code cls sev idx pay
  exact ⟨l ++ [e], e, by simp [h], by simp, h1, h2, h3, h4⟩

/-- The same from any state whose log is that before. -/
theorem State.raises_of {s t : State} (h : t.out.log = s.out.log) (code cls sev idx : Nat) (pay : List (Nat × Nat × Nat)) :
    Raises s (t.raise code cls sev idx pay) code cls sev idx := by
  have := t.raises_raise code cls sev idx pay
  simpa [Raises, h] using this

theorem State.raise_grows (s : State) (code cls sev idx : Nat) (pay : List (Nat × Nat × Nat)) :
    logGrows s.out.log (s.raise code cls sev idx pay).out.log := by
  obtain ⟨l, e, h, -⟩ := s.raise_log code cls sev idx pay
  exact ⟨l ++ [e], by simp [h]⟩

end Sys2Proof.Machine

namespace Sys2Proof
open Machine

/-- An event raised stays raised while the log grows; the log before may be that of any state with the same log. -/
theorem Raises.mono {s s' t t' : State} {code cls sev idx : Nat} (h : Raises s t code cls sev idx) (a : logGrows s'.out.log s.out.log)
    (b : logGrows t.out.log t'.out.log) : Raises s' t' code cls sev idx := by
  obtain ⟨l, e, h, he, r⟩ := h; obtain ⟨m, hm⟩ := a; obtain ⟨k, hk⟩ := b
  exact ⟨k ++ (l ++ m), e, by simp [hk, h, hm], by simp [he], r⟩

end Sys2Proof
end

