-- ==== Sys2Proof/Laws/Fabric.lean ====
section
/-! SUPPORT. Laws of the fabric: what settling the acknowledges leaves as it was. -/

namespace Sys2Proof.Machine

/-- A view of the fabric that every step of a pass keeps is kept by the pass. -/
theorem FabSt.each_keeps {α β : Type} (p : FabSt → β) (g : FabSt → α → FabSt) (h : ∀ f a, p (g f a) = p f) (l : List α) :
    ∀ f : FabSt, p (f.each g l) = p f := by
  induction l with
  | nil => intro f; rfl
  | cons a l ih => intro f; simp [FabSt.each, ih, h]

/-- Settling keeps any view of the fabric that its two kinds of step keep. -/
theorem FabSt.settle_keeps {β : Type} (p : FabSt → β) (h1 : ∀ f k, p (f.settleAck k) = p f) (h2 : ∀ f b, p (f.settleSrc b) = p f) (k : Nat) :
    ∀ f : FabSt, p (FabSt.settle k f) = p f := by
  induction k with
  | zero => intro f; rfl
  | succ k ih => intro f; simp only [FabSt.settle, ih, FabSt.each_keeps p _ h2, FabSt.each_keeps p _ h1]

@[simp] theorem FabSt.count_gsr (f : FabSt) (n c k : Nat) : (f.count n c k).gsr = f.gsr := rfl
@[simp] theorem FabSt.count_lus (f : FabSt) (n c k : Nat) : (f.count n c k).lus = f.lus := rfl
@[simp] theorem FabSt.count_acks (f : FabSt) (n c k : Nat) : (f.count n c k).acks = f.acks := rfl
@[simp] theorem FabSt.count_gAck (f : FabSt) (n c k : Nat) : (f.count n c k).gAck = f.gAck := rfl
@[simp] theorem FabSt.count_chordOut (f : FabSt) (n c k : Nat) : (f.count n c k).chordOut = f.chordOut := rfl
@[simp] theorem FabSt.count_gatherSide (f : FabSt) (n c k : Nat) : (f.count n c k).gatherSide = f.gatherSide := rfl
@[simp] theorem FabSt.count_wordSel (f : FabSt) (n c k : Nat) : (f.count n c k).wordSel = f.wordSel := rfl
@[simp] theorem FabSt.count_spanBitIn (f : FabSt) (n c k : Nat) : (f.count n c k).spanBitIn = f.spanBitIn := rfl
@[simp] theorem FabSt.count_spanBitSite (f : FabSt) (n c k : Nat) : (f.count n c k).spanBitSite = f.spanBitSite := rfl
@[simp] theorem FabSt.count_spanWordIn (f : FabSt) (n c k : Nat) : (f.count n c k).spanWordIn = f.spanWordIn := rfl
@[simp] theorem FabSt.count_spanWordArc (f : FabSt) (n c k : Nat) : (f.count n c k).spanWordArc = f.spanWordArc := rfl
@[simp] theorem FabSt.count_spanWordSite (f : FabSt) (n c k : Nat) : (f.count n c k).spanWordSite = f.spanWordSite := rfl
@[simp] theorem FabSt.count_arcTx (f : FabSt) (n c k : Nat) : (f.count n c k).arcTx = f.arcTx := rfl
@[simp] theorem FabSt.count_arcRx (f : FabSt) (n c k : Nat) : (f.count n c k).arcRx = f.arcRx := rfl
@[simp] theorem FabSt.count_bis (f : FabSt) (n c k : Nat) : (f.count n c k).bis = f.bis := rfl
@[simp] theorem FabSt.count_prisms (f : FabSt) (n c k : Nat) : (f.count n c k).prisms = f.prisms := rfl
@[simp] theorem FabSt.count_pools (f : FabSt) (n c k : Nat) : (f.count n c k).pools = f.pools := rfl
@[simp] theorem FabSt.count_taken (f : FabSt) (n c k : Nat) : (f.count n c k).taken = f.taken := rfl
@[simp] theorem FabSt.count_fences (f : FabSt) (n c k : Nat) : (f.count n c k).fences = f.fences := rfl
@[simp] theorem FabSt.count_pace (f : FabSt) (n c k : Nat) : (f.count n c k).pace = f.pace := rfl
@[simp] theorem FabSt.count_siteOut (f : FabSt) (n c k : Nat) : (f.count n c k).siteOut = f.siteOut := rfl
@[simp] theorem FabSt.count_siteBit (f : FabSt) (n c k : Nat) : (f.count n c k).siteBit = f.siteBit := rfl
@[simp] theorem FabSt.count_streams (f : FabSt) (n c k : Nat) : (f.count n c k).streams = f.streams := rfl
@[simp] theorem FabSt.count_marginPasses (f : FabSt) (n c k : Nat) : (f.count n c k).marginPasses = f.marginPasses := rfl
@[simp] theorem FabSt.count_lu (f : FabSt) (n c k i : Nat) : (f.count n c k).lu i = f.lu i := rfl
@[simp] theorem FabSt.count_prism (f : FabSt) (n c k i : Nat) : (f.count n c k).prism i = f.prism i := rfl
@[simp] theorem FabSt.count_pool (f : FabSt) (n c k i : Nat) : (f.count n c k).pool i = f.pool i := rfl
@[simp] theorem FabSt.count_fence (f : FabSt) (n c k i : Nat) : (f.count n c k).fence i = f.fence i := rfl
@[simp] theorem FabSt.count_bisCh (f : FabSt) (n c k i : Nat) : (f.count n c k).bisCh i = f.bisCh i := rfl
@[simp] theorem FabSt.count_ack (f : FabSt) (n c k : Nat) (b : BSrc) : (f.count n c k).ack b = f.ack b := rfl

/-- The parts of the fabric that a settling of acknowledges never touches. -/
def FabSt.still (f : FabSt) : FabSt :=
  { f with acks := ⟨[]⟩, gAck := ⟨[]⟩, prisms := ⟨[]⟩, pools := ⟨[]⟩, siteBit := ⟨[]⟩, meter := ⟨[]⟩, lus := ⟨[]⟩ }

@[simp] theorem FabSt.setLu_still (f : FabSt) (u : Nat) (x : LuSt) : (f.setLu u x).still = f.still := rfl
@[simp] theorem FabSt.count_still (f : FabSt) (n c k : Nat) : (f.count n c k).still = f.still := rfl

/-- Bringing a gather's or site input's acknowledge up to date writes that acknowledge alone. -/
theorem FabSt.settleAck_keeps {β : Type} (p : FabSt → β) (h : ∀ (g : FabSt) a, p { g with gAck := a } = p g) (f : FabSt) (k : Nat) :
    p (f.settleAck k) = p f := by
  simp only [FabSt.settleAck]
  generalize (ite (k < 2 ^ 20) _ _ : Bool) = b
  cases b
  · rfl
  · exact h f _

theorem FabSt.settleAck_still (f : FabSt) (k : Nat) : (f.settleAck k).still = f.still :=
  FabSt.settleAck_keeps FabSt.still (fun _ _ => rfl) f k

theorem FabSt.withdraw_still (f : FabSt) (b : BSrc) : (f.withdraw b).still = f.still := by cases b <;> rfl

theorem FabSt.settleSrc_still (f : FabSt) (b : BSrc) : (f.settleSrc b).still = f.still := by
  simp only [FabSt.settleSrc]
  have h : ∀ (c : Bool) (g : FabSt), (if c then g.count b.region 4 1 else g).still = g.still := by intro c g; cases c <;> rfl
  split
  · rw [FabSt.withdraw_still, h]; rfl
  · rw [h]; rfl

theorem FabSt.settleJoin_still (f : FabSt) (u : Nat) : (f.settleJoin u).still = f.still := by
  simp only [FabSt.settleJoin]; split
  · split <;> simp
  · rfl

/-- Settling changes acknowledges, joined requests, flag, status and site bit tokens and the meters alone. -/
theorem FabSt.settled_still (f : FabSt) : f.settled.still = f.still := by
  simp only [FabSt.settled, FabSt.each_keeps FabSt.still _ FabSt.settleJoin_still]
  exact FabSt.settle_keeps FabSt.still FabSt.settleAck_still FabSt.settleSrc_still 4 f

/-- A view of the fabric that reads only those other parts is the same after a settling. -/
theorem FabSt.settled_view {β : Type} (f : FabSt) (p : FabSt → β) (h : ∀ g : FabSt, p g.still = p g) : p f.settled = p f := by
  rw [← h f.settled, FabSt.settled_still, h]

@[simp] theorem FabSt.settled_gsr (f : FabSt) : f.settled.gsr = f.gsr := f.settled_view FabSt.gsr (fun _ => rfl)
@[simp] theorem FabSt.settled_chordOut (f : FabSt) : f.settled.chordOut = f.chordOut := f.settled_view FabSt.chordOut (fun _ => rfl)
@[simp] theorem FabSt.settled_gatherSide (f : FabSt) : f.settled.gatherSide = f.gatherSide := f.settled_view FabSt.gatherSide (fun _ => rfl)
@[simp] theorem FabSt.settled_wordSel (f : FabSt) : f.settled.wordSel = f.wordSel := f.settled_view FabSt.wordSel (fun _ => rfl)
@[simp] theorem FabSt.settled_spanBitIn (f : FabSt) : f.settled.spanBitIn = f.spanBitIn := f.settled_view FabSt.spanBitIn (fun _ => rfl)
@[simp] theorem FabSt.settled_spanBitSite (f : FabSt) : f.settled.spanBitSite = f.spanBitSite := f.settled_view FabSt.spanBitSite (fun _ => rfl)
@[simp] theorem FabSt.settled_spanWordIn (f : FabSt) : f.settled.spanWordIn = f.spanWordIn := f.settled_view FabSt.spanWordIn (fun _ => rfl)
@[simp] theorem FabSt.settled_spanWordArc (f : FabSt) : f.settled.spanWordArc = f.spanWordArc := f.settled_view FabSt.spanWordArc (fun _ => rfl)
@[simp] theorem FabSt.settled_spanWordSite (f : FabSt) : f.settled.spanWordSite = f.spanWordSite := f.settled_view FabSt.spanWordSite (fun _ => rfl)
@[simp] theorem FabSt.settled_arcTx (f : FabSt) : f.settled.arcTx = f.arcTx := f.settled_view FabSt.arcTx (fun _ => rfl)
@[simp] theorem FabSt.settled_arcRx (f : FabSt) : f.settled.arcRx = f.arcRx := f.settled_view FabSt.arcRx (fun _ => rfl)
@[simp] theorem FabSt.settled_bis (f : FabSt) : f.settled.bis = f.bis := f.settled_view FabSt.bis (fun _ => rfl)
@[simp] theorem FabSt.settled_taken (f : FabSt) : f.settled.taken = f.taken := f.settled_view FabSt.taken (fun _ => rfl)
@[simp] theorem FabSt.settled_fences (f : FabSt) : f.settled.fences = f.fences := f.settled_view FabSt.fences (fun _ => rfl)
@[simp] theorem FabSt.settled_pace (f : FabSt) : f.settled.pace = f.pace := f.settled_view FabSt.pace (fun _ => rfl)
@[simp] theorem FabSt.settled_siteOut (f : FabSt) : f.settled.siteOut = f.siteOut := f.settled_view FabSt.siteOut (fun _ => rfl)
@[simp] theorem FabSt.settled_streams (f : FabSt) : f.settled.streams = f.streams := f.settled_view FabSt.streams (fun _ => rfl)
@[simp] theorem FabSt.settled_marginPasses (f : FabSt) : f.settled.marginPasses = f.marginPasses := f.settled_view FabSt.marginPasses (fun _ => rfl)

/-- Passes over the acknowledges leave every LU as it was. -/
theorem FabSt.settle_lus (n : Nat) (f : FabSt) : (FabSt.settle n f).lus = f.lus :=
  FabSt.settle_keeps FabSt.lus (FabSt.settleAck_keeps FabSt.lus (fun _ _ => rfl))
    (by
      intro g b
      have h1 : ∀ g : FabSt, (g.withdraw b).lus = g.lus := by intro g; cases b <;> rfl
      have h2 : ∀ (c : Bool) (g : FabSt), (if c then g.count b.region 4 1 else g).lus = g.lus := by intro c g; cases c <;> rfl
      simp only [FabSt.settleSrc]; split
      · rw [h1, h2]
      · rw [h2]) n f

/-- All that settling does to an LU: a joined request falls, and its matched delay with it (R50). -/
theorem FabSt.settled_falls (f : FabSt) (u : Nat) :
    f.settled.lu u = f.lu u ∨ f.settled.lu u = { f.lu u with joined := false, delay := false } := by
  have k : ∀ (l : List Nat) (g : FabSt),
      (g.each FabSt.settleJoin l).lu u = g.lu u ∨ (g.each FabSt.settleJoin l).lu u = { g.lu u with joined := false, delay := false } := by
    intro l
    induction l with
    | nil => intro g; exact .inl rfl
    | cons v l ih =>
      intro g
      have hj : (g.settleJoin v).lu u = g.lu u ∨ (g.settleJoin v).lu u = { g.lu u with joined := false, delay := false } := by
        simp only [FabSt.settleJoin]; split
        · split
          · simp only [FabSt.lu, FabSt.setLu, SMap.get_put]; split
            · rename_i h; subst h; exact .inr rfl
            · exact .inl rfl
          · exact .inl rfl
        · exact .inl rfl
      simp only [FabSt.each]
      rcases ih (g.settleJoin v) with h | h <;> rcases hj with h' | h' <;> rw [h, h']
      · exact .inl rfl
      · exact .inr rfl
      · exact .inr rfl
      · exact .inr rfl
  have h := k ((FabSt.settle 4 f).lus.keysWhere (fun _ x => x.joined)) (FabSt.settle 4 f)
  have h0 : (FabSt.settle 4 f).lu u = f.lu u := by simp only [FabSt.lu, FabSt.settle_lus]
  rw [h0] at h; exact h

/-- What is read of an LU apart from its joined request and matched delay is the same after a settling. -/
theorem FabSt.settled_lu_view {β : Type} (f : FabSt) (u : Nat) (p : LuSt → β)
    (h : ∀ x : LuSt, p { x with joined := false, delay := false } = p x) : p (f.settled.lu u) = p (f.lu u) := by
  rcases f.settled_falls u with e | e <;> rw [e]
  exact h _

/-- Settling raises no joined request: one that stands after it stood before. -/
theorem FabSt.settled_joined_of (f : FabSt) (u : Nat) (h : (f.lu u).joined = false) : (f.settled.lu u).joined = false := by
  rcases f.settled_falls u with e | e <;> rw [e]
  exact h

@[simp] theorem FabSt.settled_fence (f : FabSt) (n : Nat) : f.settled.fence n = f.fence n := by simp [FabSt.fence]

/-- A Prism and a Pool but for their flag and status tokens. -/
def FabSt.inner (f : FabSt) (k : Nat) : PrismSt × PoolSt := ({ f.prism k with flags := [] }, { f.pool k with status := [] })

theorem FabSt.prism_setPrism (f : FabSt) (j k : Nat) (x : PrismSt) : (f.setPrism j x).prism k = if k = j then x else f.prism k := by
  simp only [FabSt.prism, FabSt.setPrism, SMap.get_put]
theorem FabSt.pool_setPool (f : FabSt) (j k : Nat) (x : PoolSt) : (f.setPool j x).pool k = if k = j then x else f.pool k := by
  simp only [FabSt.pool, FabSt.setPool, SMap.get_put]
@[simp] theorem FabSt.pool_setPrism (f : FabSt) (j k : Nat) (x : PrismSt) : (f.setPrism j x).pool k = f.pool k := rfl
@[simp] theorem FabSt.prism_setPool (f : FabSt) (j k : Nat) (x : PoolSt) : (f.setPool j x).prism k = f.prism k := rfl
@[simp] theorem FabSt.prism_setPrism_same (f : FabSt) (k : Nat) (x : PrismSt) : (f.setPrism k x).prism k = x := by
  simp [FabSt.prism_setPrism]
@[simp] theorem FabSt.pool_setPool_same (f : FabSt) (k : Nat) (x : PoolSt) : (f.setPool k x).pool k = x := by
  simp [FabSt.pool_setPool]

/-- A token withdrawn is a flag, status or site bit token: nothing else of a Prism or Pool changes (R83). -/
theorem FabSt.withdraw_inner (f : FabSt) (b : BSrc) (k : Nat) : (f.withdraw b).inner k = f.inner k := by
  cases b with
  | lu u => rfl
  | flag c j => simp only [FabSt.withdraw, FabSt.inner, FabSt.prism_setPrism, FabSt.pool_setPrism]; split <;> simp_all
  | stat c j => simp only [FabSt.withdraw, FabSt.inner, FabSt.pool_setPool, FabSt.prism_setPool]; split <;> simp_all
  | site n j => rfl

/-- Settling changes flag and status tokens of Prisms and Pools alone. -/
theorem FabSt.settled_inner (f : FabSt) (k : Nat) : f.settled.inner k = f.inner k := by
  have hj : ∀ (g : FabSt) (v : Nat), (g.settleJoin v).inner k = g.inner k := by
    intro g v; simp only [FabSt.settleJoin]; split
    · split <;> rfl
    · rfl
  simp only [FabSt.settled, FabSt.each_keeps (fun g => g.inner k) _ hj]
  refine FabSt.settle_keeps (fun g => g.inner k) ?_ ?_ 4 f
  · exact FabSt.settleAck_keeps (fun g => g.inner k) (fun _ _ => rfl)
  · intro g b
    simp only [FabSt.settleSrc]
    have h : ∀ c : Bool, ∀ g2 : FabSt, (if c then g2.count b.region 4 1 else g2).inner k = g2.inner k := by
      intro c g2; cases c <;> rfl
    split
    · rw [FabSt.withdraw_inner]; exact h _ _
    · exact h _ _

/-- What is read of a Prism apart from its flags is the same after a settling. -/
theorem FabSt.settled_prism_view {β : Type} (f : FabSt) (k : Nat) (p : PrismSt → β) (h : ∀ x : PrismSt, p { x with flags := [] } = p x) :
    p (f.settled.prism k) = p (f.prism k) := by
  rw [← h (f.settled.prism k), ← h (f.prism k)]
  exact congrArg (fun q => p q.1) (f.settled_inner k)

/-- What is read of a Pool apart from its status tokens is the same after a settling. -/
theorem FabSt.settled_pool_view {β : Type} (f : FabSt) (k : Nat) (p : PoolSt → β) (h : ∀ x : PoolSt, p { x with status := [] } = p x) :
    p (f.settled.pool k) = p (f.pool k) := by
  rw [← h (f.settled.pool k), ← h (f.pool k)]
  exact congrArg (fun q => p q.2) (f.settled_inner k)

/-- An LU after one is set. -/
theorem FabSt.lu_setLu (f : FabSt) (u v : Nat) (x : LuSt) : (f.setLu u x).lu v = if v = u then x else f.lu v := by
  simp only [FabSt.lu, FabSt.setLu, SMap.get_put]

@[simp] theorem FabSt.lu_setLu_same (f : FabSt) (u : Nat) (x : LuSt) : (f.setLu u x).lu u = x := by simp [FabSt.lu_setLu]
@[simp] theorem FabSt.lu_setLu_ne (f : FabSt) {u v : Nat} (x : LuSt) (h : v ≠ u) : (f.setLu u x).lu v = f.lu v := by
  simp [FabSt.lu_setLu, h]

/-- What is read of an LU, apart from its joined request and matched delay, after one is set and the acknowledges have settled. -/
theorem State.putLu_lu {β : Type} (s : State) (u v : Nat) (x : LuSt) (p : LuSt → β)
    (h : ∀ x : LuSt, p { x with joined := false, delay := false } = p x) :
    p ((s.putLu u x).fab.lu v) = if v = u then p x else p (s.fab.lu v) := by
  rw [State.putLu, FabSt.settled_lu_view _ _ p h, FabSt.lu_setLu]; split <;> rfl

@[simp] theorem State.putLu_cfg (s : State) (u v : Nat) (x : LuSt) :
    ((s.putLu u x).fab.lu v).cfg = if v = u then x.cfg else (s.fab.lu v).cfg := s.putLu_lu u v x LuSt.cfg (fun _ => rfl)
@[simp] theorem State.putLu_full (s : State) (u v : Nat) (x : LuSt) :
    ((s.putLu u x).fab.lu v).full = if v = u then x.full else (s.fab.lu v).full := s.putLu_lu u v x LuSt.full (fun _ => rfl)
@[simp] theorem State.putLu_oF (s : State) (u v : Nat) (x : LuSt) :
    ((s.putLu u x).fab.lu v).oF = if v = u then x.oF else (s.fab.lu v).oF := s.putLu_lu u v x LuSt.oF (fun _ => rfl)
@[simp] theorem State.putLu_oG (s : State) (u v : Nat) (x : LuSt) :
    ((s.putLu u x).fab.lu v).oG = if v = u then x.oG else (s.fab.lu v).oG := s.putLu_lu u v x LuSt.oG (fun _ => rfl)
@[simp] theorem State.putLu_codeRaised (s : State) (u v : Nat) (x : LuSt) :
    ((s.putLu u x).fab.lu v).codeRaised = if v = u then x.codeRaised else (s.fab.lu v).codeRaised := s.putLu_lu u v x LuSt.codeRaised (fun _ => rfl)
@[simp] theorem State.putLu_turn (s : State) (u v : Nat) (x : LuSt) :
    ((s.putLu u x).fab.lu v).turn = if v = u then x.turn else (s.fab.lu v).turn := s.putLu_lu u v x LuSt.turn (fun _ => rfl)

/-- An LU set without a joined request has none after the acknowledges have settled. -/
theorem State.putLu_joined (s : State) (u : Nat) (x : LuSt) (h : x.joined = false) : ((s.putLu u x).fab.lu u).joined = false := by
  simp only [State.putLu]
  exact FabSt.settled_joined_of (s.fab.setLu u x) u (by simpa using h)

/-- Setting an LU leaves the others as they were, but for joined requests that fall (R50). -/
theorem State.putLu_kept (s : State) (u : Nat) (x : LuSt) : LusKept s (s.putLu u x) u := by
  intro v hv
  have h := (s.fab.setLu u x).settled_falls v
  rw [FabSt.lu_setLu_ne _ _ hv] at h
  simp only [State.putLu]
  exact h

@[simp] theorem State.putLu_od (s : State) (u : Nat) (x : LuSt) : (s.putLu u x).od = s.od := by simp only [State.putLu]

@[simp] theorem State.countLu_lu (s : State) (u c v : Nat) : (s.countLu u c).fab.lu v = s.fab.lu v := rfl
@[simp] theorem State.countLu_od (s : State) (u c : Nat) : (s.countLu u c).od = s.od := rfl

/-- A region that has a token to draw draws it from its bucket, and nothing else changes (R352). -/
theorem State.paceTake_eq {s t : State} {n : Nat} (h : s.paceTake n = some t) : t = { s with fab := { s.fab with pace := t.fab.pace } } := by
  rw [State.paceTake] at h
  by_cases hr : s.rd (enObj n) 5 = 0
  · simp only [hr, if_pos] at h
    cases h; rfl
  · simp only [hr, if_false] at h
    by_cases hc : 10 ^ 9 ≤ min (max (10 ^ 9) (1000 * s.rd (enObj n) 5)) ((s.fab.pace.get (fun _ => (0, 0)) n).1 + s.rd (enObj n) 5 * (s.now - (s.fab.pace.get (fun _ => (0, 0)) n).2))
    · rw [if_pos hc] at h
      rw [← Option.some.inj h]
    · rw [if_neg hc] at h; cases h

end Sys2Proof.Machine
end

