-- ==== Sys2Proof/Laws/Meters.lean ====
section
/-! SUPPORT. Laws of the meters: what counting a column and pricing the meters leave as they were. -/

namespace Sys2Proof.Machine

/-- A view of the state that an operation keeps is kept by its repetition. -/
theorem State.each_keeps {β : Type} (p : State → β) (f : State → Nat → State) (h : ∀ s n, p (f s n) = p s) (l : List Nat) :
    ∀ s : State, p (s.each f l) = p s := by
  induction l with
  | nil => intro s; rfl
  | cons n l ih => intro s; simp [State.each, ih, h]

/-- A view that counting and opening rows keep, and writes of objects and events too, is one that a column keeps. -/
theorem State.pcColumn_keeps {β : Type} (p : State → β) (hm : ∀ (s : State) a b, p { s with mem := { s.mem with pcs := a, meter := b } } = p s)
    (ho : ∀ (s : State) i j v, p (s.wr i j v) = p s) (s : State) (acct : Nat) (w : Bool) (a : Nat) : p (s.pcColumn acct w a) = p s := by
  have h1 : ∀ (s : State) c acct cls k, p (s.pcCount c acct cls k) = p s := fun s c acct cls k => hm s _ _
  have h2 : ∀ (s : State) c x, p (s.setPc c x) = p s := fun s c x => hm s _ _
  have h3 : ∀ (s : State) c, p (s.pcTouch c) = p s := by
    intro s c; simp only [State.pcTouch]; split
    · rw [ho, h2]
    · rw [h2]
  have h4 : ∀ (s : State) c acct bank row, p (s.openRow c acct bank row) = p s := by
    intro s c acct bank row; simp only [State.openRow]; split
    · split
      · rfl
      · rw [h1, h1, h2]
    · rw [h1, h2]
  simp only [State.pcColumn]; split
  · rfl
  · rw [h1, h4, h3]

/-- Words that a Host Port, spill or configuration port moves leave the contents of memory as they were (R262). -/
theorem State.pcWords_bytes (s : State) (acct port : Nat) (w : Bool) (ps : List Nat) : (s.pcWords acct port w ps).mem.bytes = s.mem.bytes := by
  have h : ∀ s : State, (s.each (fun t c => t.pcColumn acct w (32 * c)) (columnsOf ps)).mem.bytes = s.mem.bytes :=
    State.each_keeps (fun s => s.mem.bytes) _ (fun s c => State.pcColumn_keeps (fun s => s.mem.bytes) (fun _ _ _ => rfl) (fun _ _ _ _ => rfl) s _ _ _) _
  simp only [State.pcWords]; split
  · exact h s
  · rw [State.readCheck, State.each_keeps (fun s => s.mem.bytes), h]
    intro t q
    split
    · rfl
    · split
      · simp only [State.countCorrected]; repeat' split
        all_goals rfl
      · split <;> rfl

/-- Pricing the meters leaves memory's contents and its pseudo-channels as they were. -/
@[simp] theorem State.meterFold_bytes (s : State) : s.meterFold.mem.bytes = s.mem.bytes := rfl
@[simp] theorem State.meterFold_poison (s : State) : s.meterFold.mem.poison = s.mem.poison := rfl
@[simp] theorem State.meterFold_pcs (s : State) : s.meterFold.mem.pcs = s.mem.pcs := rfl
@[simp] theorem State.meterFold_queues (s : State) : s.meterFold.loc.queues = s.loc.queues := rfl
@[simp] theorem State.meterFold_lus (s : State) : s.meterFold.fab.lus = s.fab.lus := rfl
@[simp] theorem State.meterFold_hops (s : State) : s.meterFold.led.hops = s.led.hops := rfl

end Sys2Proof.Machine
end

