-- ==== Sys2Proof/Laws/Fence.lean ====
section
/-! SUPPORT. Laws of the fence controllers: what setting and clearing a reason bit leaves in the region records. -/

namespace Sys2Proof.Machine

/-- A region's STATE and its FENCED bit are all that a change of STATE writes (R78). -/
theorem State.rd_setRegState (s : State) (n st i j : Nat) (h1 : oa i j ≠ oa (regObj n) 2) (h2 : oa i j ≠ oa 0xC001 (1 + n / 32)) :
    (s.setRegState n st).rd i j = s.rd i j := by
  simp [State.setRegState, State.rd_wr, h1, h2]

@[simp] theorem State.rd_checkHold (s : State) (n i j : Nat) : (s.checkHold n).rd i j = s.rd i j := by
  simp only [State.checkHold]; split <;> rfl

/-- A region record's reasons are no STATE and no FENCED word. -/
theorem reason_ne (m n : Nat) (hm : m < 64) : oa (regObj n) 4 ≠ oa (regObj m) 2 ∧ oa (regObj n) 4 ≠ oa 0xC001 (1 + m / 32) := by
  simp only [oa, regObj]; omega

/-- Regions of a merged set are regions of the package (R77). -/
theorem State.mergedSet_lt (s : State) (ns : List Nat) {m : Nat} (h : m ∈ s.mergedSet ns) : m < 64 := by
  have := (List.mem_filter.1 h).1
  simpa [allRegions] using this

/-- Repeating an operation that keeps a view on every number of the list. -/
theorem State.each_keeps_mem {β : Type} (p : State → β) (f : State → Nat → State) (l : List Nat) (h : ∀ s n, n ∈ l → p (f s n) = p s) :
    ∀ s : State, p (s.each f l) = p s := by
  induction l with
  | nil => intro s; rfl
  | cons n l ih =>
    intro s
    rw [State.each, ih (fun s m hm => h s m (List.mem_cons_of_mem _ hm)), h s n List.mem_cons_self]

/-- Setting a reason bit on one region sets that bit of its FENCE_REASON and changes the reasons of no other (R72, R77). -/
theorem State.reasons_fenceSet (s : State) (n m bit : Nat) (force : Bool) :
    (s.fenceSet [n] bit force).reasons m = if m = n then setBit (s.reasons n) bit else s.reasons m := by
  unfold State.reasons State.fenceSet
  simp only
  rw [State.each_keeps (fun t => t.rd (regObj m) 4) _ (fun s k => State.rd_checkHold s k _ _)]
  rw [State.each_keeps_mem (fun t => t.rd (regObj m) 4)]
  · simp only [State.each, State.rd_wr, State.reasons, oa, regObj]
    by_cases h : m = n
    · simp [h]
    · simp [h, Nat.mul_comm] <;> omega
  · intro t k hk
    have hk : k < 64 := State.mergedSet_lt _ _ (List.mem_filter.1 hk).1
    rw [State.rd_setRegState _ _ _ _ _ (reason_ne k m hk).1 (reason_ne k m hk).2, State.rd_modFence]

end Sys2Proof.Machine
end

