-- ==== Sys2Proof/Laws/Loads.lean ====
section
/-! SUPPORT. Laws of a load's checks (R384): a configuration in which nothing is in use passes checks 8 and 9, and what a load does with a
container that carries no records keeps such a configuration. -/

namespace Sys2Proof.Machine

/-- The objects that say whether something is in use: a queue's STATE, a window's owner, a memory port's class, a lane's and a Ray port's
mode, a recovered clock's owner, the floors, a user site's configuration, a pin's FUNC and PULL, a bank's VCCIO_SEL, a loop's
source and an interrupt line's holder. -/
def quietKey (i j : Nat) : Prop :=
  (0xB100 ≤ i ∧ i < 0xB500 ∧ j = 2) ∨ (0x4200 ≤ i ∧ i < 0x4240 ∧ j = 1) ∨ (0x4100 ≤ i ∧ i < 0x4160 ∧ j = 3)
    ∨ (0x5810 ≤ i ∧ i < 0x5820 ∧ j = 3) ∨ (0x5840 ≤ i ∧ i < 0x5850 ∧ j = 1) ∨ (0x58C0 ≤ i ∧ i < 0x58C2 ∧ j = 1)
    ∨ (0x3100 ≤ i ∧ i < 0x3140 ∧ (j = 3 ∨ j = 4)) ∨ (0xA100 ≤ i ∧ i < 0xA180 ∧ j = 1)
    ∨ (0x6010 ≤ i ∧ i < 0x6038 ∧ (j = 2 ∨ j = 3)) ∨ (0x6008 ≤ i ∧ i < 0x600C ∧ j = 1) ∨ (0xA010 ≤ i ∧ i < 0xA029 ∧ j = 4)
    ∨ (0x6130 ≤ i ∧ i < 0x613A ∧ j = 2)

/-- Nothing is in use: each of those objects reads as its default. -/
def State.Quiet (s : State) : Prop := ∀ i j, quietKey i j → s.rd i j = odDefault (oa i j)

theorem quiet_queue : ∀ k < 1024, odDefault (oa (0xB100 + k) 2) = 0 := by decide +kernel
theorem quiet_regions : ∀ k < 64, odDefault (oa (0x4200 + k) 1) = 0xFF ∧ odDefault (oa (0x3100 + k) 3) = 0xFF
    ∧ odDefault (oa (0x3100 + k) 4) = 0 := by decide +kernel
theorem quiet_ports : ∀ k < 96, odDefault (oa (0x4100 + k) 3) = 0 := by decide +kernel
theorem quiet_lanes : ∀ k < 16, odDefault (oa (0x5810 + k) 3) = 0 ∧ odDefault (oa (0x5840 + k) 1) = 0
    ∧ odDefault (oa (0x58C0 + k / 8) 1) = 0xFF := by decide +kernel
theorem quiet_sites : ∀ k < 128, odDefault (oa (0xA100 + k) 1) = 0 := by decide +kernel
theorem quiet_pins : ∀ k < 40, odDefault (oa (0x6010 + k) 2) = 0 ∧ odDefault (oa (0x6010 + k) 3) % 4 ≠ 3
    ∧ odDefault (oa (0x6008 + k / 10) 1) = 0 := by decide +kernel
theorem quiet_loops : ∀ k < 18, odDefault (oa (0xA010 + 16 * (k / 9) + k % 9) 4) < 2 := by decide +kernel
theorem quiet_lines : ∀ k < 10, odDefault (oa (0x6130 + k) 2) = 0xFF := by decide +kernel

/-! ### A quiet configuration passes checks 8 and 9 -/

theorem firstReason_none {f : Nat → Nat} {l : List Nat} (h : ∀ n ∈ l, f n = 0) : firstReason f l = none := by
  induction l with
  | nil => rfl
  | cons n l ih =>
    simp only [firstReason, h n List.mem_cons_self, if_true]
    exact ih (fun m hm => h m (List.mem_cons_of_mem _ hm))

variable {t : State} {c : Container}

theorem quiet_qo (h : t.Quiet) {d q : Nat} (hd : d < 2) (hq : q < 512) : t.qo d q 2 = 0 := by
  rw [State.qo, h _ _ (Or.inl (by unfold queueObj; omega)), show queueObj d q = 0xB100 + (512 * d + q) by simp only [queueObj]; omega]
  exact quiet_queue _ (by omega)

theorem queueReject_quiet (fa : Nat) (h : t.Quiet) : t.queueReject c fa = none := by
  rw [State.queueReject, firstReason_none]
  · rfl
  · intro k hk
    have hk : k < 1024 := List.mem_range.1 hk
    simp only [State.queueReason, quiet_qo h (show k / 512 < 2 by omega) (show k % 512 < 512 by omega), if_true]

theorem quiet_window (h : t.Quiet) {w : Nat} (hw : w < 64) : t.rd (winObj w) 1 = 0xFF := by
  rw [h _ _ (by unfold quietKey winObj; omega)]
  exact (quiet_regions w hw).1

theorem windowReject_quiet (fa : Nat) (h : t.Quiet) : t.windowReject fa = none := by
  have h1 : firstReason t.windowReason (List.range 64) = none := firstReason_none (fun w hw => by
    simp only [State.windowReason, quiet_window h (List.mem_range.1 hw), if_true])
  have h2 : firstReason t.mportReason (List.range 64) = none := firstReason_none (fun k hk => by
    have hk : k < 64 := List.mem_range.1 hk
    have h3 : t.rd (mportObj (k / 32) (k % 32)) 3 = 0 := by
      rw [h _ _ (by unfold quietKey mportObj; omega), show mportObj (k / 32) (k % 32) = 0x4100 + (64 * (k / 32) + k % 32) by
        simp only [mportObj]; omega]
      exact quiet_ports _ (by omega)
    simp [State.mportReason, h3, reasonOf])
  simp only [State.windowReject, h1, h2, Option.map_none]

theorem quiet_lane (h : t.Quiet) {k : Nat} (hk : k < 16) :
    t.rd (laneObj k) 3 = 0 ∧ t.rd (rportObj k) 1 = 0 ∧ t.rd (0x58C0 + k / 8) 1 = 0xFF := by
  rw [h (laneObj k) 3 (by unfold quietKey laneObj; omega), h (rportObj k) 1 (by unfold quietKey rportObj; omega),
    h (0x58C0 + k / 8) 1 (by unfold quietKey; omega)]
  exact quiet_lanes k hk

theorem portReject_quiet (fa : Nat) (h : t.Quiet) (hc : c.records = []) : t.portReject c fa = none := by
  rw [State.portReject, firstReason_none]
  · rfl
  · intro k hk
    have hk : k < 16 := List.mem_range.1 hk
    have h1 : t.portsOver k = [] := by
      rw [State.portsOver, List.filter_eq_nil_iff]
      intro p hp
      simp [(quiet_lane h (List.mem_range.1 hp)).2.1]
    have h2 : t.laneReason c k = 0 := by
      simp [State.laneReason, h1, (quiet_lane h hk).1, Container.carries, hc]
    simp [State.sourceReason, h2, (quiet_lane h hk).2.2]

theorem floorReject_quiet (fa : Nat) (h : t.Quiet) : t.floorReject fa = none := by
  rw [State.floorReject, firstReason_none]
  · rfl
  · intro n hn
    have hn : n < 64 := List.mem_range.1 hn
    have h1 : t.rd (enObj n) 3 = 0xFF ∧ t.rd (enObj n) 4 = 0 := by
      rw [h (enObj n) 3 (by unfold quietKey enObj; omega), h (enObj n) 4 (by unfold quietKey enObj; omega)]
      exact (quiet_regions n hn).2
    simp [State.floorReason, h1.1, h1.2, reasonOf]

theorem siteReject_quiet (fa : Nat) (h : t.Quiet) : t.siteReject fa = none := by
  rw [State.siteReject, firstReason_none]
  · rfl
  · intro k hk
    have hk : k < 128 := List.mem_range.1 hk
    have h1 : t.rd (0xA100 + k) 1 = 0 := by
      rw [h _ _ (by unfold quietKey; omega)]
      exact quiet_sites k hk
    simp [State.siteReason, h1, reasonOf, fieldAt]

theorem pinReject_quiet (fa : Nat) (h : t.Quiet) (hf : ∀ p < 40, t.funcAfter c p = 0) : t.pinReject c fa = none := by
  rw [State.pinReject, firstReason_none]
  · rfl
  · intro p hp
    have hp : p < 40 := List.mem_range.1 hp
    have h1 : t.rd (pinObj p) 3 % 4 ≠ 3 ∧ t.rd (bankObj (p / 10)) 1 = 0 := by
      rw [h (pinObj p) 3 (by unfold quietKey pinObj; omega), h (bankObj (p / 10)) 1 (by unfold quietKey bankObj; omega)]
      exact (quiet_pins p hp).2
    have h2 : ∀ l < 18, t.rd (0xA010 + 16 * (l / 9) + l % 9) 4 ≠ p + 2 := by
      intro l hl
      rw [h _ _ (by unfold quietKey; omega)]
      have := quiet_loops l hl
      omega
    have h3 : ∀ l < 10, t.rd (lineObj l) 2 = 0xFF := by
      intro l hl
      rw [h _ _ (by unfold quietKey lineObj; omega)]
      exact quiet_lines l hl
    have a1 : (List.range 18).any (fun l => decide (t.rd (0xA010 + 16 * (l / 9) + l % 9) 4 = p + 2)
        && (decide (t.funcAfter c p ≠ 2) || decide (l / 9 ≠ p / 20))) = false := by
      rw [List.any_eq_false]
      intro l hl
      simp [h2 l (List.mem_range.1 hl)]
    have a2 : (List.range 10).any (fun l => decide (t.rd (lineObj l) 2 ≠ 0xFF) && decide (10 * t.rd (lineObj l) 3 + l = p)
        && decide (t.rd (lineObj l) 2 ≠ t.rd (pinObj p) 1)) = false := by
      rw [List.any_eq_false]
      intro l hl
      simp [h3 l (List.mem_range.1 hl)]
    have a1' := a1
    rw [hf p hp] at a1'
    simp only [State.pinReason, hf p hp, a1', a2, h1.2, h1.1]
    simp [reasonOf, sigKind]

/-- A configuration in which nothing is in use passes checks 8 and 9 of R384 for a container without records and targets. -/
theorem commitReject_quiet (s : State) (src fa : Nat) (h : t.Quiet) (hc : c.records = []) (ht : c.targets = [])
    (hf : ∀ p < 40, t.funcAfter c p = 0) : s.commitReject t c src fa = none := by
  rw [State.commitReject, queueReject_quiet fa h, windowReject_quiet fa h, portReject_quiet fa h hc, floorReject_quiet fa h,
    siteReject_quiet fa h, pinReject_quiet fa h hf]
  simp [State.routeReject, ht, firstReject]

/-! ### What a load keeps quiet -/

theorem State.Quiet.wr {s : State} (h : s.Quiet) (i j v : Nat) (hj : j < 256)
    (hv : ¬quietKey i j ∨ v = odDefault (oa i j)) : (s.wr i j v).Quiet := by
  intro a b hab
  rw [State.rd_wr]
  split
  · rename_i he
    have hb : b < 256 := by rcases hab with h | h | h | h | h | h | h | h | h | h | h | h <;> omega
    obtain ⟨rfl, rfl⟩ := (oa_inj hb hj).1 he
    rcases hv with hv | hv
    · exact absurd hab hv
    · exact hv
  · exact h a b hab

theorem State.Quiet.each {f : State → Nat → State} {l : List Nat} (hf : ∀ s n, n ∈ l → s.Quiet → (f s n).Quiet) :
    ∀ s : State, s.Quiet → (s.each f l).Quiet := by
  induction l with
  | nil => intro s h; exact h
  | cons n l ih =>
    intro s h
    exact ih (fun s m hm => hf s m (List.mem_cons_of_mem _ hm)) _ (hf s n List.mem_cons_self h)

theorem State.Quiet.setMan {s : State} (h : s.Quiet) (i j v : Nat) : (s.setMan i j v).Quiet := h

theorem each_id {f : State → Nat → State} {s : State} {l : List Nat} (h : ∀ n ∈ l, f s n = s) : s.each f l = s := by
  induction l with
  | nil => rfl
  | cons n l ih =>
    rw [State.each, h n List.mem_cons_self]
    exact ih (fun m hm => h m (List.mem_cons_of_mem _ hm))

theorem quiet_siteOwners {s : State} (h : s.Quiet) : s.siteOwners.Quiet := by
  unfold State.siteOwners
  refine State.Quiet.each (fun t k hk ht => ?_) s h
  have hk : k < 128 := List.mem_range.1 hk
  exact ht.wr _ _ _ (by decide) (Or.inl (by unfold quietKey; omega))

theorem quiet_readQueues {s : State} (h : s.Quiet) : s.readQueues.Quiet := by
  unfold State.readQueues
  refine State.Quiet.each (fun t k hk ht => ?_) s h
  have hk : k < 256 := List.mem_range.1 hk
  exact ht.wr _ _ _ (by decide) (Or.inl (by unfold quietKey lportObj; omega))

theorem quiet_locusFree {s : State} (h : s.Quiet) : s.locusFree.Quiet :=
  State.Quiet.each (fun t d hd ht => by
    have hd : d = 0 ∨ d = 1 := by simpa using hd
    exact (ht.wr _ _ _ (by decide) (Or.inl (by unfold quietKey; omega))).wr _ _ _ (by decide)
      (Or.inl (by unfold quietKey; omega))) s h

theorem quiet_bindAll {s : State} (h : s.Quiet) : s.bindAll.Quiet := by
  unfold State.bindAll
  refine State.Quiet.each (fun t k _ ht => ?_) _ (State.Quiet.each (fun t k _ ht => ?_) s h)
  all_goals
    try dsimp only
    split
    · exact ht.wr _ _ _ (by decide) (Or.inl (by unfold quietKey queueObj; omega))
    · exact ht

theorem claimCarried_none {s : State} (hc : c.records = []) : s.claimCarried c = s :=
  each_id (fun o _ => by simp [Container.carries, hc])

/-- A blank region keeps a configuration quiet. -/
theorem quiet_blankRegion {s : State} (h : s.Quiet) {n : Nat} (hn : n < 64) : (s.blankRegion n).Quiet := by
  have hz : ∀ k < 128, 0 = odDefault (oa (0xA100 + k) 1) := fun k hk => (quiet_sites k hk).symm
  have h2 : ({ s with fab := s.fab.blank n } : State).Quiet := h
  refine (h2.wr _ _ _ (by decide) (Or.inr ?_)).wr _ _ _ (by decide) (Or.inr ?_)
  · rw [show siteObj (n / 32) (2 * (n % 32)) = 0xA100 + (64 * (n / 32) + 2 * (n % 32)) by unfold siteObj; omega]
    exact hz _ (by omega)
  · rw [show siteObj (n / 32) (2 * (n % 32) + 1) = 0xA100 + (64 * (n / 32) + 2 * (n % 32) + 1) by unfold siteObj; omega]
    exact hz _ (by omega)

theorem cellsFind_filter {α : Type} (l : List (Nat × α)) (p : Nat → Bool) (k : Nat) :
    cellsFind (l.filter (fun c => !p c.1)) k = if p k then none else cellsFind l k := by
  induction l with
  | nil => simp [cellsFind]
  | cons c l ih =>
    obtain ⟨j, v⟩ := c
    by_cases hj : p j = true
    · simp only [hj, List.filter_cons, Bool.not_true, Bool.false_eq_true, if_false, ih, cellsFind]
      by_cases hk : k = j
      · subst hk; simp [hj]
      · simp [hk]
    · simp only [hj, List.filter_cons, Bool.not_false, if_true, cellsFind, ih]
      by_cases hk : k = j
      · subst hk; simp [hj]
      · simp [hk]

/-- The configuration before a load's records: quiet where the one before was. -/
theorem quiet_loadBase {s : State} (h : s.Quiet) (ht : c.targets = []) : (s.loadBase c).Quiet := by
  unfold State.loadBase
  refine State.Quiet.each (fun t p _ ht => ?_) _ ?_
  · split
    · exact ht.setMan _ _ _
    · exact ht
  · cases hc : c.full with
    | true =>
      simp only [if_true]
      refine State.Quiet.each (fun t n hn ht => quiet_blankRegion ht (List.mem_range.1 hn)) _ ?_
      intro i j hij
      have hb := h i j hij
      simp only [State.rd, SMap.get, SMap.dropKeys] at hb ⊢
      rw [cellsFind_filter s.od.cells (fun k => fullObj (k / 256) (k % 256))]
      split
      · rename_i he
        split at he
        · cases he
        · rw [he] at hb
          exact hb
      · rfl
    | false =>
      simp only [ht, Bool.false_eq_true, if_false]
      exact h

theorem quiet_loadKept {s : State} (old : State) (h : s.Quiet) : (s.loadKept old c).Quiet := by
  unfold State.loadKept
  split
  · refine State.Quiet.each (fun t n hn ht => ?_) s h
    have hn : n < 64 := List.mem_range.1 hn
    split
    · exact ht
    · exact ht.wr _ _ _ (by decide) (Or.inl (by unfold quietKey regObj; omega))
  · exact h.wr _ _ _ (by decide) (Or.inl (by unfold quietKey; omega))

/-- The configuration that a load of no records and no settings leaves is quiet where the one before was. -/
theorem quiet_loaded {s : State} (h : s.Quiet) (hr : c.records = []) (hs : c.settings = []) (ht : c.targets = []) : (s.loaded c).Quiet := by
  unfold State.loaded
  simp only [hr, hs, List.foldl_nil, List.filter_nil, claimCarried_none hr]
  exact quiet_locusFree (quiet_readQueues (quiet_bindAll (quiet_siteOwners (quiet_loadKept s (quiet_loadBase h ht) (c := c)))))

/-- Where its base, records and settings leave a load no other fabric, its owners and queues do not either. -/
theorem loaded_fab (s : State) (hr : c.records = []) :
    (s.loaded c).fab = ((c.settings.filter c.holds).foldl State.putSetting ((s.loadBase c).loadKept s c)).fab := by
  unfold State.loaded
  simp only [hr, List.foldl_nil, claimCarried_none hr]
  generalize (c.settings.filter c.holds).foldl State.putSetting ((s.loadBase c).loadKept s c) = u
  unfold State.locusFree State.readQueues State.bindAll State.siteOwners
  rw [State.each_keeps (fun t => t.fab) _ (fun t n => by simp), State.each_keeps (fun t => t.fab) _ (fun t n => by simp),
    State.each_keeps (fun t => t.fab) _ (fun t n => by dsimp only; split <;> simp), State.each_keeps (fun t => t.fab) _ (fun t n => by split <;> simp),
    State.each_keeps (fun t => t.fab) _ (fun t n => by simp)]

/-- A load of no records, no settings and no pins leaves a manifest without values without values. -/
theorem loaded_manifest (s : State) (hr : c.records = []) (hs : c.settings = []) (hp : ∀ p, c.hasPin p = false)
    (hm : s.cfg.manifest.cells = []) : (s.loaded c).cfg.manifest.cells = [] := by
  unfold State.loaded
  simp only [hr, hs, List.foldl_nil, List.filter_nil, claimCarried_none hr]
  unfold State.locusFree State.readQueues State.bindAll State.siteOwners State.loadKept State.loadBase
  have hb : ∀ t n, (State.blankRegion t n).cfg.manifest.cells = t.cfg.manifest.cells := by
    intro t n
    simp only [State.blankRegion, State.wr_cfg]
  rw [State.each_keeps (fun t => t.cfg.manifest.cells) _ (fun t n => by simp),
    State.each_keeps (fun t => t.cfg.manifest.cells) _ (fun t n => by simp),
    State.each_keeps (fun t => t.cfg.manifest.cells) _ (fun t n => by dsimp only; split <;> simp),
    State.each_keeps (fun t => t.cfg.manifest.cells) _ (fun t n => by split <;> simp),
    State.each_keeps (fun t => t.cfg.manifest.cells) _ (fun t n => by simp)]
  have he : ∀ (u : State), (u.each (fun t p => if c.hasPin p then t.setMan (pinObj p) 2 0 else t) allPins) = u :=
    fun u => each_id (fun p _ => by simp [hp])
  cases c.full with
  | true =>
    simp only [if_true]
    rw [State.each_keeps (fun t => t.cfg.manifest.cells) _ (fun t n => by split <;> simp), he,
      State.each_keeps (fun t => t.cfg.manifest.cells) _ hb]
    simp [SMap.dropKeys, hm]
  | false =>
    simp only [Bool.false_eq_true, if_false, State.wr_cfg]
    rw [he, State.each_keeps (fun t => t.cfg.manifest.cells) _ hb]
    exact hm

/-- A configuration that lists none of those objects is quiet. -/
theorem quiet_of_cells {s : State} (h : ∀ c ∈ s.od.cells, ¬quietKey (c.1 / 256) (c.1 % 256)) : s.Quiet := by
  intro i j hij
  have hj : j < 256 := by rcases hij with h | h | h | h | h | h | h | h | h | h | h | h <;> omega
  have hf : ∀ l : List (Nat × Nat), (∀ c ∈ l, ¬quietKey (c.1 / 256) (c.1 % 256)) → cellsFind l (oa i j) = none := by
    intro l
    induction l with
    | nil => intro _; rfl
    | cons a l ih =>
      intro hl
      obtain ⟨k, v⟩ := a
      have hk : oa i j ≠ k := by
        intro he
        have := hl (k, v) List.mem_cons_self
        subst he
        rw [show oa i j / 256 = i by unfold oa; omega, show oa i j % 256 = j by unfold oa; omega] at this
        exact this hij
      simp only [cellsFind, hk, if_false]
      exact ih (fun c hc => hl c (List.mem_cons_of_mem _ hc))
  simp only [State.rd, SMap.get, hf _ h]

/-- A container of nothing passes checks 8 and 9 on a quiet device. -/
theorem commitReject_empty (s t : State) (src fa : Nat) (h : t.Quiet) (hr : c.records = []) (hs : c.settings = []) (ht : c.targets = [])
    (hp : ∀ p, c.hasPin p = false) (hm : t.cfg.manifest.cells = []) : s.commitReject (t.loaded c) c src fa = none := by
  have hq := quiet_loaded h hr hs ht
  refine commitReject_quiet s src fa hq hr ht (fun p hpp => ?_)
  have hd := (quiet_pins p hpp).1
  unfold State.funcAfter
  split
  · have := loaded_manifest t hr hs hp hm
    simp only [State.manVal, SMap.get, this, cellsFind]
    exact hd
  · rw [hq (pinObj p) 2 (by unfold quietKey pinObj; omega)]
    exact hd

theorem firstReject_pair {a b : Option Reject} (ha : a = none) (hb : b = none) : firstReject [a, b] = none := by
  rw [ha, hb]; rfl

/-- A reserved Span select at a site fails check 8 of its region (R105). -/
theorem routeFaults_spanBitSite {p : Nat × Nat} (hp : p ∈ t.fab.spanBitSite.cells) (hb : spanBitBad p.2 = true) :
    t.routeFaults (p.1 / 32) ≠ [] := by
  refine List.ne_nil_of_mem (a := (3, chanId 4 (p.1 / 32) 0 0 (p.1 % 32))) ?_
  unfold State.routeFaults
  simp only [List.mem_append]
  refine Or.inl (Or.inl (Or.inl (Or.inl (Or.inr ?_))))
  exact List.mem_filterMap.2 ⟨p, List.mem_filter.2 ⟨hp, by simp⟩, by simp [hb]⟩

/-- A target with a violation of R105 fails check 8. -/
theorem routeReject_isSome (s : State) (src fa : Nat) {n : Nat} (hn : n ∈ c.targets) (h : t.routeFaults n ≠ []) :
    ∃ r, s.routeReject t c src fa = some r := by
  unfold State.routeReject
  split
  · rename_i he
    have := List.find?_eq_none.1 he n hn
    simp [h] at this
  · exact ⟨_, rfl⟩

end Sys2Proof.Machine
end

