-- ==== Sys2Proof/Laws/Memory.lean ====
section
/-! SUPPORT. Laws of device memory: every operation on it keeps the canonical form, a store leaves every other octet alone, and the
memory after reset has the form. -/

namespace Sys2Proof.Machine

theorem putBytes_wf (l : List Byte) : ∀ (m : SMap Byte) (p : Nat), m.wf (fun _ => 0) = true → (putBytes m p l).wf (fun _ => 0) = true := by
  induction l with
  | nil => intro m p h; exact h
  | cons b l ih => intro m p h; exact ih _ _ (SMap.put_wf p b h)

theorem hostPut_wf (l : List Byte) : ∀ (m : SMap Byte) (p : Nat), m.wf (fun _ => 0) = true → (hostPut m p l).wf (fun _ => 0) = true := by
  induction l with
  | nil => intro m p h; exact h
  | cons b l ih => intro m p h; exact ih _ _ (SMap.put_wf p b h)

/-- An octet outside those stored reads as before. -/
theorem putBytes_get_outside (l : List Byte) : ∀ (m : SMap Byte) (p a : Nat), (a < p ∨ p + l.length ≤ a) →
    (putBytes m p l).get (fun _ => 0) a = m.get (fun _ => 0) a := by
  induction l with
  | nil => intro m p a _; rfl
  | cons b l ih =>
    intro m p a h
    simp only [List.length_cons] at h
    rw [putBytes, ih _ _ _ (by omega), SMap.get_put_ne _ _ _ (by omega)]

theorem octets_length (n : Nat) : ∀ v, (octets n v).length = n := by
  induction n with
  | zero => intro v; rfl
  | succ n ih => intro v; simp [octets, ih]

theorem MemSt.wf_iff (m : MemSt) : m.wf = true ↔
    m.bytes.wf (fun _ => 0) = true ∧ m.poison.wf (fun _ => false) = true ∧ m.errs.wf (fun _ => 0) = true := by
  simp [MemSt.wf, and_assoc]

/-- A store keeps the canonical form. -/
theorem MemSt.store_wf {m : MemSt} (p : Nat) (w : Word) (h : m.wf = true) : (m.store p w).wf = true := by
  rw [MemSt.wf_iff] at *
  exact ⟨putBytes_wf _ _ _ h.1, SMap.put_wf _ _ h.2.1, SMap.put_wf _ _ h.2.2⟩

/-- Zeroing keeps the canonical form. -/
theorem MemSt.zero_wf {m : MemSt} (p : Nat → Bool) (h : m.wf = true) : (m.zero p).wf = true := by
  rw [MemSt.wf_iff] at *
  exact ⟨SMap.dropKeys_wf _ h.1, SMap.dropKeys_wf _ h.2.1, SMap.dropKeys_wf _ h.2.2⟩

/-- A store changes the 16 octets of its word only. -/
theorem MemSt.store_outside (m : MemSt) (p a : Nat) (w : Word) (h : a < p ∨ p + 16 ≤ a) :
    (m.store p w).bytes.get (fun _ => 0) a = m.bytes.get (fun _ => 0) a :=
  putBytes_get_outside _ _ _ _ (by rw [octets_length]; exact h)

/-- A write of a word of memory keeps the canonical form. -/
theorem State.memWrite_wf {s : State} (p : Nat) (w : Word) (h : s.mem.wf = true) : (s.memWrite p w).mem.wf = true := by
  unfold State.memWrite
  split
  · exact h
  · exact MemSt.store_wf _ w h

/-- So does a write of several. -/
theorem State.storeWords_wf (l : List Word) : ∀ (s : State) (p : Nat), s.mem.wf = true → (s.storeWords p l).mem.wf = true := by
  induction l with
  | nil => intro s p h; exact h
  | cons w l ih => intro s p h; exact ih _ _ (State.memWrite_wf p w h)

/-- A change of memory's other fields keeps the form. -/
theorem MemSt.wf_of_eq {m n : MemSt} (hb : n.bytes = m.bytes) (hp : n.poison = m.poison) (he : n.errs = m.errs) (h : m.wf = true) : n.wf = true := by
  rw [MemSt.wf_iff] at *
  rw [hb, hp, he]
  exact h

/-- The memory after reset has the canonical form. -/
theorem reset_mem_wf : State.reset.mem.wf = true := by decide +kernel

end Sys2Proof.Machine
end

