-- ==== Sys2Proof/Laws/Queue.lean ====
section
/-! SUPPORT. Laws of the Locus queues: what writing an item to a queue and reading one from it leave as they were. -/

namespace Sys2Proof.Machine

/-- A view of the state that looks at no memory, queue, object, event or free value. -/
structure Calm {β : Type} (p : State → β) : Prop where
  mem : ∀ (s : State) m, p { s with mem := m } = p s
  loc : ∀ (s : State) l, p { s with loc := l } = p s
  wr : ∀ (s : State) i j v, p (s.wr i j v) = p s
  raise : ∀ (s : State) a b c d e, p (s.raise a b c d e) = p s
  free : ∀ s : State, p s.freeNext = p s

theorem calm_fab : Calm (fun s => s.fab) :=
  ⟨fun _ _ => rfl, fun _ _ => rfl, fun _ _ _ _ => rfl, fun s a b c d e => s.raise_fab a b c d e, fun _ => rfl⟩

variable {β : Type} {p : State → β}

theorem Calm.pcColumn (h : Calm p) (s : State) (acct : Nat) (w : Bool) (a : Nat) : p (s.pcColumn acct w a) = p s :=
  State.pcColumn_keeps p (fun s _ _ => h.mem s _) (fun s i j v => h.wr s i j v) s acct w a

theorem Calm.pcWords (h : Calm p) (s : State) (acct port : Nat) (w : Bool) (ps : List Nat) : p (s.pcWords acct port w ps) = p s := by
  have k : ∀ s : State, p (s.each (fun t c => t.pcColumn acct w (32 * c)) (columnsOf ps)) = p s :=
    State.each_keeps p _ (fun s c => h.pcColumn s _ _ _) _
  simp only [State.pcWords]; split
  · exact k s
  · rw [State.readCheck, State.each_keeps p, k]
    intro t q
    split
    · rfl
    · split
      · simp only [State.countCorrected]
        repeat' split
        all_goals simp [h.mem, h.wr, h.raise, State.bump]
      · split
        · simp only [State.countUncorrectable, State.bump]
          simp [h.wr, h.raise]
        · rfl


theorem Calm.spillStore (h : Calm p) (d q : Nat) (is : List Nat) : ∀ (s : State) (ws : List Word), p (s.spillStore d q is ws) = p s := by
  induction is with
  | nil => intro s ws; rfl
  | cons i is ih =>
    intro s ws
    cases ws with
    | nil => rfl
    | cons w ws =>
      rw [State.spillStore, ih, State.memWrite]
      split
      · rfl
      · exact h.mem s _

theorem Calm.watermark (h : Calm p) (s : State) (d q : Nat) : p (s.watermark d q) = p s := by
  simp only [State.watermark]
  repeat' split
  all_goals first | rfl | (rw [h.raise]; exact h.loc s _)

theorem Calm.pushItem (h : Calm p) (s : State) (d q : Nat) (ws : List Word) (prio : Nat) (close : Bool) :
    p (s.pushItem d q ws prio close) = p s := by
  simp only [State.pushItem, State.spillCount, h.pcWords, h.spillStore, State.tally, h.wr]
  exact h.loc s _

/-- Writing an item to a queue keeps every such view: the fabric, the cells, the host and so on. -/
theorem Calm.putItem (h : Calm p) {s t : State} {d q : Nat} {ws : List Word} {prio : Nat} (hp : s.putItem d q ws prio = some t) : p t = p s := by
  simp only [State.putItem] at hp
  split at hp
  · rw [← Option.some.inj hp]
    exact (h.loc _ _).trans ((h.watermark _ _ _).trans (h.pushItem _ _ _ _ _ _))
  · cases hp

theorem Calm.spillPoison (h : Calm p) (d q : Nat) (l : List Word) : ∀ (s : State) (m : List Word), p (s.spillPoison d q l m) = p s := by
  induction l with
  | nil => intro s m; rfl
  | cons a l ih =>
    intro s m
    cases m with
    | nil => rfl
    | cons b m =>
      simp only [State.spillPoison]
      split
      · rw [ih, h.raise, State.bump]; exact h.wr _ _ _ _
      · exact ih s m

theorem Calm.takeItem (h : Calm p) (s : State) (d q : Nat) (i : QItem) : p (s.takeItem d q i).2 = p s := by
  simp only [State.takeItem, State.spillCount]
  exact (h.loc _ _).trans ((h.spillPoison _ _ _ _ _).trans ((h.loc _ _).trans (h.pcWords _ _ _ _ _)))

theorem Calm.readDone (h : Calm p) (s : State) (d q : Nat) : p (s.readDone d q) = p s := by
  simp only [State.readDone, State.tally, h.wr]; exact h.loc s _

variable (hs : ∀ (s : State) k x, p (s.setStream k x) = p s)
include hs

theorem Calm.stallMark (_ : Calm p) (s : State) (k kind : Nat) : p (s.stallMark k kind) = p s := by
  simp only [State.stallMark]; split
  · rfl
  · split
    · exact hs _ _ _
    · rfl

theorem Calm.epochWrite (h : Calm p) (k : Nat) (l : List Nat) : ∀ s : State, p (s.epochWrite k l) = p s := by
  induction l with
  | nil => intro s; rfl
  | cons t l ih =>
    intro s; simp only [State.epochWrite]; split
    · exact h.stallMark hs _ _ _
    · rename_i u hu
      rw [ih]; split
      · rw [State.bump, h.wr, hs, h.putItem hu]
      · rw [hs, h.putItem hu]

theorem Calm.epochFlush (h : Calm p) (s : State) (k : Nat) : p (s.epochFlush k) = p s := by
  simp only [State.epochFlush]; split
  · exact h.epochWrite hs _ _ _
  · rfl

/-- A decision that waits for its log queue leaves the units of the fabric as they were (R155). -/
theorem Calm.logWait (h : Calm p) (s : State) (k kind : Nat) : p (s.logWait k kind) = p s := by
  rw [State.logWait, h.stallMark hs, h.epochFlush hs]

theorem Calm.logPut (h : Calm p) {s t : State} {k kind src v : Nat} (hp : s.logPut k kind src v = some t) : p t = p s := by
  simp only [State.logPut] at hp
  split at hp
  · cases hp
  · split at hp
    · cases hp
    · rename_i u hu
      rw [← Option.some.inj hp]
      have := h.putItem hu
      split
      · rw [State.bump, h.wr, hs, this, h.epochFlush hs]
      · rw [hs, this, h.epochFlush hs]

theorem Calm.replayTake (h : Calm p) (s : State) (k : Nat) : p (s.replayTake k) = p s := by
  simp only [State.replayTake]; split
  · split
    · rw [h.watermark, State.countRead, hs, h.readDone, h.takeItem]
    · rfl
  · rfl

theorem Calm.decided (h : Calm p) (s : State) (k : Nat) : p (s.decided k) = p s := by
  simp only [State.decided]; split
  · rw [State.bump, h.wr, hs, h.replayTake hs]
  · rw [hs, h.replayTake hs]

end Sys2Proof.Machine
end

