-- ==== Sys2Proof/Machine/Bar0.lean ====
section
/-! DEFINITION. BAR0 as a host reads it (R299 to R301, R308, R319): the function page, the object access window, the pages of DMA
engines and event rings, and the MSI-X table. No row of the table reads a register of BAR0; these are the values that such a read returns. -/

namespace Sys2Proof.Machine

/-- The domain of a function owns a committed region (R300). -/
def State.configured (s : State) (f : Func) : Bool :=
  (List.range 64).any (fun n => decide (s.regState n ≠ 0) && decide (s.regOwner n = funcDomain (funcCode f)))

/-- A register of the function page (R300). -/
def State.funcPage (s : State) (f : Func) (off : Nat) : Nat :=
  match off with
  | 0 => funcDomain (funcCode f) <<< 16 ||| funcCode f
  | 4 => s.fwUp.toNat <<< 1 ||| (s.configured f).toNat
  | 8 => s.now % 2 ^ 32
  | 0xC => s.now / 2 ^ 32 % 2 ^ 32
  | _ => 0

/-- MB_CMD as the last request wrote it, GO aside: OP, SUB and INDEX (R301). -/
def mbCmd : Option (Bool × Nat × Nat × List Byte) → Nat
  | none => 0
  | some (write, idx, sub, _) => (if write then 2 else 1) <<< 24 ||| sub <<< 16 ||| idx

/-- MB_LEN as the last request wrote it (R301). -/
def mbLen : Option (Bool × Nat × Nat × List Byte) → Nat
  | none => 0
  | some (_, _, _, data) => data.length

/-- A register of the object access window (R301). -/
def State.mbPage (s : State) (f off : Nat) : Nat :=
  let x := s.box f
  match off with
  | 0x1000 => mbCmd x.req
  | 0x1004 => mbLen x.req
  | 0x1008 => x.busy.toNat <<< 31 ||| x.done.toNat <<< 30 ||| x.overlap.toNat <<< 29 ||| x.resp.length
  | 0x100C => x.abort
  | 0x1010 => x.vector
  | _ => if 0x2000 ≤ off ∧ off < 0x3000 then ofOctets ((x.buf.drop (off - 0x2000)).take 4) else 0

/-- STATE of an engine (R308): RESETTING from the request of its PF's reset until the engine is released (R322, notes/assumptions/195.md). -/
def State.engState (s : State) (e : Nat) : Nat :=
  if s.rd (engObj e) 1 = 1 ∧ s.resetting (s.rd (engObj e) 2 / 256) = true then 3 else (s.eng e).state

/-- A register of an engine's page (R308). -/
def State.engPage (s : State) (e off : Nat) : Nat :=
  let x := s.eng e
  match off with
  | 0x08 => x.base % 2 ^ 32
  | 0x0C => x.base / 2 ^ 32
  | 0x10 => x.log2
  | 0x14 => x.run.toNat
  | 0x18 => x.head
  | 0x1C => x.err <<< 8 ||| s.engState e
  | _ => 0

/-- A register of a ring's page (R319). -/
def State.ringPage (s : State) (r off : Nat) : Nat :=
  let x := s.out.ring r
  match off with
  | 0x08 => x.base % 2 ^ 32
  | 0x0C => x.base / 2 ^ 32
  | 0x10 => x.cfg
  | 0x14 => x.moderation
  | 0x18 => x.filter
  | 0x1C => x.tail
  | 0x20 => x.lost
  | _ => 0

/-- 32 bits of the MSI-X table or of the pending bits of a function (R299): 16 bytes an entry, a bit a vector; a VF has 64 of each. -/
def State.msixPage (s : State) (f : Func) (off : Nat) : Nat :=
  let code := 2048 * funcCode f
  if off < 0x98000 then
    let k := (off - 0x90000) / 16
    if k < vectorsOf f then fieldAt (s.out.msixTab.get (fun _ => 0) (code + k)) (32 * (off / 4 % 4)) 32 else 0
  else
    let k := 8 * (off - 0x98000)
    ((List.range 32).map (fun b =>
      if k + b < vectorsOf f ∧ s.out.pba.get (fun _ => false) (code + k + b) = true then 2 ^ b else 0)).foldl (· + ·) 0

/-- The 32 bits at an offset of BAR0 of a function (R299): a page of an engine or a ring reads as 0 unless the function uses it,
and offsets not listed read as 0. -/
def State.bar0 (s : State) (f : Func) (off : Nat) : Nat :=
  if off < 0x1000 then s.funcPage f off
  else if off < 0x3000 then (if f.v.val = 0 then s.mbPage f.f.val off else 0)
  else if 0x10000 ≤ off ∧ off < 0x50000 then
    let e := (off - 0x10000) / 0x1000
    if s.engUser e = funcCode f then s.engPage e (off % 0x1000) else 0
  else if 0x80000 ≤ off ∧ off < 0x90000 then
    let r := (off - 0x80000) / 0x100
    if s.ringFunc r = funcCode f then s.ringPage r (off % 0x100) else 0
  else if 0x90000 ≤ off ∧ off < 0x98100 then s.msixPage f off
  else 0

/-- What a read of BAR0 returns: nothing without a link, and Unsupported Request, as none, while the function's reset runs or from
outside the stream of a TDI in RUN (R322, R329). -/
def State.bar0Read (s : State) (f : Func) (off : Nat) (inStream : Bool) : Option Nat :=
  if s.hostUp f.f.val = false ∨ (s.tdi (funcCode f) = 2 ∧ inStream = false) then none else some (s.bar0 f off)

end Sys2Proof.Machine
end

