-- ==== Sys2Proof/Tests/Slice0.lean ====
section
/-! SUPPORT. Tests: the worked examples of the spec, ill-formed commands that the check refuses, and for every obligation states and
operands that meet the hypotheses of each of its clauses (witness_<name of the obligation>). -/

open Sys2Proof Sys2Proof.Machine

namespace Sys2Proof.Tests

set_option Elab.async false
set_option linter.unusedVariables false

/-- An object and its value. -/
def o (idx sub v : Nat) : Nat × Nat := (oa idx sub, v)

/-- A block that runs, with the objects of the list: firmware up, the device configured, the link in L0, the stacks and the loops of die 0
running, region 0.0 RUNNING, and the time 100 s. -/
def up (l : List (Nat × Nat)) : State :=
  { State.reset with
    od := ⟨l ++ [o 0x1020 1 3, o 0x1030 3 0, o 0x2000 1 4, o 0x3000 0xA 0, o 0x4010 1 1, o 0x4011 1 1, o 0x5000 1 2, o 0x8000 3 1,
      o 0xA010 2 2, o 0xA011 2 2, o 0xA012 2 2, o 0xA013 2 2, o 0xA014 2 2, o 0xA015 2 2, o 0xA040 3 1, o 0xA200 1 100000000000, o 0xC100 2 2]⟩,
    dev := { por := false, initLow := false, doneLow := false, perstLow := false, awake := [0, 1], keysDue := false },
    fab := { gsr := false } }

/-- With both stacks running and no channel offline no word is offline. -/
theorem online (s : State) (h0 : s.rd 0x4010 1 = 1) (h1 : s.rd 0x4011 1 = 1) (h2 : s.rd 0x4010 0xD = 0) (h3 : s.rd 0x4011 0xD = 0) (a : Nat) :
    s.wordOffline a = false := by
  have hd : s.stackOf a = 0 ∨ s.stackOf a = 1 := by
    have h : s.stackOf a < 2 := by
      unfold State.stackOf fieldAt
      split <;> exact Nat.mod_lt _ (by decide)
    omega
  rcases hd with h | h <;> simp [State.wordOffline, h, h0, h1, h2, h3]
/-- A running block with a fabric. -/
def upFab (l : List (Nat × Nat)) (f : FabSt) : State := { up l with fab := f }

/-- An LU's configuration with this control word, IN0 and IN1 on the wires of LU 1 and LU 2 of its cluster, and F and G these tables. -/
def lc (ctrl f g : Nat) : LuCfg := ⟨BitVec.ofNat 24 ctrl, BitVec.ofNat 64 f, BitVec.ofNat 64 g, [2, 4]⟩

/-- An LU of 0.0.0. -/
def lu0 : LuLoc := ⟨0, 0, 0, 0⟩

/-- A Prism in STATIC mode whose entry 0 passes channel X to the result channel. -/
def pg : PrismCfg := ⟨1, [BitVec.ofNat 64 (1 <<< 58 ||| 3 <<< 56 ||| 7 <<< 48 ||| 1 <<< 45)], 0, 0, 0, 0, 0⟩

/-- A well-made container without targets: of a full load, or of a partial load of MGT. -/
def cont (full : Bool) : Container :=
  { full := full, headerOk := true, digestOk := true, sigEcOk := true, sigMlOk := true, owner := 1, keyId := 0x10000000, signerHash := 0, counter := 0,
    version := 0, minVersion := 0, force := false, acceptMs := 0, targetD0 := 0, targetD1 := 0, periphD0 := 0, periphD1 := 0, records := [],
    sectionOk := true, frames := [], blockFault := none, settings := [], ebm := [], delegations := [], chainRemain := 0, bytes := 4096,
    manifestHash := 0, measures := [] }

/-- A container that gives region 0.0 a reserved Span select. -/
def badCont : Container := { cont false with targetD0 := 1, settings := [.spanBitSite ⟨0, 0⟩ 0 0x900] }

/-- A Kimbe frame of a CMD with a good CRC. -/
def kframe (cmd : Nat) (dest src : Fin 64) (payload : List Byte) : KFrame := ⟨dest, false, src, cmd, 0, payload, true, false⟩

/-- An empty image. -/
def img : ImageSt :=
  { lus := [], prisms := [], pools := [], acks := [], gAck := [], taken := [], arcTx := [], arcRx := [], bis := [], reads := [], ports := [],
    reqs := [] }

/-- A token of domain T0. -/
def dtok : DebugToken := ⟨true, 8, 1, 0, 60, 1, 0x20000800, 0, true, true⟩


/-- Eight octets of a number, after four, hold it modulo 2^64. -/
theorem serial_field (n : Nat) : octField (kframe 1 63 0 ([1, 0, 0, 0] ++ octets 8 n)).payload 4 8 = n % 2 ^ 64 := by
  simp [octField, kframe, octets, ofOctets]
  omega

/-- An up device whose objects in use are those of `up` is quiet, and stays so when they change in objects that say nothing of use. -/
theorem cont_passes (full : Bool) (s t : State) (src fa : Nat) (h : t.Quiet) (hm : t.cfg.manifest.cells = []) :
    s.commitReject (t.loaded (cont full)) (cont full) src fa = none :=
  commitReject_empty s t src fa h rfl rfl (by cases full <;> decide) (fun p => by simp [Container.hasPin, Container.groups, cont]) hm

theorem put_mem {d : Nat → Nat} (m : SMap Nat) (k : Nat) {v : Nat} (h : v ≠ d k) : (k, v) ∈ (m.put d k v).cells := by
  have hi : ∀ l : List (Nat × Nat), (k, v) ∈ cellsInsert l k v := by
    intro l
    induction l with
    | nil => simp [cellsInsert]
    | cons a l ih =>
      obtain ⟨j, w⟩ := a
      simp only [cellsInsert]
      split
      · simp
      · split
        · simp
        · simp [ih]
  simp [SMap.put, h, hi]

/-- The container with the reserved select fails check 8 on every device. -/
theorem badCont_fails (s t : State) (src fa : Nat) : ∃ r, s.routeReject (t.loaded badCont) badCont src fa = some r := by
  refine routeReject_isSome s src fa (n := 0) (by decide) (routeFaults_spanBitSite (p := (0, 0x900)) ?_ (by decide))
  rw [loaded_fab t rfl, show badCont.settings.filter badCont.holds = badCont.settings from by decide]
  exact put_mem _ _ (by decide)

/-- The Prism of the complex filter tap of spec/04: its control word, its two descriptors, and h[0] and h[1] in L0. -/
def firCfg : PrismCfg := ⟨0x0022, [0x7642400000000000, 0xA6FF23C00000000F], 0, 0x00002000C0004000, 0, 0, 0⟩

/-- The filter tap's Prism after entry 0 took its X token. -/
def fir1 : PrismSt :=
  (initPrism firCfg).operate firCfg (firCfg.entry 0) [(0, ⟨0x4000E00020004000, false, false, false, false⟩)] false

/-- spec/04, complex filter tap: the configuration passes the check of R141. -/
theorem test_fir_config : prismFault firCfg = none := by decide +kernel

/-- spec/04, complex filter tap, steps 3 and 4: ACC real is 335,544,320 and ACC imaginary 0. -/
theorem test_fir_acc : fir1.acc = 335544320 := by decide +kernel

/-- spec/04, complex filter tap, step 5: the result token is 0x2800 and ACC is cleared. -/
theorem test_fir_result :
    (fir1.operate firCfg (firCfg.entry 1) [] false).result = some ⟨0x2800, false, false, false, false⟩ ∧
    (fir1.operate firCfg (firCfg.entry 1) [] false).acc = 0 := by decide +kernel

/-- The Prism of the CRC update of spec/04, its six descriptors written from R119 and R125. -/
def crcCfg : PrismCfg :=
  ⟨0x00A2,
    [BitVec.ofNat 64 (0x00 <<< 58 ||| 0 <<< 51 ||| 7 <<< 48 ||| 1 <<< 44 ||| 0 <<< 42),
     BitVec.ofNat 64 (0x09 <<< 58 ||| 2 <<< 51 ||| 7 <<< 48 ||| 1 <<< 44 ||| 1 <<< 42 ||| 8),
     BitVec.ofNat 64 (0x20 <<< 58 ||| 3 <<< 51 ||| 6 <<< 48 ||| 1 <<< 44 ||| 1 <<< 42),
     BitVec.ofNat 64 (0x09 <<< 58 ||| 3 <<< 51 ||| 7 <<< 48 ||| 1 <<< 44 ||| 1 <<< 42 ||| 8),
     BitVec.ofNat 64 (0x20 <<< 58 ||| 3 <<< 51 ||| 6 <<< 48 ||| 1 <<< 44 ||| 1 <<< 42 ||| 2),
     BitVec.ofNat 64 (0x05 <<< 58 ||| 2 <<< 51 ||| 3 <<< 48 ||| 1 <<< 45)],
    0x107 <<< 64 ||| 0x107, 0, 0, 0, 0⟩

/-- The CRC Prism after its first `n` entries. -/
def crcAfter : Nat → PrismSt
  | 0 => initPrism crcCfg
  | n + 1 => (crcAfter n).operate crcCfg (crcCfg.entry n) [(0, ⟨0xC200, false, false, false, false⟩)] false

/-- spec/04, CRC update: L1 after entries 2, 3 and 4. -/
theorem test_crc_steps :
    ((crcAfter 3).l.getD 1 (0, false)).1 = 0xC04E ∧ ((crcAfter 4).l.getD 1 (0, false)).1 = 0xC0 ∧
    ((crcAfter 5).l.getD 1 (0, false)).1 = 0xC240 := by decide +kernel

/-- spec/04, CRC update: the result is the remainder 0x40. -/
theorem test_crc_result : (crcAfter 6).result.map (fun w => w.data) = some 0x40 := by decide +kernel

/-- LUs 16 and 17 of the dual-rail adder of spec/02, with a0, b0, a1, b1 on the latches of LUs 64 to 67. -/
def adder (a0 b0 a1 b1 : Bool) : State :=
  let d (b : Bool) : LuSt := { cfg := some (lc 0 0 0), full := true, oF := b, oG := !b }
  upFab [o 0xC100 1 1] { gsr := false, lus := ⟨[
    (16, initLu ⟨BitVec.ofNat 24 (0x2 <<< 14 ||| 0xF <<< 8), 0x0000024004200000, 0x0000042002400000, [128, 129, 130, 131]⟩),
    (17, initLu ⟨BitVec.ofNat 24 (0x1 <<< 14 ||| 0xF <<< 8), 0x0000024004200000, 0x0000042002400000, [132, 133, 134, 135]⟩),
    (64, d a0), (65, d b0), (66, d a1), (67, d b1)]⟩ }

/-- The rails O_F and O_G of LU `u` of region 0 after its DR_CAPTURE. -/
def captured (s : State) (u : Fin 256) : Option (Bool × Bool) :=
  match exec (.drCapture ⟨0, 0, 0, u⟩) s with
  | .next t => some ((t.fab.lu u.val).oF, (t.fab.lu u.val).oG)
  | _ => none

/-- spec/02, dual-rail adder: 1 + 1 gives sum bit 0 in LU 16. -/
theorem test_dr_capture_sum : captured (adder true true true false) 16 = some (false, true) := by decide +kernel

/-- spec/02, dual-rail adder: LU 17 adds the carry of LU 16, so 3 + 1 gives 0 in bit 1, and 1 + 0 gives 0 and 1 there without one. -/
theorem test_dr_capture_carry :
    captured (adder true true true false) 17 = some (false, true) ∧ captured (adder true false true false) 17 = some (true, false) := by
  decide +kernel

/-- spec/00: location 1.21.42.200 is die 1, region row 2 and column 5. -/
theorem test_location : un ⟨1, 21, 42, 200⟩ = 32 * 16384 + 21 * 16384 + 42 * 256 + 200 := by decide

/-- R13: octets of a number stand lowest first. -/
theorem test_octets : octets 4 0x00050001 = [1, 0, 5, 0] ∧ ofOctets [1, 0, 5, 0] = 0x00050001 := by decide

/-! Each command whose operands may be ill formed has one that the check refuses. -/

/-- R235: a write of three words' LEN with one word of data. -/
theorem test_memoryWrite_illFormed :
    (Instr.memoryWrite 0 0 { Word.zero with data := BitVec.ofNat 128 (2 <<< 37) } [Word.zero]).wellFormed = false := by decide +kernel

/-- R235: an acknowledged write without data. -/
theorem test_memoryWriteAck_illFormed : (Instr.memoryWriteAck 0 0 Word.zero []).wellFormed = false := by decide +kernel

/-- spec/16, the example at PIO12: an edge costs (6 pF + 14 pF) × 3.3² V² = 217.8 pJ. -/
theorem test_edge_energy : (up [o 0x601C 5 14, o 0x6009 1 4]).edgeEnergy 12 = 217800 := by decide +kernel

/-- R342: a region on VF_H leaks 180 mW at 85 °C, and 112.5 mW half-way from 25 °C. -/
theorem test_leak_energy : leakEnergy 2 (some 85000) 1000 = 180000000 ∧ leakEnergy 2 (some 55000) 2 = 225000 := by decide

/-- R341: an Arc hop costs 12 pJ on VF_H, and 12 × 0.69 pJ on VF_M. -/
theorem test_rail_price :
    (up [o 0x3202 1 900, o 0x3202 3 65536]).railPrice 0 2 5 1 = 12000 ∧
      (up [o 0x3201 1 750, o 0x3201 3 65536]).railPrice 0 1 5 1 = 8280 := by decide +kernel

/-- R301: more bytes than the mailbox data window holds. -/
theorem test_mailboxWrite_illFormed : (Instr.mailboxWrite 0 0 0 (List.replicate 4097 0) 0).wellFormed = false := by decide +kernel

/-- R309: one byte of data for a host-to-device descriptor of two. -/
theorem test_dmaDescriptorComplete_illFormed :
    (Instr.dmaDescriptorComplete 0 ⟨0, 0, 2, 0, 0⟩ [0] [] false).wellFormed = false := by decide +kernel

/-- R294: no link has three lanes. -/
theorem test_linkTrainingDone_illFormed : (Instr.linkTrainingDone 3 1 false).wellFormed = false := by decide +kernel

/-- A frame has a byte at least. -/
theorem test_rxFrame_illFormed : (Instr.rxFrame ⟨0, 0⟩ ⟨[], 0, 0, 0, false, false, [], false⟩).wellFormed = false := by decide +kernel

/-- R486: an item whose header says LEN 0 carries no data. -/
theorem test_userObjectClientRequest_illFormed : (Instr.userObjectClientRequest 0 Word.zero [1]).wellFormed = false := by decide +kernel

/-- R486: the same of a server's response. -/
theorem test_userObjectServerResponse_illFormed : (Instr.userObjectServerResponse 0 Word.zero [1]).wellFormed = false := by decide +kernel

/-- An ill-formed command is refused and says its mnemonic. -/
theorem test_illFormed_refused :
    (match exec (.mailboxWrite 0 0 0 (List.replicate 4097 0) 0) (up []) with
     | .refused (.illFormed m) => m == "MAILBOX_WRITE" | _ => false) = true := by decide +kernel

/-- The rows give no bits, so no word spells a command. -/
theorem test_no_words : decodeTableWord 0 0 = none ∧ decodeTableWord 32 1 = none := by decide

/-- On an empty queue the block idles. -/
theorem test_idle : step State.reset = .next State.reset := by rfl

/-- Obligations.AccountsComplete: for each clause a state and operands that meet its hypotheses. -/
theorem witness_accountsComplete :
    (∃ (s : State), s.fwUp = true ∧ s.led.windowStart + s.rd 0x3000 1 ≤ s.now) ∧
    (∃ (s : State), s.fwUp = true ∧ s.led.grid < s.gridNow ∧ s.now < s.led.windowStart + s.rd 0x3000 1) ∧
    (∃ (s : State) (n cls k rail : Nat), s.fwUp = true ∧ s.led.grid < s.gridNow ∧ s.now < s.led.windowStart + s.rd 0x3000 1 ∧ n < 64 ∧
      cls < 32 ∧ rail < 3 ∧ s.fab.meter = { cells := [(32 * n + cls, k)] } ∧ s.loc.meter = { cells := [] } ∧ s.mem.meter = { cells := []
      } ∧ s.host.meter = { cells := [] } ∧ s.pin.meter = { cells := [] } ∧ s.led.m.clock = s.led.m.leakFrom ∧ (s.hop n).running = none ∧
      s.rd (enObj n) 2 = rail) ∧
    (∃ (s : State) (q : Req) (a : Fin 10) (v : BitVec 8), s.writeAbort q (accObj ↑a) 8 1 v.toNat = 0) :=
  ⟨⟨up [], by decide +kernel⟩,
⟨{ up [] with led := { windowStart := 99999980000 } }, by decide +kernel⟩,
⟨{ up [] with fab := { meter := ⟨[(5, 3)]⟩ }, led := { windowStart := 99999980000 } }, 0, 5, 3, 2, by decide +kernel⟩,
⟨up [], .kimbe, 0, 1, by decide +kernel⟩⟩

/-- Obligations.ApertureAndDmaComplete: for each clause a state and operands that meet its hypotheses. -/
theorem witness_apertureAndDmaComplete :
    (∃ (s : State) (f : Fin 9) (len : Nat) (write : Option (List Byte)), s.dev.por = false ∧ 2 ≤ s.rd 0x5000 1 ∧ ∃ (n : Nat),
      n = (match write with | some l => l.length | none => len) ∧ s.resetting ↑f = true) ∧
    (∃ (s : State) (f : Fin 9) (len : Nat) (write : Option (List Byte)), s.dev.por = false ∧ 2 ≤ s.rd 0x5000 1 ∧ ∃ (n : Nat),
      n = (match write with | some l => l.length | none => len) ∧ s.resetting ↑f = false ∧ s.tdi (256 * ↑f) = 2 ∧ ∃ (inStream : Bool),
      inStream = false) ∧
    (∃ (s : State) (f : Fin 9) (offset len : Nat) (write : Option (List Byte)) (inStream : Bool), s.dev.por = false ∧ 2 ≤ s.rd 0x5000 1 ∧
      ∃ (n : Nat), n = (match write with | some l => l.length | none => len) ∧ s.resetting ↑f = false ∧ (s.tdi (256 * ↑f) ≠ 2 ∨ inStream
      = true) ∧ List.find? (fun (p : Nat × Nat) => decide (p.snd ≤ offset) && decide (offset + n ≤ p.snd + s.rd (winObj p.fst) 3))
      (s.aperture ↑f) = none) ∧
    (∃ (s : State) (f : Fin 9) (offset len : Nat) (write : Option (List Byte)) (inStream : Bool) (w off : Nat), s.dev.por = false ∧ 2 ≤
      s.rd 0x5000 1 ∧ ∃ (n : Nat), n = (match write with | some l => l.length | none => len) ∧ s.resetting ↑f = false ∧ (s.tdi (256 * ↑f)
      ≠ 2 ∨ inStream = true) ∧ List.find? (fun (p : Nat × Nat) => decide (p.snd ≤ offset) && decide (offset + n ≤ p.snd + s.rd (winObj
      p.fst) 3)) (s.aperture ↑f) = some (w, off) ∧ ∃ (p : Nat), p = s.rd (winObj w) 2 + (offset - off) ∧ p + n ≤ 2 ^ 35 ∧ s.host.barWait
      = [] ∧ (wordSpots p n).all s.memServes = true) ∧
    (∃ (s : State) (tag : Fin 4096) (t : TagSt), SMap.get (fun _ => none) s.host.tags ↑tag = some t ∧ s.host.tagWait = [] ∧ (s.hostUp 0 =
      true ∨ 2 ≤ s.rd 0x5000 1)) ∧
    (∃ (s : State) (tag : Fin 4096) (t : TagSt), SMap.get (fun _ => none) s.host.tags ↑tag = some t ∧ s.host.tagWait = [] ∧ t.abandoned =
      false ∧ t.issued + 1000 * s.rd 0x5000 7 ≤ s.now) ∧
    (∃ (s : State) (f : Func) (e : Fin 64), s.seesEng f ↑e = true) ∧
    (∃ (s : State) (f : Func) (e : Fin 64), s.seesEng f ↑e = true ∧ (s.eng ↑e).state = 0 ∧ (s.eng ↑e).run = false) ∧
    (∃ (s : State) (f : Func) (e : Fin 64), s.seesEng f ↑e = true ∧ (s.eng ↑e).state = 1) ∧
    (∃ (s : State) (f : Func) (e : Fin 64), s.seesEng f ↑e = true ∧ (s.eng ↑e).state = 2) ∧
    (∃ (s : State) (e : Fin 64) (d : Descriptor) (data : List Byte), d.dataOk data = true ∧ s.dev.por = false ∧ (s.eng ↑e).state = 1 ∧
      (s.eng ↑e).head ≠ (s.eng ↑e).tail ∧ (s.eng ↑e).asked = true ∧ 2 ≤ s.rd 0x5000 1 ∧ d.malformed = true) ∧
    (∃ (s : State) (e : Fin 64) (d : Descriptor) (data : List Byte), d.dataOk data = true ∧ s.dev.por = false ∧ (s.eng ↑e).state = 1 ∧
      (s.eng ↑e).head ≠ (s.eng ↑e).tail ∧ (s.eng ↑e).asked = true ∧ 2 ≤ s.rd 0x5000 1 ∧ d.malformed = false ∧ s.dmaTarget (↑e) d ≠ 0) ∧
    (∃ (s : State) (e : Fin 64) (d : Descriptor) (data : List Byte), d.dataOk data = true ∧ s.dev.por = false ∧ (s.eng ↑e).state = 1 ∧
      (s.eng ↑e).head ≠ (s.eng ↑e).tail ∧ (s.eng ↑e).asked = true ∧ 2 ≤ s.rd 0x5000 1 ∧ d.malformed = false ∧ s.dmaTarget (↑e) d = 0 ∧ ∃
      (hostError : Bool), hostError = false ∧ d.target = 0 ∧ ∃ (p : Nat), p = s.rd (winObj d.window) 2 + d.offset ∧ p % 16 = 0 ∧ p +
      d.length.toNat ≤ 2 ^ 35 ∧ s.inZeroing p = false ∧ (wordSpots p d.length.toNat).all s.memServes = true ∧ (∀ (a : Nat), s.wordOffline
      a = false) ∧ (∀ (a : Nat), SMap.get (fun _ => 0) s.mem.errs a ≠ 2) ∧ d.control.getLsbD 5 = false ∧ d.control.getLsbD 4 = false) :=
  ⟨⟨up [o 0x5010 6 1], 0, 4, none, by decide +kernel, by decide +kernel, _, rfl, by decide +kernel⟩,
⟨up [o 0x5010 7 2], 0, 4, none, by decide +kernel, by decide +kernel, _, rfl, by decide +kernel, by decide +kernel, _, rfl⟩,
⟨up [], 0, 0, 4, none, false, by decide +kernel, by decide +kernel, _, rfl, by decide +kernel⟩,
⟨up [o 0x4200 1 1, o 0x4200 2 0, o 0x4200 3 0x10000, o 0x4200 5 1], 0, 0, 4, none, false, 0, 0, by decide +kernel, by decide +kernel,
    _, rfl, by decide +kernel, by decide +kernel, by decide +kernel, _, rfl, by decide +kernel⟩,
⟨{ up [] with host := { tags := ⟨[(0, some ⟨0, 5, false⟩)]⟩ } }, 0, ⟨0, 5, false⟩, by decide +kernel⟩,
⟨{ up [] with host := { tags := ⟨[(0, some ⟨0, 5, false⟩)]⟩ } }, 0, ⟨0, 5, false⟩, by decide +kernel⟩,
⟨{ up [o 0x5100 1 1, o 0x5100 2 0, o 0x4200 1 1, o 0x4200 2 0, o 0x4200 3 0x10000, o 0x4200 5 1] with host := { engines := ⟨[(0, { state := 1 })]⟩ } },
    ⟨0, 0⟩, 0, by decide +kernel⟩,
⟨{ up [o 0x5100 1 1, o 0x5100 2 0, o 0x4200 1 1, o 0x4200 2 0, o 0x4200 3 0x10000, o 0x4200 5 1] with host := { engines := ⟨[(0, { log2 := 4 })]⟩ } },
    ⟨0, 0⟩, 0, by decide +kernel⟩,
⟨{ up [o 0x5100 1 1, o 0x5100 2 0, o 0x4200 1 1, o 0x4200 2 0, o 0x4200 3 0x10000, o 0x4200 5 1] with host := { engines := ⟨[(0, { state := 1 })]⟩ } },
    ⟨0, 0⟩, 0, by decide +kernel⟩,
⟨{ up [o 0x5100 1 1, o 0x5100 2 0, o 0x4200 1 1, o 0x4200 2 0, o 0x4200 3 0x10000, o 0x4200 5 1] with host := { engines := ⟨[(0, { state := 2 })]⟩ } },
    ⟨0, 0⟩, 0, by decide +kernel⟩,
⟨{ up [o 0x5100 1 1, o 0x5100 2 0, o 0x4200 1 1, o 0x4200 2 0, o 0x4200 3 0x10000, o 0x4200 5 1] with host := { engines := ⟨[(0, { state := 1, log2 := 4, tail := 1, asked := true })]⟩ } },
    0, ⟨0, 0, 0, 0, 0⟩, [], by decide +kernel⟩,
⟨{ up [o 0x5100 1 1, o 0x5100 2 0, o 0x4200 1 1, o 0x4200 2 0, o 0x4200 3 0x10000, o 0x4200 5 1] with host := { engines := ⟨[(0, { state := 1, log2 := 4, tail := 1, asked := true })]⟩ } },
    0, ⟨0, 1 <<< 31, 16, 0, 0⟩, List.replicate 16 0, by decide +kernel⟩,
⟨{ up [o 0x5100 1 1, o 0x5100 2 0, o 0x4200 1 1, o 0x4200 2 0, o 0x4200 3 0x10000, o 0x4200 5 1] with host := { engines := ⟨[(0, { state := 1, log2 := 4, tail := 1, asked := true })]⟩ } },
    0, ⟨0, 0, 16, 0, 0⟩, List.replicate 16 0, by decide +kernel, by decide +kernel, by decide +kernel, by decide +kernel,
    by decide +kernel, by decide +kernel, by decide +kernel, by decide +kernel, _, rfl, by decide +kernel, _, rfl, by decide +kernel,
    by decide +kernel, by decide +kernel, by decide +kernel, online _ rfl rfl rfl rfl,
    (by intro a h; have h2 : (0 : Nat) = 2 := h; cases h2), by decide +kernel⟩⟩

/-- Obligations.ApexCompletes: for each clause a state and operands that meet its hypotheses. -/
theorem witness_apexCompletes :
    (∃ (s : State), s.dev.por = false ∧ s.rd 0x1020 1 = 0 ∧ s.rd 0x8000 3 ≠ 0 ∧ s.fromHost = true) ∧
    (∃ (s : State) (img0 : Option FwImage) (f : FwImage), s.dev.por = false ∧ s.rd 0x1020 1 = 0 ∧ s.rd 0x8000 3 ≠ 0 ∧ s.fromHost = false
      ∧ img0 = some f ∧ s.fwReason f = 0) ∧
    (∃ (s : State) (img0 img1 : Option FwImage) (f : FwImage), s.dev.por = false ∧ s.rd 0x1020 1 = 0 ∧ s.rd 0x8000 3 ≠ 0 ∧ s.fromHost =
      false ∧ (∀ (f : FwImage), img0 = some f → s.fwReason f ≠ 0) ∧ img1 = some f ∧ s.fwReason f = 0) ∧
    (∃ (s : State) (img0 img1 : Option FwImage), s.dev.por = false ∧ s.rd 0x1020 1 = 0 ∧ s.rd 0x8000 3 ≠ 0 ∧ s.fromHost = false ∧ (∀ (f :
      FwImage), img0 = some f → s.fwReason f ≠ 0) ∧ (∀ (f : FwImage), img1 = some f → s.fwReason f ≠ 0)) ∧
    (∃ (s : State) (q : Req) (v : BitVec 8), s.writeAbort q 0x1020 5 1 v.toNat = 0) ∧
    (∃ (s : State) (die : Fin 2), s.dev.por = false ∧ (¬↑die ∈ s.dev.awake)) ∧
    (∃ (s : State) (die : Fin 2), s.fwUp = true ∧ ↑die ∈ s.dev.awake ∧ s.apexBusy ↑die = false ∧ s.mgt.idleFrom.getD (↑die) 0 + 1000000 ≤
      s.now) ∧
    (∃ (s : State) (die : Fin 2), s.fwUp = true ∧ ↑die ∈ s.dev.awake ∧ s.mgt.served.getD (↑die) 0 + 100000000 ≤ s.now) :=
  ⟨⟨{ up [o 0x1020 1 0] with dev := { (up []).dev with mode := 1 } }, by decide +kernel⟩,
⟨up [o 0x1020 1 0], some ⟨true, true, 0, 0, true, 0, 1⟩, ⟨true, true, 0, 0, true, 0, 1⟩, by decide +kernel⟩,
⟨up [o 0x1020 1 0], none, some ⟨true, true, 0, 0, true, 0, 1⟩, ⟨true, true, 0, 0, true, 0, 1⟩, by decide +kernel, by decide +kernel,
    by decide +kernel, by decide +kernel, (by intro f h; cases h), by decide +kernel⟩,
⟨up [o 0x1020 1 0], none, none, by decide +kernel, by decide +kernel, by decide +kernel, by decide +kernel, (by intro f h; cases h),
    (by intro f h; cases h)⟩,
⟨{ up [o 0x1020 1 1] with dev := { (up []).dev with mode := 1 } }, .pf 0, 1, by decide +kernel⟩,
⟨{ up [] with dev := { (up []).dev with awake := [1] } }, 0, by decide +kernel⟩,
⟨up [], 0, by decide +kernel⟩,
⟨up [], 0, by decide +kernel⟩⟩

/-- Obligations.EventCrossingsComplete: for each clause a state and operands that meet its hypotheses. -/
theorem witness_eventCrossingsComplete :
    (∃ (s : State) (d : Fin 2) (k : Fin 64), s.siteType (Site.user d k) = 2 ∧ s.cellOn (Site.user d k) true = true ∧ s.pulseFed
      (Site.user d k) = true) ∧
    (∃ (s : State) (d : Fin 2) (k : Fin 64), s.siteType (Site.user d k) = 2 ∧ s.cellOn (Site.user d k) true = true ∧ (s.cellAt (siteNum
      (Site.user d k))).srcToggle ≠ (s.cellAt (siteNum (Site.user d k))).retToggle ∧ (s.cellAt (siteNum (Site.user d k))).presented =
      true ∧ s.fab.bitOut (siteRegion (Site.user d k)) (siteSlot (Site.user d k) + 14) = false ∧ s.fab.ack (BSrc.site (siteRegion
      (Site.user d k)) (siteSlot (Site.user d k) + 14)) = false ∧ ∃ (t : State), s.cycleDecide (siteRegion (Site.user d k)) (bitChan
      (Site.user d k) 1) = some t) ∧
    (∃ (s : State) (d : Fin 2) (k : Fin 64), s.siteType (Site.user d k) = 2 ∧ s.cellOn (Site.user d k) true = false ∧ s.cellOn (Site.user
      d k) false = true ∧ (s.cellAt (siteNum (Site.user d k))).srcToggle ≠ (s.cellAt (siteNum (Site.user d k))).retToggle ∧ ∃ (t :
      State), s.bitTake (siteRegion (Site.user d k)) (siteSlot (Site.user d k) + 14) = some t) ∧
    (∃ (s : State) (d : Fin 2) (k : Fin 64), s.siteType (Site.user d k) = 2 ∧ s.cellOn (Site.user d k) false = true ∧ (s.cellAt (siteNum
      (Site.user d k))).srcToggle = (s.cellAt (siteNum (Site.user d k))).retToggle ∧ ∃ (t : State), s.bitTake (siteRegion (Site.user d
      k)) (siteSlot (Site.user d k) + 14) = some t ∧ ∃ (t1 : State), s.enterIsland (Site.user d k) (bitChan (Site.user d k) 0) = some t1) ∧
    (∃ (s : State) (d : Fin 2) (k : Fin 64), s.siteType (Site.user d k) = 3 ∧ s.cellOn (Site.user d k) true = true ∧ s.pulseFed
      (Site.user d k) = true) ∧
    (∃ (s : State) (d : Fin 2) (k : Fin 64), s.siteType (Site.user d k) = 3 ∧ s.cellOn (Site.user d k) false = true ∧ (s.cellAt (siteNum
      (Site.user d k))).outstanding < 63 ∧ ∃ (t : State), s.bitTake (siteRegion (Site.user d k)) (siteSlot (Site.user d k) + 14) = some t
      ∧ ∃ (t1 : State), t.enterIsland (Site.user d k) (bitChan (Site.user d k) 0) = some t1) ∧
    (∃ (s : State) (d : Fin 2) (k : Fin 64), (s.cellAt (siteNum (Site.user d k))).epochF = (s.cellAt (siteNum (Site.user d k))).epochI) ∧
    (∃ (s : State) (r : Region), (¬rn r ∈ s.dev.timeWaiters) ∧ SMap.get (fun _ => []) s.fab.siteOut (rn r * 16 + 13) = [] ∧ ∃ (t :
      State), s.siteTakeAny (rn r) 13 = some t) :=
  ⟨⟨{ up [o 0xA100 1 0x8600, o 0xA040 2 2, o 0x6010 1 1, o 0x6010 2 0x120, o 0x6008 3 1] with pin := { enabled := true } }, 0, 0,
    by decide +kernel⟩,
⟨{ up [o 0xA100 1 0x8600, o 0xA040 2 2] with cell := { recs := ⟨[(0, { srcToggle := true, presented := true })]⟩ } }, 0, 0,
    by decide +kernel, by decide +kernel, by decide +kernel, by decide +kernel, by decide +kernel, by decide +kernel,
    Option.isSome_iff_exists.mp (by decide +kernel)⟩,
⟨{ up [o 0xA100 1 0x8200, o 0xA040 2 2] with cell := { recs := ⟨[(0, { srcToggle := true })]⟩ }, fab := { gsr := false, lus := ⟨[(0, { cfg := some (lc 1 0 0), full := true })]⟩, chordOut := ⟨[(0, 0)]⟩, spanBitSite := ⟨[(28, 0)]⟩ } },
    0, 0, by decide +kernel, by decide +kernel, by decide +kernel, by decide +kernel, Option.isSome_iff_exists.mp (by decide +kernel)⟩,
⟨{ up [o 0xA100 1 0x8200, o 0xA040 2 2] with fab := { gsr := false, lus := ⟨[(0, { cfg := some (lc 1 0 0), full := true })]⟩, chordOut := ⟨[(0, 0)]⟩, spanBitSite := ⟨[(28, 0)]⟩ } },
    0, 0, by decide +kernel, by decide +kernel, by decide +kernel, _, (Option.some_get (by decide +kernel)).symm,
    Option.isSome_iff_exists.mp (by decide +kernel)⟩,
⟨{ up [o 0xA100 1 0x8700, o 0xA040 2 2, o 0x6010 1 1, o 0x6010 2 0x120, o 0x6008 3 1] with pin := { enabled := true } }, 0, 0,
    by decide +kernel⟩,
⟨{ up [o 0xA100 1 0x8300, o 0xA040 2 2] with fab := { gsr := false, lus := ⟨[(0, { cfg := some (lc 1 0 0), full := true })]⟩, chordOut := ⟨[(0, 0)]⟩, spanBitSite := ⟨[(28, 0)]⟩ } },
    0, 0, by decide +kernel, by decide +kernel, by decide +kernel, _, (Option.some_get (by decide +kernel)).symm,
    Option.isSome_iff_exists.mp (by decide +kernel)⟩,
⟨up [], 0, 0, by decide +kernel⟩,
⟨up [], ⟨0, 0⟩, by decide +kernel, by decide +kernel, Option.isSome_iff_exists.mp (by decide +kernel)⟩⟩

/-- Obligations.FenceRequestsComplete: for each clause a state and operands that meet its hypotheses. -/
theorem witness_fenceRequestsComplete :
    (∃ (s : State) (q : Req) (r : Region) (force : Bool), s.writeAbort q (regObj (rn r)) 3 1 (1 + 4 * force.toNat) = 0) ∧
    (∃ (s : State) (q : Req) (r : Region) (force : Bool), s.writeAbort q (regObj (rn r)) 3 1 (2 + 4 * force.toNat) = 0) ∧
    (∃ (s : State) (q : Req) (r : Region) (v : BitVec 8), s.writeAbort q (regObj (rn r)) 6 1 v.toNat = 0 ∧ 2 ≤ s.regState (rn r) ∧ s.rd
      (regObj (rn r)) 7 ≠ 1 ∧ s.rd (regObj (rn r)) 7 ≠ 2) :=
  ⟨⟨up [], .kimbe, ⟨0, 0⟩, false, by decide +kernel⟩,
⟨up [], .kimbe, ⟨0, 0⟩, false, by decide +kernel⟩,
⟨up [], .kimbe, ⟨0, 0⟩, 1, by decide +kernel⟩⟩

/-- Obligations.FenceStepsComplete: for each clause a state and operands that meet its hypotheses. -/
theorem witness_fenceStepsComplete :
    (∃ (s : State) (r : Region), s.rd (regObj (rn r)) 7 = 1 ∧ s.slotRuns (rn r) = false) ∧
    (∃ (s : State) (r : Region), s.rd (regObj (rn r)) 7 = 2 ∧ s.regState (rn r) = 4 ∧ s.resetTurn (rn r / 32) = some (rn r)) ∧
    (∃ (s : State) (r : Region) (ch : BitVec 32), s.regState (rn r) = 3 ∧ ch.toNat ∈ s.borderChannels (s.fab.fence (rn r)).members (rn r)
      ∧ (¬ch.toNat ∈ (s.fab.fence (rn r)).closed) ∧ s.chanAtRest ch.toNat = true) ∧
    (∃ (s : State) (r : Region), s.regState (rn r) = 3 ∧ (s.fab.fence (rn r)).hold = true ∧ (s.fab.fence (rn r)).settled = false ∧
      s.lusSettled (rn r) = true) ∧
    (∃ (s : State) (r : Region), s.regState (rn r) = 3 ∧ (s.fab.fence (rn r)).start + 1000 * (s.fab.fence (rn r)).timeout ≤ s.now ∧
      (s.fab.fence (rn r)).forcedClose = false) :=
  ⟨⟨up [o 0xC100 7 1], ⟨0, 0⟩, by decide +kernel⟩,
⟨upFab [o 0xC100 7 2, o 0xC100 2 4] { gsr := false, resets := [0] }, ⟨0, 0⟩, by decide +kernel⟩,
⟨upFab [o 0xC100 2 3] { gsr := false, spanWordSite := ⟨[(3, 0)]⟩ }, ⟨0, 0⟩, BitVec.ofNat 32 (chanId 3 0 0 0 3), by decide +kernel⟩,
⟨upFab [o 0xC100 2 3] { gsr := false, fences := ⟨[(0, { hold := true })]⟩ }, ⟨0, 0⟩, by decide +kernel⟩,
⟨upFab [o 0xC100 2 3] { gsr := false, fences := ⟨[(0, { timeout := 10 })]⟩ }, ⟨0, 0⟩, by decide +kernel⟩⟩

/-- Obligations.FullLoadsComplete: for each clause a state and operands that meet its hypotheses. -/
theorem witness_fullLoadsComplete :
    (∃ (s : State) (held : Bool), s.fwUp = true ∧ s.annulusUp = true ∧ s.rd 0x2000 1 = 0 ∧ s.dev.bootHeld = false ∧ s.dev.mode < 5 ∧
      s.cfg.reconfig = none ∧ held = true) ∧
    (∃ (s : State), s.fwUp = true ∧ s.annulusUp = true ∧ s.rd 0x2000 1 = 0 ∧ s.dev.bootHeld = false ∧ s.dev.mode < 5 ∧ s.cfg.reconfig =
      none ∧ ∃ (held : Bool), held = false ∧ ({ s with dev := { s.dev with extInitLow := false } } : State).step4Waits = false) ∧
    (∃ (s : State), s.dev.bootHeld = true ∧ s.dev.mode < 5 ∧ ({ s with dev := { s.dev with extInitLow := false } } : State).step4Waits =
      false) ∧
    (∃ (s : State) (c : Container) (readbackOk : Bool), s.fullRuns = true ∧ ∃ (c' : Container), c' = { c with headerOk := c.headerOk &&
      s.imageThere } ∧ ∃ (t : State),
      t = (let s0 := if s.fromHost = true then s.wr (loadObj 0) 7 (c.bytes % 2 ^ 32) else s; if s0.cfg.tried < 4 ∧ c.headerOk = true ∧ s.imageThere = true then s0.wr (imageObj s0.cfg.tried) 3 c.version.toNat else s0)
      ∧ ∃ (t' : State), t' = t.each (fun (u : Machine.State) (n : Nat) => State.stageBank c n (u.activeBank n) u) c.targets ∧ firstReject
      [t.stageReject c' true 8192 896 (if s.fromHost = true then (s.load 0).owner else 1), t.commitReject (t.loaded c) c 8192 896] = none
      ∧ readbackOk = true ∧ t'.banksPoison t'.activeBank c.targets = none) ∧
    (∃ (s : State) (c : Container), s.fullRuns = true ∧ ∃ (c' : Container), c' = { c with headerOk := c.headerOk && s.imageThere } ∧ ∃ (t
      : State),
      t = (let s0 := if s.fromHost = true then s.wr (loadObj 0) 7 (c.bytes % 2 ^ 32) else s; if s0.cfg.tried < 4 ∧ c.headerOk = true ∧ s.imageThere = true then s0.wr (imageObj s0.cfg.tried) 3 c.version.toNat else s0)
      ∧ ∃ (t' : State), t' = t.each (fun (u : Machine.State) (n : Nat) => State.stageBank c n (u.activeBank n) u) c.targets ∧ ∃ (r :
      Reject), firstReject [t.stageReject c' true 8192 896 (if s.fromHost = true then (s.load 0).owner else 1), t.commitReject (t.loaded
      c) c 8192 896] = some r) ∧
    (∃ (s : State), s.fullRuns = true) ∧
    (∃ (s : State), s.rd 0x2000 1 = 2 ∧ s.dev.doneLow = false) ∧
    (∃ (s : State), s.leads = true ∧ s.rd 0x2000 1 = 2 ∧ s.cfg.doneAt + 1000000 * s.rd 0x2000 8 ≤ s.now) ∧
    (∃ (s : State) (q : Req) (v : BitVec 8), s.writeAbort q 0x2000 5 1 v.toNat = 0 ∧ s.cfg.accepting = true ∧ s.now < s.rd 0x2000 6) ∧
    (∃ (s : State) (q : Req) (v : BitVec 8), s.writeAbort q 0x2000 5 1 v.toNat = 0 ∧ s.cfg.accepting = false) ∧
    (∃ (s : State), s.cfg.accepting = true ∧ s.rd 0x2000 6 ≤ s.now) ∧
    (∃ (s : State), s.dev.por = false ∧ s.fwUp = true ∧ s.cfg.reconfig = none) ∧
    (∃ (s : State) (q : Req) (v : BitVec 8), s.writeAbort q 0x2000 9 1 v.toNat = 0 ∧ s.cfg.reconfig = none) ∧
    (∃ (s : State) (f : KFrame), s.dev.por = false ∧ (s.rd 0x1010 5).testBit 0 = true ∧ f.cmd = 5 ∧ (f.crcOk = false ∨ f.cut = true)) ∧
    (∃ (s : State) (f : KFrame) (first : Option Nat), s.dev.por = false ∧ (s.rd 0x1010 5).testBit 0 = true ∧ f.cmd = 5 ∧ f.crcOk = true ∧
      f.cut = false ∧ f.hops < 63 ∧ s.dev.mode = 2 ∧ (s.rd 0x1010 5).testBit 1 = true ∧ s.mgt.cfgFwd = true ∧ s.mgt.heldCfg = none ∧
      first = none) ∧
    (∃ (s : State) (f : KFrame) (first : Option Nat) (k : Nat), s.dev.por = false ∧ (s.rd 0x1010 5).testBit 0 = true ∧ f.cmd = 5 ∧
      f.crcOk = true ∧ f.cut = false ∧ f.hops < 63 ∧ s.dev.mode = 2 ∧ first = some k) :=
  ⟨⟨up [o 0x2000 1 0], true, by decide +kernel⟩,
⟨up [o 0x2000 1 0], by decide +kernel, by decide +kernel, by decide +kernel, by decide +kernel, by decide +kernel, by decide +kernel,
    _, rfl, by decide +kernel⟩,
⟨{ up [] with dev := { (up []).dev with bootHeld := true } }, by decide +kernel⟩,
⟨up [o 0x2000 1 1, o 0x8000 2 1, o 0x8000 0xC 1, o 0x8010 3 1], cont true, true, by decide +kernel, _, rfl,
    (up [o 0x2000 1 1, o 0x8000 2 1, o 0x8000 0xC 1, o 0x8010 3 1]).wr (imageObj 0) 3 0, by decide +kernel, _, rfl,
    (firstReject_pair (by decide +kernel) (cont_passes true _ _ _ _ (quiet_of_cells (by unfold quietKey; decide +kernel)) rfl)),
    by decide +kernel⟩,
⟨up [o 0x2000 1 1], { cont true with headerOk := false }, by decide +kernel, _, rfl, up [o 0x2000 1 1], by decide +kernel, _, rfl,
    Option.isSome_iff_exists.mp (by decide +kernel)⟩,
⟨up [o 0x2000 1 1], by decide +kernel⟩,
⟨up [o 0x2000 1 2], by decide +kernel⟩,
⟨{ up [o 0x2000 1 2, o 0x2000 8 10] with dev := { (up []).dev with mode := 3 } }, by decide +kernel⟩,
⟨{ up [o 0x2000 6 200000000000] with cfg := { accepting := true } }, .kimbe, 1, by decide +kernel⟩,
⟨up [], .kimbe, 1, by decide +kernel⟩,
⟨{ up [o 0x2000 6 5] with cfg := { accepting := true } }, by decide +kernel⟩,
⟨up [], by decide +kernel⟩,
⟨up [], .kimbe, 1, by decide +kernel⟩,
⟨up [o 0x1010 5 3, o 0x1010 2 5], { kframe 5 5 1 [] with cut := true }, by decide +kernel⟩,
⟨{ up [o 0x1010 5 3, o 0x1010 2 5] with dev := { (up []).dev with mode := 2 }, mgt := { cfgFwd := true } }, kframe 5 5 1 [], none,
    by decide +kernel⟩,
⟨{ up [o 0x1010 5 3, o 0x1010 2 5] with dev := { (up []).dev with mode := 2 } }, kframe 5 5 1 [], some 1, 1, by decide +kernel⟩⟩

/-- Obligations.InitSetsTheLatch: for each clause a state and operands that meet its hypotheses. -/
theorem witness_initSetsTheLatch :
    (∃ (s : State) (c : LuCfg), c.mode < 2) ∧
    (∃ (s : State) (u : LuLoc) (c : LuCfg), s.rd 0x2000 1 = 2 ∧ s.dev.doneLow = false ∧ s.regState (rn ⟨u.die, u.region⟩) = 1 ∧ (s.fab.lu
      (un u)).cfg = some c ∧ c.mode < 2) :=
  ⟨⟨up [], lc 4 1 0, by decide +kernel⟩,
⟨upFab [o 0x2000 1 2, o 0xC100 2 1] { lus := ⟨[(0, { cfg := some (lc 4 1 0) })]⟩ }, lu0, lc 4 1 0, by decide +kernel⟩⟩

/-- Obligations.IslandsAndTimeComplete: for each clause a state and operands that meet its hypotheses. -/
theorem witness_islandsAndTimeComplete :
    (∃ (s : State) (q : Req) (i : Island) (v : BitVec 8), s.writeAbort q (islObj ↑i.die ↑i.i) 3 1 v.toNat = 0 ∧ s.resetWait (islandLoop
      i) = none) ∧
    (∃ (s : State) (q : Req) (i : Island) (v : BitVec 8), s.writeAbort q (islObj ↑i.die ↑i.i) 5 1 v.toNat = 0 ∧ s.resetWait (islandLoop
      i) = none) ∧
    (∃ (s : State), s.rd 0xA000 1 ≠ 2) ∧
    (∃ (s : State), s.rd 0xA000 1 = 2) ∧
    (∃ (s : State), s.rd 0xA000 2 = 1) ∧
    (∃ (s : State), s.rd 0xA000 2 ≠ 1) ∧
    (∃ (s : State) (q : Req) (v : BitVec 64), s.writeAbort q 0xA200 5 8 v.toNat = 0) ∧
    (∃ (s : State), s.dev.por = false) :=
  ⟨⟨up [], .kimbe, ⟨0, 0⟩, 1, by decide +kernel⟩,
⟨up [], .kimbe, ⟨0, 0⟩, 1, by decide +kernel⟩,
⟨up [], by decide +kernel⟩,
⟨up [o 0xA000 1 2], by decide +kernel⟩,
⟨up [o 0xA000 2 1], by decide +kernel⟩,
⟨up [], by decide +kernel⟩,
⟨up [], .kimbe, 0, by decide +kernel⟩,
⟨up [], by decide +kernel⟩⟩

/-- Obligations.JtagCompletes: for each clause a state and operands that meet its hypotheses. -/
theorem witness_jtagCompletes :
    (∃ (s : State), s.pinsLive = true ∧ (s.rd 0x8000 5).testBit 3 = true) ∧
    (∃ (s : State), s.pinsLive = true ∧ (s.rd 0x8000 5).testBit 3 = true) ∧
    (∃ (s : State), s.pinsLive = true ∧ (s.rd 0x8000 5).testBit 3 = true) ∧
    (∃ (s : State), (s.pinsLive = true → (s.rd 0x8000 5).testBit 3 = false)) ∧
    (∃ (s : State), (s.pinsLive = true → (s.rd 0x8000 5).testBit 3 = false)) ∧
    (∃ (s : State), (s.pinsLive = true → (s.rd 0x8000 5).testBit 3 = false)) ∧
    (∃ (s : State) (t : DebugToken), s.dev.por = false ∧ t.domain < 256) ∧
    (∃ (s : State), s.dev.por = false ∧ s.jtagMay 1 3 = true) :=
  ⟨⟨up [o 0x8000 5 8], by decide +kernel⟩,
⟨up [o 0x8000 5 8], by decide +kernel⟩,
⟨up [o 0x8000 5 8], by decide +kernel⟩,
⟨up [], by decide +kernel⟩,
⟨up [], by decide +kernel⟩,
⟨up [], by decide +kernel⟩,
⟨up [], dtok, by decide +kernel⟩,
⟨up [o 0x8041 4 1, o 0x8041 5 0xF, o 0x8041 6 200000000000], by decide +kernel⟩⟩

/-- Obligations.KeysAndProgrammingComplete: for each clause a state and operands that meet its hypotheses. -/
theorem witness_keysAndProgrammingComplete :
    (∃ (s : State), s.dev.por = false ∧ s.dev.keysDue = true ∧ s.dev.tamperLow = false) ∧
    (∃ (s : State) (q : Req) (k : Fin 4) (v : BitVec 384) (otp : OtpResult), s.writeAbort q (0x8010 + ↑k) 1 48 v.toNat = 0 ∧ otp =
      OtpResult.ok) ∧
    (∃ (s : State) (q : Req) (k : Fin 4) (v : BitVec 384) (otp : OtpResult), s.writeAbort q (0x8010 + ↑k) 1 48 v.toNat = 0 ∧ otp ≠
      OtpResult.ok ∧ s.rd (0x8010 + ↑k) 1 ||| v.toNat ≠ s.rd (0x8010 + ↑k) 1) ∧
    (∃ (s : State) (q : Req) (k : Fin 4) (v : BitVec 384) (otp : OtpResult), s.writeAbort q (0x8010 + ↑k) 2 48 v.toNat = 0 ∧ otp =
      OtpResult.ok) ∧
    (∃ (s : State) (q : Req) (k : Fin 4) (v : BitVec 384) (otp : OtpResult), s.writeAbort q (0x8010 + ↑k) 2 48 v.toNat = 0 ∧ otp ≠
      OtpResult.ok ∧ s.rd (0x8010 + ↑k) 2 ||| v.toNat ≠ s.rd (0x8010 + ↑k) 2) ∧
    (∃ (s : State) (q : Req) (k : Fin 4) (v : BitVec 8), s.writeAbort q (0x8010 + ↑k) 4 1 v.toNat = 0) ∧
    (∃ (s : State) (q : Req) (f : OtpField) (v : BitVec 256) (otp : OtpResult), ∃ (idx : Nat) (sub : Nat) (len : Nat) (field : Nat),
      otpPlace f = (idx, sub, len, field) ∧ s.writeAbort q idx sub len (v.toNat % 256 ^ len) = 0 ∧ otp = OtpResult.ok) ∧
    (∃ (s : State) (q : Req) (blob : List Byte) (unwrapOk : Bool) (otp : OtpResult), s.writeAbort q 0x8000 11 blob.length unwrapOk.toNat
      = 0 ∧ otp = OtpResult.ok) ∧
    (∃ (s : State) (c : Fin 64), s.dev.por = false ∧ s.ctrFused ↑c < s.ctrPending ↑c ∧ SMap.get (fun _ => 0) s.sec.retryAt ↑c ≤ s.now) ∧
    (∃ (s : State), s.sec.drbgLive = true ∧ (2 ^ 20 ≤ s.sec.drbgRequests ∨ s.sec.reseededAt + 10 ^ 10 ≤ s.now)) ∧
    (∃ (s : State) (test : Fin 3), s.dev.por = false ∧ s.rd 0x8000 8 = if ↑test = 0 then 0 else 1) :=
  ⟨⟨{ up [] with dev := { (up []).dev with keysDue := true } }, by decide +kernel⟩,
⟨up [o 0x8000 2 0], .kimbe, 0, 1, .ok, by decide +kernel⟩,
⟨up [o 0x8000 2 0], .kimbe, 0, 1, .vfuse, by decide +kernel⟩,
⟨up [o 0x8000 2 0], .kimbe, 0, 1, .ok, by decide +kernel⟩,
⟨up [o 0x8000 2 0], .kimbe, 0, 1, .vfuse, by decide +kernel⟩,
⟨up [o 0x8041 4 1, o 0x8041 5 0xF, o 0x8041 6 200000000000, o 0x8010 3 1, o 0x8011 3 1], .kimbe, 0, 1, by decide +kernel⟩,
⟨up [o 0x8041 4 1, o 0x8041 5 0xF, o 0x8041 6 200000000000], .kimbe, .userOtp 0, 1, .ok, _, _, _, _, rfl, by decide +kernel⟩,
⟨up [o 0x8041 4 1, o 0x8041 5 0xF, o 0x8041 6 200000000000], .kimbe, List.replicate 157 0, true, .ok, by decide +kernel⟩,
⟨{ up [] with sec := { pendingCtr := ⟨[(0, 3)]⟩ } }, 0, by decide +kernel⟩,
⟨{ up [] with sec := { drbgLive := true } }, by decide +kernel⟩,
⟨up [], 0, by decide +kernel⟩⟩

/-- Obligations.KimbeChainCompletes: for each clause a state and operands that meet its hypotheses. -/
theorem witness_kimbeChainCompletes :
    (∃ (s : State) (f : KFrame), FrameTaken s f 1 ∧ f.payload.length = 12 ∧ ∃ (next : Nat), next = octField f.payload 0 1 ∧
      s.actingLeader = true ∧ octField f.payload 4 8 = Config.serial % 2 ^ 64) ∧
    (∃ (s : State) (f : KFrame), FrameTaken s f 1 ∧ f.payload.length = 12 ∧ ∃ (next : Nat), next = octField f.payload 0 1 ∧
      s.actingLeader = true ∧ octField f.payload 4 8 ≠ Config.serial % 2 ^ 64) ∧
    (∃ (s : State) (f : KFrame), FrameTaken s f 1 ∧ f.payload.length = 12 ∧ ∃ (next : Nat), next = octField f.payload 0 1 ∧
      s.actingLeader = false ∧ ((octField f.payload 1 1).testBit 0 = true ∨ s.rd 0x1010 2 = 0) ∧ next ≤ 62) ∧
    (∃ (s : State) (f : KFrame), FrameTaken s f 1 ∧ f.payload.length = 12 ∧ ∃ (next : Nat), next = octField f.payload 0 1 ∧
      s.actingLeader = false ∧ ((octField f.payload 1 1).testBit 0 = true ∨ s.rd 0x1010 2 = 0) ∧ next = 63) ∧
    (∃ (s : State) (q : Req) (v : BitVec 8), s.writeAbort q 0x1010 12 1 v.toNat = 0 ∧ s.mgt.follower = false) ∧
    (∃ (s : State) (t : Nat), s.mgt.assignAt = some t ∧ t + 1000000 ≤ s.now) ∧
    (∃ (s : State) (inSync outUp : Bool) (v : Nat), s.dev.por = false ∧ v = inSync.toNat + 2 * (outUp && decide (s.rd 0xA000 2 =
      1)).toNat ∧ v ≠ s.rd 0x1010 5) ∧
    (∃ (s : State) (f : KFrame), FrameTaken s f 2 ∧ FrameEnds s f ∧ f.payload.length = 12 ∧ (octField f.payload 10 2 = 0 ∨ 240 < octField
      f.payload 10 2)) ∧
    (∃ (s : State) (f : KFrame), FrameTaken s f 2 ∧ FrameEnds s f ∧ f.payload.length = 12 ∧ 1 ≤ octField f.payload 10 2 ∧ octField
      f.payload 10 2 ≤ 240 ∧ userIdx (octField f.payload 2 2) = false) ∧
    (∃ (s : State) (f : KFrame), FrameTaken s f 3 ∧ FrameEnds s f ∧ 12 ≤ f.payload.length ∧ ∃ (t : State), t = (s.tally 0x1010 10
      1).kmWake f ∧ s.segment f = none) ∧
    (∃ (s : State) (f : KFrame), FrameTaken s f 3 ∧ FrameEnds s f ∧ 12 ≤ f.payload.length ∧ ∃ (t : State), t = (s.tally 0x1010 10
      1).kmWake f ∧ ∃ (l : List Byte), s.segment f = some l ∧ (octField f.payload 5 1).testBit 0 = false) ∧
    (∃ (s : State) (f : KFrame), FrameTaken s f 3 ∧ FrameEnds s f ∧ 12 ≤ f.payload.length ∧ ∃ (t : State), t = (s.tally 0x1010 10
      1).kmWake f ∧ ∃ (l : List Byte), s.segment f = some l ∧ (octField f.payload 5 1).testBit 0 = true ∧ userIdx (octField f.payload 2
      2) = false) ∧
    (∃ (s : State) (f : KFrame), FrameEnds s f ∧ FrameTaken s f 4) ∧
    (∃ (s : State) (f : KFrame), FrameEnds s f ∧ FrameTaken s f 7) ∧
    (∃ (s : State) (f : KFrame), FrameEnds s f ∧ FrameTaken s f 8 ∧ f.reply = false ∧ (s.rd 0x1010 5).testBit 1 = true) ∧
    (∃ (s : State) (f : KFrame), FrameEnds s f ∧ FrameTaken s f 6 ∧ f.payload.length = 20 ∧ s.rd 0x1010 1 = 1 ∧ s.rd 0xA200 7 ≠ 0) ∧
    (∃ (s : State) (f : KFrame), (s.rd 0x1010 5).testBit 1 = true ∧ s.mgt.held = none ∧ (↑f.src ≠ s.rd 0x1010 2 ∨ s.rd 0x1010 2 = 0) ∧
      ↑f.dest ≠ s.rd 0x1010 2 ∧ ↑f.dest ≠ 63 ∧ FrameTaken s f 2) ∧
    (∃ (s : State) (f : KFrame), (s.rd 0x1010 5).testBit 1 = true ∧ s.mgt.held = none ∧ (↑f.src ≠ s.rd 0x1010 2 ∨ s.rd 0x1010 2 = 0) ∧
      ↑f.dest ≠ s.rd 0x1010 2 ∧ ↑f.dest ≠ 63 ∧ FrameTaken s f 3) ∧
    (∃ (s : State) (f : KFrame), (s.rd 0x1010 5).testBit 1 = true ∧ s.mgt.held = none ∧ (↑f.src ≠ s.rd 0x1010 2 ∨ s.rd 0x1010 2 = 0) ∧
      ↑f.dest ≠ s.rd 0x1010 2 ∧ ↑f.dest ≠ 63 ∧ FrameTaken s f 4) ∧
    (∃ (s : State) (f : KFrame), (s.rd 0x1010 5).testBit 1 = true ∧ s.mgt.held = none ∧ (↑f.src ≠ s.rd 0x1010 2 ∨ s.rd 0x1010 2 = 0) ∧
      ↑f.dest ≠ s.rd 0x1010 2 ∧ ↑f.dest ≠ 63 ∧ FrameTaken s f 7) ∧
    (∃ (s : State) (f : KFrame), (s.rd 0x1010 5).testBit 1 = true ∧ s.mgt.held = none ∧ (↑f.src ≠ s.rd 0x1010 2 ∨ s.rd 0x1010 2 = 0) ∧
      ↑f.dest ≠ s.rd 0x1010 2 ∧ ↑f.dest ≠ 63 ∧ FrameTaken s f 8) ∧
    (∃ (s : State) (f : KFrame), (s.rd 0x1010 5).testBit 1 = true ∧ s.mgt.held = none ∧ (↑f.src ≠ s.rd 0x1010 2 ∨ s.rd 0x1010 2 = 0) ∧
      ↑f.dest ≠ s.rd 0x1010 2 ∧ ↑f.dest ≠ 63 ∧ FrameTaken s f 6 ∧ f.payload.length = 20) ∧
    (∃ (s : State), s.rd 0x1010 1 = 2 ∧ s.rd 0xA200 7 = 1 ∧ (s.rd 0x1010 5).testBit 1 = true ∧ s.cell.lastSent + 1000000 * s.rd 0xA200 8
      ≤ s.now) ∧
    (∃ (s : State), s.dev.por = false ∧ s.rd 0x1010 1 = 1 ∧ s.rd 0xA200 7 = 1 ∧ s.rd 0xA200 9 ≠ 3 ∧ s.cell.lastSync + 4000000 * s.rd
      0xA200 8 ≤ s.now) ∧
    (∃ (s : State) (f : KFrame), (s.rd 0x1010 5).testBit 1 = true ∧ s.mgt.held = some f ∧ (s.mgt.heldCfg = none ∨ s.mgt.lastCfg = true)) ∧
    (∃ (s : State) (g : KFrame), (s.rd 0x1010 5).testBit 1 = true ∧ s.mgt.heldCfg = some g ∧ (s.mgt.lastCfg = false ∨ s.mgt.held = none ∧
      s.out.kimbeEvents = [])) ∧
    (∃ (s : State) (e : EventRec × Bool) (l : List (EventRec × Bool)), (s.rd 0x1010 5).testBit 1 = true ∧ s.mgt.held = none ∧
      (s.mgt.heldCfg = none ∨ s.mgt.lastCfg = true) ∧ s.out.kimbeEvents = e :: l) :=
  ⟨⟨up [o 0x1010 5 3, o 0x1010 2 5, o 0x1010 1 2], kframe 1 63 0 ([1, 0, 0, 0] ++ octets 8 Config.serial),
    by unfold FrameTaken; decide +kernel, by decide +kernel, _, rfl, by decide +kernel, serial_field _⟩,
⟨up [o 0x1010 5 3, o 0x1010 2 5, o 0x1010 1 2], kframe 1 63 0 ([1, 0, 0, 0] ++ octets 8 (Config.serial + 1)),
    by unfold FrameTaken; decide +kernel, by decide +kernel, _, rfl, by decide +kernel, (by rw [serial_field]; omega)⟩,
⟨up [o 0x1010 5 3, o 0x1010 2 5], kframe 1 63 0 [62, 1, 0, 0, 0, 0, 0, 0, 0, 0, 0, 0], by unfold FrameTaken; decide +kernel,
    by decide +kernel, _, rfl, by decide +kernel⟩,
⟨up [o 0x1010 5 3, o 0x1010 2 5], kframe 1 63 0 [63, 1, 0, 0, 0, 0, 0, 0, 0, 0, 0, 0], by unfold FrameTaken; decide +kernel,
    by decide +kernel, _, rfl, by decide +kernel⟩,
⟨up [o 0x1010 5 3, o 0x1010 2 5, o 0x1010 1 2], .kimbe, 1, by decide +kernel⟩,
⟨{ up [o 0x1010 5 3, o 0x1010 2 5] with mgt := { assignAt := some 5 } }, 5, by decide +kernel⟩,
⟨up [], true, true, 1, by decide +kernel⟩,
⟨up [o 0x1010 5 3, o 0x1010 2 5], kframe 2 5 1 [0, 0, 0, 16, 1, 0, 0, 0, 0, 0, 0, 0], by unfold FrameTaken; decide +kernel,
    by unfold FrameEnds; decide +kernel, by decide +kernel⟩,
⟨up [o 0x1010 5 3, o 0x1010 2 5], kframe 2 5 1 [0, 0, 0, 16, 1, 0, 0, 0, 0, 0, 240, 0], by unfold FrameTaken; decide +kernel,
    by unfold FrameEnds; decide +kernel, by decide +kernel⟩,
⟨up [o 0x1010 5 3, o 0x1010 2 5], kframe 3 5 1 [0, 0, 0, 16, 1, 0, 4, 0, 0, 0, 0, 0], by unfold FrameTaken; decide +kernel,
    by unfold FrameEnds; decide +kernel, by decide +kernel, _, rfl, by decide +kernel⟩,
⟨up [o 0x1010 5 3, o 0x1010 2 5], kframe 3 5 1 [0, 0, 0, 16, 1, 0, 0, 0, 0, 0, 1, 0, 7], by unfold FrameTaken; decide +kernel,
    by unfold FrameEnds; decide +kernel, by decide +kernel, _, rfl, _, (Option.some_get (by decide +kernel)).symm, by decide +kernel⟩,
⟨up [o 0x1010 5 3, o 0x1010 2 5], kframe 3 5 1 [0, 0, 0, 16, 1, 1, 0, 0, 0, 0, 1, 0, 7], by unfold FrameTaken; decide +kernel,
    by unfold FrameEnds; decide +kernel, by decide +kernel, _, rfl, _, (Option.some_get (by decide +kernel)).symm, by decide +kernel⟩,
⟨up [o 0x1010 5 3, o 0x1010 2 5], kframe 4 5 1 [], by unfold FrameEnds; decide +kernel, by unfold FrameTaken; decide +kernel⟩,
⟨up [o 0x1010 5 3, o 0x1010 2 5], kframe 7 5 1 [], by unfold FrameEnds; decide +kernel, by unfold FrameTaken; decide +kernel⟩,
⟨up [o 0x1010 5 3, o 0x1010 2 5], kframe 8 5 1 [], by unfold FrameEnds; decide +kernel, by unfold FrameTaken; decide +kernel,
    by decide +kernel⟩,
⟨up [o 0x1010 5 3, o 0x1010 2 5, o 0x1010 1 1, o 0xA200 7 1], kframe 6 5 1 (List.replicate 20 0), by unfold FrameEnds; decide +kernel,
    by unfold FrameTaken; decide +kernel, by decide +kernel⟩,
⟨up [o 0x1010 5 3, o 0x1010 2 5], kframe 2 6 1 [], by decide +kernel, by decide +kernel, by decide +kernel, by decide +kernel,
    by decide +kernel, by unfold FrameTaken; decide +kernel⟩,
⟨up [o 0x1010 5 3, o 0x1010 2 5], kframe 3 6 1 [], by decide +kernel, by decide +kernel, by decide +kernel, by decide +kernel,
    by decide +kernel, by unfold FrameTaken; decide +kernel⟩,
⟨up [o 0x1010 5 3, o 0x1010 2 5], kframe 4 6 1 [], by decide +kernel, by decide +kernel, by decide +kernel, by decide +kernel,
    by decide +kernel, by unfold FrameTaken; decide +kernel⟩,
⟨up [o 0x1010 5 3, o 0x1010 2 5], kframe 7 6 1 [], by decide +kernel, by decide +kernel, by decide +kernel, by decide +kernel,
    by decide +kernel, by unfold FrameTaken; decide +kernel⟩,
⟨up [o 0x1010 5 3, o 0x1010 2 5], kframe 8 6 1 [], by decide +kernel, by decide +kernel, by decide +kernel, by decide +kernel,
    by decide +kernel, by unfold FrameTaken; decide +kernel⟩,
⟨up [o 0x1010 5 3, o 0x1010 2 5], kframe 6 6 1 (List.replicate 20 0), by decide +kernel, by decide +kernel, by decide +kernel,
    by decide +kernel, by decide +kernel, by unfold FrameTaken; decide +kernel, by decide +kernel⟩,
⟨up [o 0x1010 5 3, o 0x1010 2 5, o 0x1010 1 2, o 0xA200 7 1], by decide +kernel⟩,
⟨up [o 0x1010 5 3, o 0x1010 2 5, o 0x1010 1 1, o 0xA200 7 1], by decide +kernel⟩,
⟨{ up [o 0x1010 5 3, o 0x1010 2 5] with mgt := { held := some (kframe 8 5 1 []) } }, kframe 8 5 1 [], by decide +kernel⟩,
⟨{ up [o 0x1010 5 3, o 0x1010 2 5] with mgt := { heldCfg := some (kframe 5 5 1 []) } }, kframe 5 5 1 [], by decide +kernel⟩,
⟨{ up [o 0x1010 5 3, o 0x1010 2 5] with out := { kimbeEvents := [(⟨0x0101, 3, 0, 0, 0, 0, 0⟩, false)] } },
    (⟨0x0101, 3, 0, 0, 0, 0, 0⟩, false), [], by decide +kernel⟩⟩

/-- Obligations.LinkSecurityComplete: for each clause a state and operands that meet its hypotheses. -/
theorem witness_linkSecurityComplete :
    (∃ (s : State) (f : Fin 9), s.hostUp ↑f = true ∧ s.rd 0x8000 3 = 1) ∧
    (∃ (s : State) (f : Fin 9), s.hostUp ↑f = true) ∧
    (∃ (s : State) (f : Fin 9), s.hostUp ↑f = true ∧ SMap.get (fun _ => false) s.host.sessions ↑f = true) ∧
    (∃ (s : State) (stream : Fin 9) (f : Nat), SMap.get (fun _ => none) s.host.ide ↑stream = some (f, true)) ∧
    (∃ (s : State) (f : Func) (stream : Fin 9), s.hostUp ↑f.f = true ∧ SMap.get (fun _ => false) s.host.sessions ↑f.f = true ∧ ↑f.f ≠ 0 ∧
      (↑f.v = 0 ∨ s.rd (vfObj ↑f.f ↑f.v) 1 = 1) ∧ s.tdi (funcCode f) = 0 ∧ ↑stream ≠ 0) ∧
    (∃ (s : State) (f : Func), s.hostUp ↑f.f = true ∧ SMap.get (fun _ => false) s.host.sessions ↑f.f = true ∧ ↑f.f ≠ 0 ∧ (↑f.v = 0 ∨ s.rd
      (vfObj ↑f.f ↑f.v) 1 = 1) ∧ s.tdi (funcCode f) = 1) ∧
    (∃ (s : State) (f : Func), s.hostUp ↑f.f = true ∧ SMap.get (fun _ => false) s.host.sessions ↑f.f = true ∧ ↑f.f ≠ 0 ∧ (↑f.v = 0 ∨ s.rd
      (vfObj ↑f.f ↑f.v) 1 = 1)) :=
  ⟨⟨up [], 0, by decide +kernel⟩,
⟨up [], 0, by decide +kernel⟩,
⟨{ up [] with host := { sessions := ⟨[(0, true)]⟩ } }, 0, by decide +kernel⟩,
⟨{ up [] with host := { ide := ⟨[(0, some (0, true))]⟩ } }, 0, 0, by decide +kernel⟩,
⟨{ up [] with host := { sessions := ⟨[(1, true)]⟩ } }, ⟨1, 0⟩, 1, by decide +kernel⟩,
⟨{ up [o 0x5011 7 1] with host := { sessions := ⟨[(1, true)]⟩ } }, ⟨1, 0⟩, by decide +kernel⟩,
⟨{ up [] with host := { sessions := ⟨[(1, true)]⟩ } }, ⟨1, 0⟩, by decide +kernel⟩⟩

/-- Obligations.LocusQueuesComplete: for each clause a state and operands that meet its hypotheses. -/
theorem witness_locusQueuesComplete :
    (∃ (s : State) (die : Fin 2) (p : Fin 128), ∃ (q : Nat), q = s.po (↑die) (↑p) 5 ∧ q < 512 ∧ s.po (↑die) (↑p) 1 ≠ 0 ∧ s.siteOpen
      (portRegion ↑die ↑p) = true ∧ s.fab.siteClosed (portRegion ↑die ↑p) (portSlot ↑p) 1 = false ∧ SMap.get (fun _ => []) s.fab.siteOut
      (portRegion ↑die ↑p * 16 + portSlot ↑p) = [] ∧ ∃ (ws : List Word) (t : State), s.readItem (↑die) q = some (ws, t)) ∧
    (∃ (s : State) (die : Fin 2) (q : Fin 512) (i : QItem), List.find? (fun (i : QItem) => !i.spill.isEmpty) (s.q ↑die ↑q).items = some i
      ∧ (s.q ↑die ↑q).onDie + i.spill.length ≤ s.qo (↑die) (↑q) 5 ∧ s.spillServes (↑die) (↑q) i.spill = true) ∧
    (∃ (s : State) (die : Fin 2) (q : Fin 512), s.qo (↑die) (↑q) 17 = 0 ∧ s.timeoutDue ↑die ↑q = true ∧ s.qo (↑die) (↑q) 15 = 0) ∧
    (∃ (s : State) (die : Fin 2) (q : Fin 512), s.qo (↑die) (↑q) 17 = 0 ∧ s.timeoutDue ↑die ↑q = true ∧ s.qo (↑die) (↑q) 15 = 1) ∧
    (∃ (s : State) (die : Fin 2) (q : Fin 512), s.qo (↑die) (↑q) 17 = 0 ∧ s.timeoutDue ↑die ↑q = true ∧ s.qo (↑die) (↑q) 15 = 2) ∧
    (∃ (s : State) (die : Fin 2) (q : Fin 512), s.qo (↑die) (↑q) 17 = 1 ∧ s.timeoutDue ↑die ↑q = true ∧ ∃ (t : State), s.logPut (64 + 512
      * ↑die + ↑q) 4 (↑q) (s.qo (↑die) (↑q) 15 <<< 32 ||| (s.stream (64 + 512 * ↑die + ↑q)).reads) = some t) ∧
    (∃ (s : State) (die : Fin 2) (q : Fin 512) (v : Nat), s.qo (↑die) (↑q) 17 = 2 ∧ s.decision (64 + 512 * ↑die + ↑q) 4 ↑q = some v ∧ v %
      2 ^ 32 = (s.stream (64 + 512 * ↑die + ↑q)).reads ∧ 0 < (s.q ↑die ↑q).level ∧ (s.q ↑die ↑q).waiting = false ∧ s.qState ↑die ↑q = 1 ∧
      s.notifyRest ↑die ↑q = true) ∧
    (∃ (s : State) (die : Fin 2) (q : Fin 512), (s.q ↑die ↑q).waiting = true ∧ s.qState ↑die ↑q = 1 ∧ ∃ (t : State), s.handOver ↑die ↑q =
      some t) ∧
    (∃ (s : State) (die : Fin 2) (q : Req) (n : Fin 512) (v : BitVec 8), s.writeAbort q (queueObj ↑die ↑n) 20 1 v.toNat = 0 ∧ s.qo (↑die)
      (↑n) 2 ≠ 0) ∧
    (∃ (s : State) (die : Fin 2) (q : Fin 512), s.qo (↑die) (↑q) 2 = 3 ∧ (kindOf (s.qo (↑die) (↑q) 4) = 1 → SMap.get (fun _ => [])
      s.fab.siteOut (portRegion (↑die) (numOf (s.qo (↑die) (↑q) 4)) * 16 + portSlot (numOf (s.qo (↑die) (↑q) 4))) = [])) :=
  ⟨⟨{ upFab [o 0xB800 1 2, o 0xB800 5 0, o 0xB100 1 1, o 0xB100 2 1, o 0xB100 3 0x1000, o 0xB100 5 64, o 0xB100 7 16, o 0xC100 1 1] { gsr := false } with loc := { queues := ⟨[(0, { items := [⟨[Word.zero], 0, 0, []⟩], batch := 1 })]⟩, ports := ⟨[]⟩ } },
    0, 0, _, rfl, by decide +kernel, by decide +kernel, by decide +kernel, by decide +kernel, by decide +kernel, _, _,
    (Option.some_get (by decide +kernel)).symm⟩,
⟨{ upFab [o 0xB100 1 1, o 0xB100 2 1, o 0xB100 3 0x1000, o 0xB100 5 64, o 0xB100 7 16, o 0xC100 1 1] { gsr := false } with loc := { queues := ⟨[(0, { items := [⟨[Word.zero], 0, 0, [0]⟩] })]⟩, ports := ⟨[]⟩ } },
    0, 0, ⟨[Word.zero], 0, 0, [0]⟩, by decide +kernel⟩,
⟨{ upFab [o 0xB100 1 1, o 0xB100 2 1, o 0xB100 3 0x1000, o 0xB100 5 64, o 0xB100 7 16, o 0xC100 1 1, o 0xB100 0xE 10, o 0xB100 0xF 0] { gsr := false } with loc := { queues := ⟨[(0, { items := [⟨[Word.zero], 0, 0, []⟩] })]⟩, ports := ⟨[]⟩ } },
    0, 0, by decide +kernel⟩,
⟨{ upFab [o 0xB100 1 1, o 0xB100 2 1, o 0xB100 3 0x1000, o 0xB100 5 64, o 0xB100 7 16, o 0xC100 1 1, o 0xB100 0xE 10, o 0xB100 0xF 1] { gsr := false } with loc := { queues := ⟨[(0, { items := [⟨[Word.zero], 0, 0, []⟩] })]⟩, ports := ⟨[]⟩ } },
    0, 0, by decide +kernel⟩,
⟨{ upFab [o 0xB100 1 1, o 0xB100 2 1, o 0xB100 3 0x1000, o 0xB100 5 64, o 0xB100 7 16, o 0xC100 1 1, o 0xB100 0xE 10, o 0xB100 0xF 2] { gsr := false } with loc := { queues := ⟨[(0, { items := [⟨[Word.zero], 0, 0, []⟩] })]⟩, ports := ⟨[]⟩ } },
    0, 0, by decide +kernel⟩,
⟨{ upFab [o 0xB100 1 1, o 0xB100 2 1, o 0xB100 3 0x1000, o 0xB100 5 64, o 0xB100 7 16, o 0xC100 1 1, o 0xB100 0xE 10, o 0xB100 0xF 0, o 0xB100 0x11 1, o 0xB100 0x12 1, o 0xB101 2 1, o 0xB101 5 64, o 0xB101 7 16] { gsr := false } with loc := { queues := ⟨[(0, { items := [⟨[Word.zero], 0, 0, []⟩] })]⟩, ports := ⟨[]⟩ } },
    0, 0, by decide +kernel, by decide +kernel, Option.isSome_iff_exists.mp (by decide +kernel)⟩,
⟨{ upFab [o 0xB100 1 1, o 0xB100 2 1, o 0xB100 3 0x1000, o 0xB100 5 64, o 0xB100 7 16, o 0xC100 1 1, o 0xB100 0xE 10, o 0xB100 0xF 0, o 0xB100 0x11 2] { gsr := false, streams := ⟨[(64, { ready := some (readyKey 4 0, 0) })]⟩ } with loc := { queues := ⟨[(0, { items := [⟨[Word.zero], 0, 0, []⟩] })]⟩, ports := ⟨[]⟩ } },
    0, 0, 0, by decide +kernel⟩,
⟨{ upFab [o 0xB100 1 1, o 0xB100 2 1, o 0xB100 3 0x1000, o 0xB100 5 64, o 0xB100 7 16, o 0xC100 1 1, o 0xB100 0x10 1, o 0xB101 2 1, o 0xB101 5 64, o 0xB101 7 16] { gsr := false } with loc := { queues := ⟨[(0, { items := [⟨[Word.zero], 0, 0, []⟩], waiting := true })]⟩, ports := ⟨[]⟩ } },
    0, 0, by decide +kernel, by decide +kernel, Option.isSome_iff_exists.mp (by decide +kernel)⟩,
⟨upFab [o 0xB100 1 1, o 0xB100 2 1, o 0xB100 3 0x1000, o 0xB100 5 64, o 0xB100 7 16, o 0xC100 1 1] { gsr := false }, 0, .kimbe, 0, 1,
    by decide +kernel⟩,
⟨upFab [o 0xB100 1 1, o 0xB100 2 3, o 0xB100 3 0x1000, o 0xB100 5 64, o 0xB100 7 16, o 0xC100 1 1] { gsr := false }, 0, 0,
    by decide +kernel⟩⟩

/-- Obligations.LocusWritesComplete: for each clause a state and operands that meet its hypotheses. -/
theorem witness_locusWritesComplete :
    (∃ (s : State) (die : Fin 2) (p : Fin 128) (w : Word), s.statusRest ↑die ↑p = true ∧ ∃ (t : State), s.siteTake (portRegion ↑die ↑p)
      (portSlot ↑p) w = some t ∧ s.po (↑die) (↑p) 1 = 1 ∧ (s.lport ↑die ↑p).tag = none ∧ (s.lport ↑die ↑p).drop = none ∧ s.tagReason
      (↑die) (↑p) (w.data.toNat % 512) w.poison = 0 ∧ s.itemWaits (↑die) (w.data.toNat % 512) = false) ∧
    (∃ (s : State) (die : Fin 2) (p : Fin 128) (w : Word), s.statusRest ↑die ↑p = true ∧ ∃ (t : State), s.siteTake (portRegion ↑die ↑p)
      (portSlot ↑p) w = some t ∧ s.po (↑die) (↑p) 1 = 1 ∧ (s.lport ↑die ↑p).tag = none ∧ (s.lport ↑die ↑p).drop = none ∧ s.tagReason
      (↑die) (↑p) (w.data.toNat % 512) w.poison ≠ 0) ∧
    (∃ (s : State) (die : Fin 2) (p : Fin 128) (w : Word) (status : Nat), s.statusRest ↑die ↑p = true ∧ ∃ (t : State), s.siteTake
      (portRegion ↑die ↑p) (portSlot ↑p) w = some t ∧ s.po (↑die) (↑p) 1 ≠ 0 ∧ (s.lport ↑die ↑p).drop = some status) ∧
    (∃ (s : State) (die : Fin 2) (p : Fin 128) (w : Word) (q prio : Nat) (close : Bool), s.statusRest ↑die ↑p = true ∧ ∃ (t : State),
      s.siteTake (portRegion ↑die ↑p) (portSlot ↑p) w = some t ∧ s.po (↑die) (↑p) 1 ≠ 0 ∧ (s.lport ↑die ↑p).drop = none ∧ ((s.lport ↑die
      ↑p).tag = some (q, prio, close) ∨ (s.lport ↑die ↑p).tag = none ∧ s.po (↑die) (↑p) 1 = 2 ∧ q = s.po (↑die) (↑p) 2 % 512 ∧ prio =
      s.po (↑die) (↑p) 3 ∧ close = true ∧ s.tagReason (↑die) (↑p) q false = 0 ∧ s.itemWaits (↑die) q = false) ∧ s.qState (↑die) q = 1 ∧
      s.wordRoom (↑die) q 1 = true ∧ (w.last = true → s.lastServes (↑die) q = true) ∧ ∃ (ws : List Word),
      ws = (match (s.q (↑die) q).part with | some (l, snd) => l | none => []) ∧ ws.length < 16) ∧
    (∃ (s : State) (die : Fin 2) (p : Fin 128) (w : Word) (q prio : Nat) (close : Bool) (r : Nat × Bool), s.statusRest ↑die ↑p = true ∧ ∃
      (t : State), s.siteTake (portRegion ↑die ↑p) (portSlot ↑p) w = some t ∧ s.po (↑die) (↑p) 1 ≠ 0 ∧ (s.lport ↑die ↑p).drop = none ∧
      (s.lport ↑die ↑p).tag = some (q, prio, close) ∧ s.qState (↑die) q = 1 ∧ ∃ (ws : List Word), (s.q (↑die) q).part = some (ws, r) ∧
      ws.length = 16) :=
  ⟨⟨upFab [o 0xB800 1 1, o 0xB100 1 1, o 0xB100 2 1, o 0xB100 3 0x1000, o 0xB100 5 64, o 0xB100 7 16, o 0xC100 1 1] { gsr := false }, 0,
    0, Word.zero, by decide +kernel, _, (Option.some_get (by decide +kernel)).symm, by decide +kernel⟩,
⟨upFab [o 0xB800 1 1, o 0xB100 1 1, o 0xB100 2 1, o 0xB100 3 0x1000, o 0xB100 5 64, o 0xB100 7 16, o 0xC100 1 1] { gsr := false }, 0,
    0, ⟨0, false, true, false, false⟩, by decide +kernel, _, (Option.some_get (by decide +kernel)).symm, by decide +kernel⟩,
⟨{ upFab [o 0xB800 1 1] { gsr := false } with loc := { queues := ⟨[]⟩, ports := ⟨[(0, { drop := some 1 })]⟩ } }, 0, 0, Word.zero, 1,
    by decide +kernel, _, (Option.some_get (by decide +kernel)).symm, by decide +kernel⟩,
⟨{ upFab [o 0xB800 1 1, o 0xB100 1 1, o 0xB100 2 1, o 0xB100 3 0x1000, o 0xB100 5 64, o 0xB100 7 16, o 0xC100 1 1] { gsr := false } with loc := { queues := ⟨[]⟩, ports := ⟨[(0, { tag := some (0, 3, false) })]⟩ } },
    0, 0, Word.zero, 0, 3, false, by decide +kernel, _, (Option.some_get (by decide +kernel)).symm, by decide +kernel, by decide +kernel,
    by decide +kernel, by decide +kernel, by decide +kernel, by decide +kernel, _, rfl, by decide +kernel⟩,
⟨{ upFab [o 0xB800 1 1, o 0xB100 1 1, o 0xB100 2 1, o 0xB100 3 0x1000, o 0xB100 5 64, o 0xB100 7 16, o 0xC100 1 1] { gsr := false } with loc := { queues := ⟨[(0, { part := some (List.replicate 16 Word.zero, 3, false) })]⟩, ports := ⟨[(0, { tag := some (0, 3, false) })]⟩ } },
    0, 0, Word.zero, 0, 3, false, (3, false), by decide +kernel, _, (Option.some_get (by decide +kernel)).symm, by decide +kernel,
    by decide +kernel, by decide +kernel, by decide +kernel, _, (Option.some_get (by decide +kernel)).symm, by decide +kernel⟩⟩

/-- Obligations.LoopsComplete: for each clause a state and operands that meet its hypotheses. -/
theorem witness_loopsComplete :
    (∃ (s : State) (l : Sys2Proof.Loop), s.dev.por = false ∧ (↑l.n ≠ 0 ∨ ↑l.die ≠ 1) ∧ (s.rd (loopObj l) 2 = 0 ∨ s.rd (loopObj l) 2 = 4)
      ∧ s.loopActive l = true ∧ s.loopTested l = false ∧ s.rd (railObj (4 * ↑l.die + 3)) 5 ≠ 2) ∧
    (∃ (s : State) (l : Sys2Proof.Loop), s.rd (loopObj l) 2 = 1 ∧ s.now < (s.loop l).startedAt + 20000 ∧ s.loopRef (16 * ↑l.die + ↑l.n) =
      true) ∧
    (∃ (s : State) (l : Sys2Proof.Loop), s.loopTested l = false ∧ s.rd (loopObj l) 2 = 1 ∧ (s.loop l).startedAt + 20000 ≤ s.now) ∧
    (∃ (s : State) (l : Sys2Proof.Loop), ∃ (since : Nat), (s.loop l).idleSince = some since ∧ s.loopTested l = false ∧ ↑l.n < 5 ∧ s.rd
      (loopObj l) 2 = 2 ∧ s.loopActive l = false ∧ s.rd (loopObj l) 6 ≠ 0 ∧ since + 1000 * s.rd (loopObj l) 6 ≤ s.now) ∧
    (∃ (s : State) (l : Sys2Proof.Loop), s.loopTested l = false ∧ s.rd (loopObj l) 2 = 2) ∧
    (∃ (s : State) (l : Sys2Proof.Loop), s.rd (loopObj l) 2 = 3 ∧ s.now < (s.loop l).lostAt + 100000 ∧ s.loopRef (16 * ↑l.die + ↑l.n) =
      true) ∧
    (∃ (s : State) (l : Sys2Proof.Loop), s.rd (loopObj l) 2 = 3 ∧ (s.loop l).lostAt + 100000 ≤ s.now ∧ s.resetWait l = none ∧ s.rd
      (railObj (4 * ↑l.die + 3)) 5 ≠ 2 ∧ (∀ (i : Island), loopIsland l = some i → s.rd (islObj ↑i.die ↑i.i) 3 = 1)) ∧
    (∃ (s : State) (l : Sys2Proof.Loop), s.rd (loopObj l) 2 = 0 ∧ (↑l.n ≠ 0 ∨ ↑l.die ≠ 1) ∧ s.dev.por = false ∧ s.loopTested l = false ∧
      s.rd (railObj (4 * ↑l.die + 3)) 5 ≠ 2 ∧
      (match loopIsland l with | some i => s.rd (islObj ↑i.die ↑i.i) 3 = 1 ∧ (s.islandSites i).any s.tokenOffered = true | none => (fixedSites l).any s.tokenOffered = true)) :=
  ⟨⟨up [o 0xA011 2 0, o 0x5810 3 1], ⟨0, 1⟩, by decide +kernel⟩,
⟨{ up [o 0xA011 2 1, o 0x5800 3 1] with cell := { loops := ⟨[(1, { startedAt := 99999999999 })]⟩ } }, ⟨0, 1⟩, by decide +kernel⟩,
⟨up [o 0xA011 2 1], ⟨0, 1⟩, by decide +kernel⟩,
⟨{ up [o 0xA011 6 10] with cell := { loops := ⟨[(1, { idleSince := some 5 })]⟩ } }, ⟨0, 1⟩, _,
    (Option.some_get (by decide +kernel)).symm, by decide +kernel⟩,
⟨up [], ⟨0, 1⟩, by decide +kernel⟩,
⟨{ up [o 0xA011 2 3, o 0x5800 3 1] with cell := { loops := ⟨[(1, { lostAt := 99999999999 })]⟩ } }, ⟨0, 1⟩, by decide +kernel⟩,
⟨up [o 0xA011 2 3], ⟨0, 1⟩, by decide +kernel, by decide +kernel, by decide +kernel, by decide +kernel,
    (by intro i h; have h2 : (none : Option Island) = some i := h; cases h2)⟩,
⟨upFab [o 0xA012 2 0] { gsr := false, siteOut := ⟨[(3, [Word.zero])]⟩, spanWordSite := ⟨[(12, 0x183)]⟩ }, ⟨0, 2⟩, by decide +kernel,
    by decide +kernel, by decide +kernel, by decide +kernel, by decide +kernel, (show (fixedSites ⟨0, 2⟩).any _ = true by decide +kernel)⟩⟩

/-- Obligations.LuCommandsComplete: for each clause a state and operands that meet its hypotheses. -/
theorem witness_luCommandsComplete :
    (∃ (s : State) (u : LuLoc) (c : LuCfg), (s.fab.lu (un u)).cfg = some c ∧ c.mode = 0 ∧ s.canStart (rn ⟨u.die, u.region⟩) = true ∧
      (s.fab.lu (un u)).full = false ∧ s.fab.ack (BSrc.lu (un u)) = false ∧ s.fab.drValid (un u) c = true) ∧
    (∃ (s : State) (u : LuLoc) (c : LuCfg), (s.fab.lu (un u)).cfg = some c ∧ c.mode = 0 ∧ s.active (rn ⟨u.die, u.region⟩) = true ∧
      (s.fab.lu (un u)).full = true ∧ s.fab.ack (BSrc.lu (un u)) = true ∧ s.fab.drRest (un u) c = true) ∧
    (∃ (s : State) (u : LuLoc) (c : LuCfg), (s.fab.lu (un u)).cfg = some c ∧ c.mode = 1 ∧ s.active (rn ⟨u.die, u.region⟩) = true ∧
      (s.fab.lu (un u)).joined = false ∧ s.fab.requests (un u) c ≠ [] ∧ (∀ (b : Bool), b ∈ s.fab.requests (un u) c → b = true)) ∧
    (∃ (s : State) (u : LuLoc) (c : LuCfg), (s.fab.lu (un u)).cfg = some c ∧ c.mode = 1 ∧ s.canStart (rn ⟨u.die, u.region⟩) = true ∧
      (s.fab.lu (un u)).joined = true ∧ (s.fab.lu (un u)).delay = true ∧ (s.fab.lu (un u)).full = false ∧ s.fab.ack (BSrc.lu (un u)) =
      false) ∧
    (∃ (s : State) (u : LuLoc) (c : LuCfg), (s.fab.lu (un u)).cfg = some c ∧ c.mode = 1 ∧ s.active (rn ⟨u.die, u.region⟩) = true ∧
      (s.fab.lu (un u)).full = true ∧ (s.fab.lu (un u)).joined = false ∧ s.fab.ack (BSrc.lu (un u)) = true ∧ (∀ (b : Bool), b ∈
      s.fab.requests (un u) c → b = false)) ∧
    (∃ (s : State) (u : LuLoc) (c : LuCfg) (b : Bool), (s.fab.lu (un u)).cfg = some c ∧ c.mode = 2 ∧ s.active (rn ⟨u.die, u.region⟩) =
      true ∧ c.f.getLsbD (s.fab.index (un u) c) = b ∧ c.g.getLsbD (s.fab.index (un u) c) = !b ∧ (s.fab.lu (un u)).oF = !b) :=
  ⟨⟨upFab [] { gsr := false, lus := ⟨[(0, { cfg := some (lc 0 1 0) })]⟩ }, lu0, lc 0 1 0, by decide +kernel⟩,
⟨upFab [] { gsr := false, lus := ⟨[(0, { cfg := some (lc 0 1 0), full := true, oF := true })]⟩, acks := ⟨[(0, true)]⟩ }, lu0,
    lc 0 1 0, by decide +kernel⟩,
⟨upFab [] { gsr := false, lus := ⟨[(0, { cfg := some (lc 0x101 1 0) }), (1, { cfg := some (lc 1 0 0), full := true, oF := true })]⟩ },
    lu0, lc 0x101 1 0, by decide +kernel⟩,
⟨upFab [] { gsr := false, lus := ⟨[(0, { cfg := some (lc 0x101 1 0), joined := true, delay := true }), (1, { cfg := some (lc 1 0 0), full := true, oF := true })]⟩ },
    lu0, lc 0x101 1 0, by decide +kernel⟩,
⟨upFab [] { gsr := false, lus := ⟨[(0, { cfg := some (lc 0x101 1 0), full := true }), (1, { cfg := some (lc 1 0 0) })]⟩, acks := ⟨[(0, true)]⟩ },
    lu0, lc 0x101 1 0, by decide +kernel⟩,
⟨upFab [] { gsr := false, lus := ⟨[(0, { cfg := some (lc 2 1 2) })]⟩ }, lu0, lc 2 1 2, true, by decide +kernel⟩⟩

/-- Obligations.MailboxesComplete: for each clause a state and operands that meet its hypotheses. -/
theorem witness_mailboxesComplete :
    (∃ (s : State) (f : Func), s.dev.por = false ∧ (s.resetting ↑f.f = true ∨ s.hostReady = false)) ∧
    (∃ (s : State) (f : Func), s.dev.por = false ∧ s.resetting ↑f.f = false ∧ s.hostReady = true) ∧
    (∃ (s : State) (f : Fin 9), s.hostUp ↑f = true ∧ (s.box ↑f).busy = false) ∧
    (∃ (s : State) (f : Fin 9) (data : List Byte), s.hostUp ↑f = true ∧ (s.box ↑f).busy = false ∧ data.length ≤ 4096) ∧
    (∃ (s : State) (f : Fin 9), s.hostUp ↑f = true ∧ (s.box ↑f).busy = true) ∧
    (∃ (s : State) (f : Fin 9) (idx sub : Nat), userIdx idx = false ∧ (s.box ↑f).busy = true ∧ (s.box ↑f).away = false ∧ s.apexUp = true
      ∧ ∃ (t : State), t = s.setBox (↑f) { s.box ↑f with away := true } ∧ ∃ (data : List Byte), (s.box ↑f).req = some (false, idx, sub,
      data)) ∧
    (∃ (s : State) (f : Fin 9) (idx sub : Nat) (data : List Byte), userIdx idx = false ∧ (s.box ↑f).busy = true ∧ (s.box ↑f).away = false
      ∧ s.apexUp = true ∧ ∃ (t : State), t = s.setBox (↑f) { s.box ↑f with away := true } ∧ (s.box ↑f).req = some (true, idx, sub, data)
      ∧ ((t.writeObj (Req.pf f) idx sub data).snd.box ↑f).away = true) :=
  ⟨⟨up [], ⟨0, 0⟩, by decide +kernel⟩,
⟨{ up [] with host := { released := some 0 } }, ⟨0, 0⟩, by decide +kernel⟩,
⟨up [], 0, by decide +kernel⟩,
⟨up [], 0, [], by decide +kernel⟩,
⟨{ up [] with host := { boxes := ⟨[(0, { busy := true })]⟩ } }, 0, by decide +kernel⟩,
⟨{ up [] with host := { boxes := ⟨[(0, { busy := true, req := some (false, 0x1000, 1, []) })]⟩ } }, 0, 0x1000, 1, by decide +kernel,
    by decide +kernel, by decide +kernel, by decide +kernel, _, rfl, _, (Option.some_get (by decide +kernel)).symm⟩,
⟨{ up [] with host := { boxes := ⟨[(0, { busy := true, req := some (true, 0x1040, 2, [0]) })]⟩ } }, 0, 0x1040, 2, [0],
    by decide +kernel, by decide +kernel, by decide +kernel, by decide +kernel, _, rfl, by decide +kernel⟩⟩

/-- Obligations.MarginAndDeterminismComplete: for each clause a state and operands that meet its hypotheses. -/
theorem witness_marginAndDeterminismComplete :
    (∃ (s : State) (r : Region) (stepPs pathPs : Nat) (ok : Bool), s.monitored (rn r) = true ∧ s.checkDue (rn r) = true ∧ marginReason
      (s.rd (enObj (rn r)) 2) stepPs pathPs ok = 0) ∧
    (∃ (s : State) (r : Region) (stepPs pathPs : Nat) (ok : Bool), s.monitored (rn r) = true ∧ s.checkDue (rn r) = true ∧ marginReason
      (s.rd (enObj (rn r)) 2) stepPs pathPs ok ≠ 0 ∧ (s.rd (detObj (rn r)) 8 ≠ 1 ∨ SMap.get (fun _ => 0) s.fab.marginPasses (rn r) ≠ 0)) ∧
    (∃ (s : State) (r : Region) (stepPs pathPs : Nat) (ok : Bool), s.monitored (rn r) = true ∧ s.checkDue (rn r) = true ∧ marginReason
      (s.rd (enObj (rn r)) 2) stepPs pathPs ok ≠ 0 ∧ s.rd (detObj (rn r)) 8 = 1 ∧ SMap.get (fun _ => 0) s.fab.marginPasses (rn r) = 0) ∧
    (∃ (s : State) (q : Req) (r : Region) (v : BitVec 8), s.writeAbort q (detObj (rn r)) 9 1 v.toNat = 0 ∧ s.rd (detObj (rn r)) 8 = 2) ∧
    (∃ (s : State) (q : Req) (r : Region) (v : BitVec 16), s.writeAbort q (detObj (rn r)) 1 2 v.toNat = 0) ∧
    (∃ (s : State) (q : Req) (st : Sys2Proof.Stream) (v : BitVec 16), s.writeAbort q (replayObj (streamKey st)).fst (replayObj (streamKey
      st)).snd 2 v.toNat = 0) ∧
    (∃ (s : State) (q : Req) (r : Region) (v : BitVec 8), s.writeAbort q (detObj (rn r)) 3 1 v.toNat = 0) :=
  ⟨⟨up [], ⟨0, 0⟩, 5000, 200, true, by decide +kernel⟩,
⟨up [], ⟨0, 0⟩, 0, 200, true, by decide +kernel⟩,
⟨up [o 0xC400 8 1], ⟨0, 0⟩, 0, 0, false, by decide +kernel⟩,
⟨up [o 0xC400 8 2], .kimbe, ⟨0, 0⟩, 1, by decide +kernel⟩,
⟨up [o 0xC100 2 4], .kimbe, ⟨0, 0⟩, 0xFFFF, by decide +kernel⟩,
⟨up [o 0xC100 2 4], .kimbe, .region ⟨0, 0⟩, 0xFFFF, by decide +kernel⟩,
⟨up [o 0xC100 2 4], .kimbe, ⟨0, 0⟩, 1, by decide +kernel⟩⟩

/-- Obligations.MemoryPortsComplete: for each clause a state and operands that meet its hypotheses. -/
theorem witness_memoryPortsComplete :
    (∃ (s : State) (die : Fin 2) (p : Fin 32) (w : Word) (data : List Word), ∃ (t : State), s.siteWords (Site.memory die p) (w :: data) =
      some t ∧ (s.mport (64 * ↑die + ↑p)).reqs.length < 32 ∧ data = [] ∧ fieldAt w.data.toNat 41 2 = 0) ∧
    (∃ (s : State) (die : Fin 2) (p : Fin 32) (w : Word) (data : List Word), ∃ (t : State), s.siteWords (Site.memory die p) (w :: data) =
      some t ∧ (s.mport (64 * ↑die + ↑p)).reqs.length < 32 ∧ data.length = fieldAt w.data.toNat 37 4 + 1 ∧ fieldAt w.data.toNat 41 2 = 1) ∧
    (∃ (s : State) (die : Fin 2) (p : Fin 32) (w : Word) (data : List Word), ∃ (t : State), s.siteWords (Site.memory die p) (w :: data) =
      some t ∧ (s.mport (64 * ↑die + ↑p)).reqs.length < 32 ∧ data.length = fieldAt w.data.toNat 37 4 + 1 ∧ fieldAt w.data.toNat 41 2 = 2) ∧
    (∃ (s : State) (die : Fin 2) (p : Fin 32) (w : Word) (data : List Word), ∃ (t : State), s.siteWords (Site.memory die p) (w :: data) =
      some t ∧ (s.mport (64 * ↑die + ↑p)).reqs.length < 32 ∧ data = [] ∧ fieldAt w.data.toNat 41 2 = 3) ∧
    (∃ (s : State) (die : Fin 2) (p : Fin 32) (r : MemReq) (rest : List MemReq), (s.mport (64 * ↑die + ↑p)).reqs = r :: rest ∧ r.op < 4 ∧
      s.loopClocks (↑die) 2 = true ∧ s.memFault (64 * ↑die + ↑p) r ≠ 0 ∧ (s.mport (64 * ↑die + ↑p)).reserved + r.needs ≤ 256) ∧
    (∃ (s : State) (die : Fin 2) (p : Fin 32) (r : MemReq) (rest : List MemReq), (s.mport (64 * ↑die + ↑p)).reqs = r :: rest ∧ r.op < 3 ∧
      s.loopClocks (↑die) 2 = true ∧ s.memFault (64 * ↑die + ↑p) r = 0 ∧ s.heldByZeroing r = false ∧ (s.mport (64 * ↑die + ↑p)).reserved
      + r.needs ≤ 256 ∧ s.cmdsFit (s.reqCmds (64 * ↑die + ↑p) r) = true ∧ s.rd (winObj r.window) 7 = 0) :=
  ⟨⟨up [], 0, 0, Word.zero, [], _, (Option.some_get (by decide +kernel)).symm, by decide +kernel⟩,
⟨up [], 0, 0, ⟨BitVec.ofNat 128 (1 <<< 41), false, false, false, false⟩, [Word.zero], _, (Option.some_get (by decide +kernel)).symm,
    by decide +kernel⟩,
⟨up [], 0, 0, ⟨BitVec.ofNat 128 (2 <<< 41), false, false, false, false⟩, [Word.zero], _, (Option.some_get (by decide +kernel)).symm,
    by decide +kernel⟩,
⟨up [], 0, 0, ⟨BitVec.ofNat 128 (3 <<< 41), false, false, false, false⟩, [], _, (Option.some_get (by decide +kernel)).symm,
    by decide +kernel⟩,
⟨{ upFab [] { gsr := false } with mem := { ports := ⟨[(0, { reqs := [⟨3, 0, 0, 0, [], false, 0, false, none⟩] })]⟩ } }, 0, 0,
    ⟨3, 0, 0, 0, [], false, 0, false, none⟩, [], by decide +kernel⟩,
⟨{ upFab [o 0x4200 2 0, o 0x4200 3 0x10000, o 0x4200 4 1, o 0x4200 1 1, o 0xC100 1 1] { gsr := false } with mem := { ports := ⟨[(0, { reqs := [⟨0, 0, 0, 0, [], false, 0, false, none⟩] })]⟩ } },
    0, 0, ⟨0, 0, 0, 0, [], false, 0, false, none⟩, [], by decide +kernel⟩⟩

/-- Obligations.MxChoicesComplete: for each clause a state and operands that meet its hypotheses. -/
theorem witness_mxChoicesComplete :
    (∃ (s : State) (u : LuLoc) (c : LuCfg) (b : Bool), (s.fab.lu (un u)).cfg = some c ∧ c.mode = 3 ∧ s.canStart (rn ⟨u.die, u.region⟩) =
      true ∧ (s.fab.lu (un u)).oF = false ∧ (s.fab.lu (un u)).oG = false ∧ c.arb = 1 ∧ s.fab.mxReq (un u) c 0 = !b ∧ s.fab.mxReq (un u) c
      1 = b) ∧
    (∃ (s : State) (u : LuLoc) (c : LuCfg), (s.fab.lu (un u)).cfg = some c ∧ c.mode = 3 ∧ s.canStart (rn ⟨u.die, u.region⟩) = true ∧
      (s.fab.lu (un u)).oF = false ∧ (s.fab.lu (un u)).oG = false ∧ c.arb = 2 ∧ ∃ (v : Nat), s.decision (rn ⟨u.die, u.region⟩) 1 (locUnit
      (un u)) = some v ∧ s.fab.mxReq (un u) c (v % 2) = true) :=
  ⟨⟨upFab [] { gsr := false, lus := ⟨[(0, { cfg := some (lc 0x10003 0 0) }), (2, { cfg := some (lc 2 0 0), oF := true })]⟩ }, lu0,
    lc 0x10003 0 0, true, by decide +kernel⟩,
⟨upFab [o 0xC400 2 0] { gsr := false, lus := ⟨[(0, { cfg := some (lc 0x20003 0 0) }), (2, { cfg := some (lc 2 0 0), oF := true })]⟩, streams := ⟨[(0, { ready := some (readyKey 1 0, 1), epochRead := true })]⟩ },
    lu0, lc 0x20003 0 0, by decide +kernel, by decide +kernel, by decide +kernel, by decide +kernel, by decide +kernel,
    by decide +kernel, _, (Option.some_get (by decide +kernel)).symm, by decide +kernel⟩⟩

/-- Obligations.MxCommandsComplete: for each clause a state and operands that meet its hypotheses. -/
theorem witness_mxCommandsComplete :
    (∃ (s : State) (u : LuLoc) (c : LuCfg), (s.fab.lu (un u)).cfg = some c ∧ c.mode = 3 ∧ c.arb = 0 ∧ s.canStart (rn ⟨u.die, u.region⟩) =
      true ∧ (s.fab.lu (un u)).oF = false ∧ (s.fab.lu (un u)).oG = false ∧ (s.fab.mxReq (un u) c 0 || s.fab.mxReq (un u) c 1) = true) ∧
    (∃ (s : State) (u : LuLoc) (c : LuCfg), (s.fab.lu (un u)).cfg = some c ∧ c.mode = 3 ∧ s.active (rn ⟨u.die, u.region⟩) = true ∧
      (s.fab.lu (un u)).oF = true ∧ s.fab.mxReq (un u) c 0 = false) ∧
    (∃ (s : State) (u : LuLoc) (c : LuCfg), (s.fab.lu (un u)).cfg = some c ∧ c.mode = 3 ∧ s.active (rn ⟨u.die, u.region⟩) = true ∧
      (s.fab.lu (un u)).oF = false ∧ (s.fab.lu (un u)).oG = true ∧ s.fab.mxReq (un u) c 1 = false) :=
  ⟨⟨upFab [] { gsr := false, lus := ⟨[(0, { cfg := some (lc 3 0 0) }), (1, { cfg := some (lc 2 0 0), oF := true }), (2, { cfg := some (lc 2 0 0), oF := true })]⟩ },
    lu0, lc 3 0 0, by decide +kernel⟩,
⟨upFab [] { gsr := false, lus := ⟨[(0, { cfg := some (lc 3 0 0), oF := true }), (2, { cfg := some (lc 2 0 0), oF := true })]⟩ }, lu0,
    lc 3 0 0, by decide +kernel⟩,
⟨upFab [] { gsr := false, lus := ⟨[(0, { cfg := some (lc 3 0 0), oG := true }), (1, { cfg := some (lc 2 0 0), oF := true })]⟩ }, lu0,
    lc 3 0 0, by decide +kernel⟩⟩

/-- Obligations.ObjectRequestsComplete: for each clause a state and operands that meet its hypotheses. -/
theorem witness_objectRequestsComplete :
    (∃ (s : State) (die : Fin 2) (h : Word) (data : List Byte), ∃ (n : Nat), n = h.data.toNat ∧ ∃ (idx : Nat), idx = fieldAt n 0 16 ∧ ∃
      (sub : Nat), sub = fieldAt n 16 8 ∧ itemOk h data = true ∧ s.dev.por = false ∧ s.apexUp = true ∧ ∃ (t : State), s.siteWords
      (Site.object die false) (itemWords h data) = some t ∧ hdrOp n = 1 ∧ hdrLen n ≤ 256 ∧ userIdx idx = false) ∧
    (∃ (s : State) (die : Fin 2) (h : Word) (data : List Byte), ∃ (n : Nat), n = h.data.toNat ∧ ∃ (idx : Nat), idx = fieldAt n 0 16 ∧ ∃
      (sub : Nat), sub = fieldAt n 16 8 ∧ itemOk h data = true ∧ s.dev.por = false ∧ s.apexUp = true ∧ ∃ (t : State), s.siteWords
      (Site.object die false) (itemWords h data) = some t ∧ hdrOp n = 2 ∧ hdrLen n ≤ 256 ∧ userIdx idx = false) ∧
    (∃ (s : State) (die : Fin 2) (h : Word) (data : List Byte), ∃ (n : Nat), n = h.data.toNat ∧ ∃ (idx : Nat), idx = fieldAt n 0 16 ∧ ∃
      (sub : Nat), sub = fieldAt n 16 8 ∧ itemOk h data = true ∧ s.dev.por = false ∧ s.apexUp = true ∧ ∃ (t : State), s.siteWords
      (Site.object die false) (itemWords h data) = some t ∧ (hdrOp n = 1 ∨ hdrOp n = 2) ∧ 256 < hdrLen n) ∧
    (∃ (s : State) (die : Fin 2) (h : Word) (data : List Byte), itemOk h data = true ∧ s.dev.por = false ∧ s.apexUp = true ∧ ∃ (t :
      State), s.siteWords (Site.object die true) (itemWords h data) = some t ∧ ∃ (r : UserReq) (tag : Nat) (issued : Nat), SMap.get (fun
      _ => none) t.mgt.userReqs ↑die = some (r, tag, issued) ∧ tag = hdrTag h.data.toNat ∧ t.mgt.userWait = [] ∧ r.back = Reply.direct) ∧
    (∃ (s : State) (die : Fin 2) (h : Word) (data : List Byte), itemOk h data = true ∧ s.dev.por = false ∧ s.apexUp = true ∧ ∃ (t :
      State), s.siteWords (Site.object die true) (itemWords h data) = some t ∧ ∃ (r : UserReq) (tag : Nat) (issued : Nat), SMap.get (fun
      _ => none) t.mgt.userReqs ↑die = some (r, tag, issued) ∧ tag ≠ hdrTag h.data.toNat) ∧
    (∃ (s : State) (die : Fin 2) (r : UserReq) (tag issued : Nat), SMap.get (fun _ => none) s.mgt.userReqs ↑die = some (r, tag, issued) ∧
      issued + 1000 * s.rd 0x1040 17 ≤ s.now) ∧
    (∃ (s : State) (idx : BitVec 16), userIdx idx.toNat = false) ∧
    (∃ (s : State) (q : Req) (idx : BitVec 16) (data : List Byte), userIdx idx.toNat = true ∧ s.userAbort q idx.toNat true data.length ≠
      0) ∧
    (∃ (s : State) (q : Req) (idx : BitVec 16) (data : List Byte) (d : Nat), userIdx idx.toNat = true ∧ s.userAbort q idx.toNat true
      data.length = 0 ∧ s.serverOf idx.toNat = some d ∧ SMap.get (fun _ => none) s.mgt.userReqs d = none ∧ s.mgt.userWait = []) :=
  ⟨⟨up [], 0, ⟨BitVec.ofNat 128 (4096 ||| 1 <<< 16 ||| 1 <<< 24 ||| 0 <<< 32 ||| 0 <<< 48), true, false, false, false⟩, [], _, rfl, _,
    rfl, _, rfl, by decide +kernel, by decide +kernel, by decide +kernel, _, (Option.some_get (by decide +kernel)).symm,
    by decide +kernel⟩,
⟨up [], 0, ⟨BitVec.ofNat 128 (4096 ||| 1 <<< 16 ||| 2 <<< 24 ||| 1 <<< 32 ||| 0 <<< 48), false, false, false, false⟩, [0], _, rfl, _,
    rfl, _, rfl, by decide +kernel, by decide +kernel, by decide +kernel, _, (Option.some_get (by decide +kernel)).symm,
    by decide +kernel⟩,
⟨up [], 0, ⟨BitVec.ofNat 128 (4096 ||| 1 <<< 16 ||| 1 <<< 24 ||| 257 <<< 32 ||| 0 <<< 48), false, false, false, false⟩,
    List.replicate 257 0, _, rfl, _, rfl, _, rfl, by decide +kernel, by decide +kernel, by decide +kernel, _,
    (Option.some_get (by decide +kernel)).symm, by decide +kernel⟩,
⟨{ up [o 0xC101 2 2] with mgt := { userReqs := ⟨[(0, some (⟨1, false, 0x9000, 1, [], .direct⟩, 7, 5))]⟩ } }, 0,
    ⟨BitVec.ofNat 128 (0 ||| 0 <<< 16 ||| 0 <<< 24 ||| 0 <<< 32 ||| 7 <<< 48), true, false, false, false⟩, [], by decide +kernel,
    by decide +kernel, by decide +kernel, _, (Option.some_get (by decide +kernel)).symm, _, _, _,
    (Option.some_get (by decide +kernel)).symm, by decide +kernel⟩,
⟨{ up [o 0xC101 2 2] with mgt := { userReqs := ⟨[(0, some (⟨1, false, 0x9000, 1, [], .direct⟩, 7, 5))]⟩ } }, 0,
    ⟨BitVec.ofNat 128 (0 ||| 0 <<< 16 ||| 0 <<< 24 ||| 0 <<< 32 ||| 6 <<< 48), true, false, false, false⟩, [], by decide +kernel,
    by decide +kernel, by decide +kernel, _, (Option.some_get (by decide +kernel)).symm, _, _, _,
    (Option.some_get (by decide +kernel)).symm, by decide +kernel⟩,
⟨{ up [] with mgt := { userReqs := ⟨[(0, some (⟨1, false, 0x9000, 1, [], .direct⟩, 7, 5))]⟩ } }, 0,
    ⟨1, false, 0x9000, 1, [], .direct⟩, 7, 5, by decide +kernel⟩,
⟨up [], 0x1000, by decide +kernel⟩,
⟨up [], .kimbe, 0x9000, [], by decide +kernel⟩,
⟨up [o 0x1040 1 0], .kimbe, 0x9000, [], 0, by decide +kernel⟩⟩

/-- Obligations.PartialLoadsComplete: for each clause a state and operands that meet its hypotheses. -/
theorem witness_partialLoadsComplete :
    (∃ (s : State) (die : Fin 2) (d : Nat) (q : Req) (v : BitVec 8), d = ↑die ∧ s.writeAbort q (loadObj d) 4 1 v.toNat = 0) ∧
    (∃ (s : State) (die : Fin 2) (d : Nat) (c : Container), d = ↑die ∧ s.rd 0x2000 1 = 4 ∧ s.loadState d = 1 ∧ s.stageWaits d c = false ∧
      ∃ (t : State), t = (s.faSpent c).wr (loadObj d) 7 (c.bytes % 2 ^ 32) ∧ firstReject [t.stageReject c false (loadObj d) (s.faOf c)
      (t.load d).owner, t.commitReject (t.loaded c) c (loadObj d) (s.faOf c)] = none) ∧
    (∃ (s : State) (die : Fin 2) (d : Nat) (c : Container), d = ↑die ∧ s.rd 0x2000 1 = 4 ∧ s.loadState d = 1 ∧ s.stageWaits d c = false ∧
      ∃ (t : State), t = (s.faSpent c).wr (loadObj d) 7 (c.bytes % 2 ^ 32) ∧ ∃ (r : Reject), firstReject [t.stageReject c false (loadObj
      d) (s.faOf c) (t.load d).owner, t.commitReject (t.loaded c) c (loadObj d) (s.faOf c)] = some r) ∧
    (∃ (s : State) (die : Fin 2) (d : Nat), d = ↑die ∧ s.rd 0x2000 1 = 4 ∧ s.loadState d = 1) ∧
    (∃ (s : State) (die : Fin 2) (d : Nat) (c : Container) (bad : Option (BitVec 16)), d = ↑die ∧ (s.load d).cont = some c ∧ s.loadState
      d = 2 ∧ s.targetsFenced d = true ∧ (s.faSpent c).routeReject ((s.faSpent c).loaded c) c (loadObj d) (s.faOf c) = none ∧ bad = none
      ∧ (s.faSpent c).banksPoison (fun (n : Nat) => 1 - (s.faSpent c).activeBank n) c.targets = none) ∧
    (∃ (s : State) (die : Fin 2) (d : Nat) (c : Container) (bad : Option (BitVec 16)) (f : BitVec 16), d = ↑die ∧ (s.load d).cont = some
      c ∧ s.loadState d = 2 ∧ s.targetsFenced d = true ∧ (s.faSpent c).routeReject ((s.faSpent c).loaded c) c (loadObj d) (s.faOf c) =
      none ∧ bad = some f ∧ ∃ (k : Nat), (s.faSpent c).toRestore c f.toNat = some k) ∧
    (∃ (s : State) (die : Fin 2) (d : Nat) (c : Container), d = ↑die ∧ (s.load d).cont = some c ∧ s.loadState d = 2 ∧ s.targetsFenced d =
      true ∧ ∃ (r : Reject), (s.faSpent c).routeReject ((s.faSpent c).loaded c) c (loadObj d) (s.faOf c) = some r) :=
  ⟨⟨up [], 0, 0, .kimbe, 1, by decide +kernel⟩,
⟨{ up [o 0x2010 5 1, o 0x8000 2 1, o 0x8000 0xC 1, o 0x8010 3 1] with cfg := { loads := ⟨[(0, { owner := 1 })]⟩ } }, 0, 0, cont false,
    by decide +kernel, by decide +kernel, by decide +kernel, by decide +kernel,
    ({ up [o 0x2010 5 1, o 0x8000 2 1, o 0x8000 0xC 1, o 0x8010 3 1] with cfg := { loads := ⟨[(0, { owner := 1 })]⟩ } }).freeNext.wr (loadObj 0) 7 4096,
    by decide +kernel,
    (firstReject_pair (by decide +kernel) (cont_passes false _ _ _ _ (quiet_of_cells (by unfold quietKey; decide +kernel)) rfl))⟩,
⟨up [o 0x2010 5 1], 0, 0, { cont false with headerOk := false }, by decide +kernel, by decide +kernel, by decide +kernel,
    by decide +kernel, _, rfl, Option.isSome_iff_exists.mp (by decide +kernel)⟩,
⟨up [o 0x2010 5 1], 0, 0, by decide +kernel⟩,
⟨{ up [o 0x2010 5 2] with cfg := { loads := ⟨[(0, { cont := some (cont false), owner := 1 })]⟩ } }, 0, 0, cont false, none,
    by decide +kernel⟩,
⟨{ up [o 0x2010 5 2, o 0xC100 2 4, o 0xC100 4 2] with cfg := { loads := ⟨[(0, { cont := some { cont false with periphD0 := 1, frames := [(896, 32)] }, owner := 1 })]⟩ } },
    0, 0, { cont false with periphD0 := 1, frames := [(896, 32)] }, some 896, 896, by decide +kernel, by decide +kernel,
    by decide +kernel, by decide +kernel, by decide +kernel, by decide +kernel, Option.isSome_iff_exists.mp (by decide +kernel)⟩,
⟨{ up [o 0x2010 5 2, o 0xC100 2 4, o 0xC100 4 2] with cfg := { loads := ⟨[(0, { cont := some badCont, owner := 1, targets := [0] })]⟩ } },
    0, 0, badCont, by decide +kernel, by decide +kernel, by decide +kernel, by decide +kernel, badCont_fails _ _ _ _⟩⟩

/-- Obligations.PeripheralsComplete: for each clause a state and operands that meet its hypotheses. -/
theorem witness_peripheralsComplete :
    (∃ (s : State) (q : Req) (k : Fin 2) (bytes : List Byte), ∃ (o : Nat), o = serialObj ↑k ∧ s.writeAbort q o 4 bytes.length (ofOctets
      bytes) = 0) ∧
    (∃ (s : State) (q : Req) (k : Fin 2) (bytes : List Byte), ∃ (o : Nat), o = serialObj (2 + ↑k) ∧ s.writeAbort q o 4 bytes.length
      (ofOctets bytes) = 0) ∧
    (∃ (s : State) (q : Req) (bytes : List Byte), s.writeAbort q (serialObj 4) 4 bytes.length (ofOctets bytes) = 0) ∧
    (∃ (s : State) (q : Req) (k : Fin 2), s.readAbort q (serialObj ↑k) 5 = 0) ∧
    (∃ (s : State) (k : Fin 2), s.fed (serialObj ↑k) (449 + 4 * ↑k) = true ∧ (s.serial ↑k).rx.length < 256) ∧
    (∃ (s : State) (k : Fin 2), s.fed (serialObj ↑k) (449 + 4 * ↑k) = true ∧ 256 ≤ (s.serial ↑k).rx.length) ∧
    (∃ (s : State) (k : Fin 3) (nack : Bool), ∃ (o : Nat), o = serialObj (2 + ↑k) ∧ (s.rd o 6).testBit 0 = true ∧ nack = true ∧ ↑k < 2) ∧
    (∃ (s : State) (k : Fin 3) (nack : Bool) (rx : List Byte), ∃ (o : Nat), o = serialObj (2 + ↑k) ∧ (s.rd o 6).testBit 0 = true ∧ (nack
      = false ∨ ↑k = 2) ∧ rx.length = (s.serial (2 + ↑k)).wantRx) ∧
    (∃ (s : State) (k : Fin 4), ∃ (o : Nat), o = pwmObj ↑k ∧ s.rd o 1 = 1 ∧ s.rd o 5 = 1 ∧ ((s.pwm ↑k).period = 0 ∨ (s.pwm ↑k).start +
      (s.pwm ↑k).period ≤ s.now)) ∧
    (∃ (s : State) (k : Fin 4) (rising : Bool), ∃ (o : Nat), o = tscapObj ↑k ∧ s.fed o (471 + ↑k) = true ∧ (s.rd o 3 = 3 ∨ s.rd o 3 = 1 ∧
      rising = true ∨ s.rd o 3 = 2 ∧ rising = false)) ∧
    (∃ (s : State) (n : Fin 10) (level : Bool), ∃ (o : Nat), o = lineObj ↑n ∧ s.rd o 1 = 1 ∧ s.rd (pinObj (s.linePin ↑n)) 1 = s.rd o 2 ∧
      s.lineOver ↑n = false ∧ lineHits (s.rd o 4) (s.line ↑n).level level = true) ∧
    (∃ (s : State) (n : Fin 10) (level : Bool), ∃ (o : Nat), o = lineObj ↑n ∧ s.rd o 1 = 1 ∧ s.rd (pinObj (s.linePin ↑n)) 1 = s.rd o 2 ∧
      s.lineOver ↑n = false ∧ lineHits (s.rd o 4) (s.line ↑n).level level = false) ∧
    (∃ (s : State) (n : Fin 10) (level : Bool), ∃ (o : Nat), o = lineObj ↑n ∧ s.lineOver ↑n = true ∧ s.apexUp = true ∧ lineActive (s.rd o
      4) level = true) ∧
    (∃ (s : State) (n : Fin 10) (level : Bool), ∃ (o : Nat), o = lineObj ↑n ∧ s.lineOver ↑n = true ∧ s.apexUp = true ∧ lineActive (s.rd o
      4) level = false) :=
  ⟨⟨up [o 0x6100 1 1, o 0x6100 2 1], .kimbe, 0, [1], _, rfl, by decide +kernel⟩,
⟨up [o 0x6102 1 1, o 0x6102 2 1], .kimbe, 0, [2, 0], _, rfl, by decide +kernel⟩,
⟨up [o 0x6104 1 1, o 0x6104 2 1], .kimbe, [1], by decide +kernel⟩,
⟨up [o 0x6100 1 1, o 0x6100 2 1], .kimbe, 0, by decide +kernel⟩,
⟨{ up [o 0x6010 1 1, o 0x6010 2 0x1C1, o 0x6100 1 1, o 0x6100 2 1, o 0x6008 3 1] with pin := { enabled := true } }, 0,
    by decide +kernel⟩,
⟨{ up [o 0x6010 1 1, o 0x6010 2 0x1C1, o 0x6100 1 1, o 0x6100 2 1, o 0x6008 3 1] with pin := { enabled := true, serial := ⟨[(0, { rx := List.replicate 256 0 })]⟩ } },
    0, by decide +kernel⟩,
⟨up [o 0x6102 6 1], 0, true, _, rfl, by decide +kernel⟩,
⟨up [o 0x6102 6 1], 0, false, [], _, rfl, by decide +kernel⟩,
⟨up [o 0x6110 1 1, o 0x6110 5 1], 0, _, rfl, by decide +kernel⟩,
⟨{ up [o 0x6010 1 1, o 0x6010 2 0x1D7, o 0x6120 1 1, o 0x6120 2 1, o 0x6120 3 3, o 0x6008 3 1] with pin := { enabled := true } }, 0,
    false, _, rfl, by decide +kernel⟩,
⟨up [o 0x6130 1 1, o 0x6130 2 1, o 0x6010 1 1, o 0x6130 4 3], 0, false, _, rfl, by decide +kernel⟩,
⟨up [o 0x6130 1 1, o 0x6130 2 1, o 0x6010 1 1, o 0x6130 4 1], 0, false, _, rfl, by decide +kernel⟩,
⟨{ up [o 0x6130 1 1, o 0x6130 2 1, o 0x6010 1 1, o 0x6130 4 4] with pin := { lines := ⟨[(0, { open_ := true })]⟩ } }, 0, true, _, rfl,
    by decide +kernel⟩,
⟨{ up [o 0x6130 1 1, o 0x6130 2 1, o 0x6010 1 1, o 0x6130 4 4] with pin := { lines := ⟨[(0, { open_ := true })]⟩ } }, 0, false, _,
    rfl, by decide +kernel⟩⟩

/-- Obligations.PinsComplete: for each clause a state and operands that meet its hypotheses. -/
theorem witness_pinsComplete :
    (∃ (s : State) (bank : Fin 4) (mv : BitVec 16), s.dev.por = false ∧ ∃ (o : Nat), o = bankObj ↑bank ∧ ∃ (sel : Nat), sel = s.rd o 1 ∧
      mv.toNat < 500) ∧
    (∃ (s : State) (bank : Fin 4) (mv : BitVec 16) (t : Nat), s.dev.por = false ∧ ∃ (o : Nat), o = bankObj ↑bank ∧ ∃ (sel : Nat), sel =
      s.rd o 1 ∧ 500 ≤ mv.toNat ∧ vccioWithin 10 sel mv.toNat = false ∧ (s.bank ↑bank).outFrom = some t ∧ t + 100000 ≤ s.now) ∧
    (∃ (s : State) (bank : Fin 4) (mv : BitVec 16) (t : Nat), s.dev.por = false ∧ ∃ (o : Nat), o = bankObj ↑bank ∧ ∃ (sel : Nat), sel =
      s.rd o 1 ∧ 500 ≤ mv.toNat ∧ vccioWithin 5 sel mv.toNat = true ∧ vccioWithin 10 sel mv.toNat = true ∧ (s.bank ↑bank).inFrom = some t
      ∧ t + 1000000 ≤ s.now) ∧
    (∃ (s : State) (q : Req) (p : Fin 40) (v : BitVec 16), s.writeAbort q (pinObj ↑p) 2 2 v.toNat = 0) ∧
    (∃ (s : State) (q : Req) (p : Fin 40) (x : PinSetting) (v : BitVec 8), s.writeAbort q (pinObj ↑p) (settingSub x) 1 v.toNat = 0) ∧
    (∃ (s : State) (c : Fin 40) (w : Word), s.cellOn (Site.pin c) false = true ∧ ∃ (t : State), s.siteTake (siteRegion (Site.pin c))
      (siteSlot (Site.pin c)) w = some t ∧ ∃ (t1 : State), t.enterIsland (Site.pin c) (siteChan (Site.pin c) 0) = some t1) ∧
    (∃ (s : State) (c : Fin 40) (w : Word), s.cellOn (Site.pin c) true = true ∧ SMap.get (fun _ => []) s.fab.siteOut (siteRegion
      (Site.pin c) * 16 + readSlot (Site.pin c)) = [] ∧ ∃ (t : State), s.siteTake (siteRegion (Site.pin c)) (readSlot (Site.pin c)) w =
      some t ∧ ∃ (v : Nat) (t1 : State), t.siteDecide (siteRegion (Site.pin c)) 3 (chanId 3 (siteRegion (Site.pin c)) 0 0 (readSlot
      (Site.pin c))) (s.inSignal (64 + ↑c) 0) = some (v, t1)) ∧
    (∃ (s : State), s.dev.por = false ∧ s.rd 0x3000 10 = 0 ∧ s.rd 0x6000 2 = 0) ∧
    (∃ (s : State) (r : Req), s.writeAbort r 0x6000 3 1 1 = 0) :=
  ⟨⟨up [], 0, 499, by decide +kernel, _, rfl, _, rfl, by decide +kernel⟩,
⟨{ up [o 0x6000 2 1] with pin := { banks := ⟨[(0, { outFrom := some 5 })]⟩ } }, 0, 1000, 5, by decide +kernel, _, rfl, _, rfl,
    by decide +kernel⟩,
⟨{ up [] with pin := { banks := ⟨[(0, { inFrom := some 5 })]⟩ } }, 0, 1200, 5, by decide +kernel, _, rfl, _, rfl, by decide +kernel⟩,
⟨up [], .kimbe, 0, 1, by decide +kernel⟩,
⟨up [], .kimbe, 0, .outValue, 1, by decide +kernel⟩,
⟨up [], 0, Word.zero, by decide +kernel, _, (Option.some_get (by decide +kernel)).symm,
    Option.isSome_iff_exists.mp (by decide +kernel)⟩,
⟨up [], 0, Word.zero, by decide +kernel, by decide +kernel, _, (Option.some_get (by decide +kernel)).symm, _, _,
    (Option.some_get (by decide +kernel)).symm⟩,
⟨up [], by decide +kernel⟩,
⟨up [], .kimbe, by decide +kernel⟩⟩

/-- Obligations.PlannerComplete: for each clause a state and operands that meet its hypotheses. -/
theorem witness_plannerComplete :
    (∃ (s : State) (item : PlanItem), s.fwUp = true ∧ s.itemHeld (↑item.kind) item.ref = false ∧ ((∃ (i : Nat), i < 256 ∧ s.itemState i =
      0)) ∧ ↑item.kind = 1 ∧ item.ref < 2 ∧ s.rd 0x2000 1 = 4 ∧ s.cfg.scrubStart.getD item.ref 0 = 0) ∧
    (∃ (s : State) (item : PlanItem), s.fwUp = true ∧ s.itemHeld (↑item.kind) item.ref = false ∧ ((∃ (i : Nat), i < 256 ∧ s.itemState i =
      0)) ∧ ↑item.kind = 5 ∧ item.ref < 64 ∧ s.rd (pcRec item.ref) 1 = 1) ∧
    (∃ (s : State) (i : Fin 256), s.fwUp = true ∧ s.planWaits ↑i = true ∧ max (s.itemLatest ↑i) (s.item ↑i).earliest ≤ s.now ∧
      s.itemClaim ↑i = true) ∧
    (∃ (s : State) (i : Fin 256), s.itemState ↑i = 1 ∧ s.rd (itemObj ↑i) 5 ≤ s.now) ∧
    (∃ (s : State) (i : Fin 256), s.itemState ↑i = 2 ∧ s.itemOver ↑i = true) :=
  ⟨⟨up [], ⟨1, 0, 10, 10, 0, 100, 0⟩, by decide +kernel, by decide +kernel, ⟨0, by decide +kernel, by decide +kernel⟩, by decide +kernel⟩,
⟨up [o 0x4300 1 1], ⟨5, 0, 10, 10, 0, 100, 0⟩, by decide +kernel, by decide +kernel, ⟨0, by decide +kernel, by decide +kernel⟩,
    by decide +kernel⟩,
⟨up [o 0x3410 1 1, o 0x3410 6 1, o 0x3410 5 5], 0, by decide +kernel⟩,
⟨up [o 0x3410 1 1, o 0x3410 6 1, o 0x3410 5 5], 0, by decide +kernel⟩,
⟨up [o 0x3410 1 3, o 0x3410 6 2], 0, by decide +kernel⟩⟩

/-- Obligations.PoolFifoAndPairsComplete: for each clause a state and operands that meet its hypotheses. -/
theorem witness_poolFifoAndPairsComplete :
    (∃ (s : State) (c : Clu), ∃ (ctrl : Nat), s.poolCtrl (cn c) = some ctrl ∧ poolMode ctrl 0 = 4 ∧ s.fab.poolRest (cn c) 0 ctrl = true ∧
      (s.fab.pool (cn c)).fifoLen < fifoCap ctrl ∧ ∃ (w : Word) (f : FabSt), s.fab.take (sinkCluster (cn c) 3) = some (w, f)) ∧
    (∃ (s : State) (c : Clu), ∃ (ctrl : Nat), s.poolCtrl (cn c) = some ctrl ∧ poolMode ctrl 0 = 4 ∧ s.fab.poolRest (cn c) 1 ctrl = true ∧
      0 < (s.fab.pool (cn c)).fifoLen ∧ (s.fab.pool (cn c)).read1 = none) ∧
    (∃ (s : State) (c : Clu), ∃ (ctrl : Nat), s.poolCtrl (cn c) = some ctrl ∧ poolPairBit ctrl = true ∧ poolMode ctrl 0 < 4 ∧
      s.fab.poolRest (cn c) 0 ctrl = true ∧ s.fab.poolRest (cn c) 1 ctrl = true ∧ ∃ (f0 : FabSt) (a0 : PoolAcc), s.fab.poolNext (cn c) 0
      ctrl = some (some a0, f0) ∧ ∃ (f1 : FabSt) (a1 : PoolAcc), f0.poolNext (cn c) 1 ctrl = some (some a1, f1) ∧ (∀ (f : FabSt),
      s.fab.poolNext (cn c) 1 ctrl ≠ some (none, f))) :=
  ⟨⟨upFab [] { gsr := false, prisms := ⟨[(0, { result := some Word.zero })]⟩, pools := ⟨[(0, { cfg := some 0x3FE00048 })]⟩, wordSel := ⟨[(3, 0)]⟩ },
    ⟨0, 0, 0⟩, _, (Option.some_get (by decide +kernel)).symm, by decide +kernel, by decide +kernel, by decide +kernel, _, _,
    (Option.some_get (by decide +kernel)).symm⟩,
⟨upFab [] { gsr := false, prisms := ⟨[(0, { result := some Word.zero })]⟩, pools := ⟨[(0, { cfg := some 0x3FE00048, fifoLen := 1 })]⟩, wordSel := ⟨[(3, 0)]⟩ },
    ⟨0, 0, 0⟩, _, (Option.some_get (by decide +kernel)).symm, by decide +kernel⟩,
⟨upFab [] { gsr := false, prisms := ⟨[(0, { result := some Word.zero })]⟩, pools := ⟨[(0, { cfg := some 0xFF803FE000B6 })]⟩, wordSel := ⟨[(3, 0)]⟩ },
    ⟨0, 0, 0⟩, _, (Option.some_get (by decide +kernel)).symm, by decide +kernel, by decide +kernel, by decide +kernel, by decide +kernel,
    _, _, rfl, _, _, rfl,
    (by intro f h; have h2 := congrArg (Option.map (fun z : Option PoolAcc × FabSt => z.1.isSome)) h; exact absurd (show (some true : Option Bool) = some false from h2) (by decide))⟩⟩

/-- Obligations.PoolPortsComplete: for each clause a state and operands that meet its hypotheses. -/
theorem witness_poolPortsComplete :
    (∃ (s : State) (c : Clu) (p : Fin 2), ∃ (ctrl : Nat), s.poolCtrl (cn c) = some ctrl ∧ poolPairBit ctrl = false ∧ s.fab.poolRest (cn
      c) (↑p) ctrl = true ∧ poolMode ctrl ↑p = 1 ∧ ∃ (f : FabSt) (a : PoolAcc), s.fab.poolNext (cn c) (↑p) ctrl = some (some a, f) ∧
      a.data = none) ∧
    (∃ (s : State) (c : Clu) (p : Fin 2) (w : Word), ∃ (ctrl : Nat), s.poolCtrl (cn c) = some ctrl ∧ poolPairBit ctrl = false ∧
      s.fab.poolRest (cn c) (↑p) ctrl = true ∧ poolMode ctrl ↑p = 1 ∧ ∃ (f : FabSt) (a : PoolAcc), s.fab.poolNext (cn c) (↑p) ctrl = some
      (some a, f) ∧ a.data = some w) ∧
    (∃ (s : State) (c : Clu) (p : Fin 2), ∃ (ctrl : Nat), s.poolCtrl (cn c) = some ctrl ∧ poolPairBit ctrl = false ∧ s.fab.poolRest (cn
      c) (↑p) ctrl = true ∧ poolMode ctrl ↑p = 1 ∧ ∃ (f : FabSt), s.fab.poolNext (cn c) (↑p) ctrl = some (none, f)) ∧
    (∃ (s : State) (c : Clu) (p : Fin 2) (w : Word), ∃ (ctrl : Nat), s.poolCtrl (cn c) = some ctrl ∧ poolPairBit ctrl = false ∧
      s.fab.poolRest (cn c) (↑p) ctrl = true ∧ poolMode ctrl ↑p = 2 ∧ ∃ (f : FabSt) (a : PoolAcc), s.fab.poolNext (cn c) (↑p) ctrl = some
      (some a, f) ∧ a.data = some w) ∧
    (∃ (s : State) (c : Clu) (p : Fin 2), ∃ (ctrl : Nat), s.poolCtrl (cn c) = some ctrl ∧ poolPairBit ctrl = false ∧ s.fab.poolRest (cn
      c) (↑p) ctrl = true ∧ poolMode ctrl ↑p = 3 ∧ (s.fab.pool (cn c)).latch ↑p = none) :=
  ⟨⟨upFab [] { gsr := false, prisms := ⟨[(0, { result := some Word.zero })]⟩, pools := ⟨[(0, { cfg := some 0x3FE00002 })]⟩, wordSel := ⟨[(3, 0)]⟩ },
    ⟨0, 0, 0⟩, 0, _, (Option.some_get (by decide +kernel)).symm, by decide +kernel, by decide +kernel, by decide +kernel, _, _, rfl, rfl⟩,
⟨upFab [] { gsr := false, prisms := ⟨[(0, { result := some Word.zero })]⟩, pools := ⟨[(0, { cfg := some 0x3FE00002, cmd0 := some ⟨0x200, true, false, false, false⟩ })]⟩, wordSel := ⟨[(3, 0)]⟩ },
    ⟨0, 0, 0⟩, 0, Word.zero, _, (Option.some_get (by decide +kernel)).symm, by decide +kernel, by decide +kernel, by decide +kernel, _,
    _, rfl, rfl⟩,
⟨upFab [] { gsr := false, prisms := ⟨[(0, { result := some ⟨0x200, true, false, false, false⟩ })]⟩, pools := ⟨[(0, { cfg := some 0x3FE00002 })]⟩, wordSel := ⟨[(3, 0)]⟩ },
    ⟨0, 0, 0⟩, 0, _, (Option.some_get (by decide +kernel)).symm, by decide +kernel, by decide +kernel, by decide +kernel, _, rfl⟩,
⟨upFab [] { gsr := false, prisms := ⟨[(0, { result := some Word.zero })]⟩, pools := ⟨[(0, { cfg := some 0x3FE00004 })]⟩, wordSel := ⟨[(3, 0)]⟩ },
    ⟨0, 0, 0⟩, 0, Word.zero, _, (Option.some_get (by decide +kernel)).symm, by decide +kernel, by decide +kernel, by decide +kernel, _,
    _, rfl, rfl⟩,
⟨upFab [] { gsr := false, prisms := ⟨[(0, { result := some Word.zero })]⟩, pools := ⟨[(0, { cfg := some 0x3FE00006 })]⟩, wordSel := ⟨[(3, 0)]⟩ },
    ⟨0, 0, 0⟩, 0, _, (Option.some_get (by decide +kernel)).symm, by decide +kernel⟩⟩

/-- Obligations.PowerStatesComplete: for each clause a state and operands that meet its hypotheses. -/
theorem witness_powerStatesComplete :
    (∃ (s : State) (q : Req), s.rd 0x3000 10 = 0 ∧ s.writeAbort q 0x3000 10 1 1 = 0) ∧
    (∃ (s : State) (q : Req), s.rd 0x3000 10 = 0 ∧ s.writeAbort q 0x3000 10 1 2 = 0) ∧
    (∃ (s : State) (q : Req), s.writeAbort q 0x3000 10 1 0 = 0) ∧
    (∃ (s : State), s.fwUp = true) ∧
    (∃ (s : State), s.dev.por = true ∧ s.dev.shutdown = false) ∧
    (∃ (s : State) (celsius : Int), s.dev.por = false ∧ 100 ≤ celsius) ∧
    (∃ (s : State) (celsius : Int), s.dev.por = false ∧ celsius < 95) ∧
    (∃ (s : State) (celsius : Int), s.dev.por = false ∧ 110 ≤ celsius) ∧
    (∃ (s : State), s.dev.shutdown = true) :=
  ⟨⟨up [], .kimbe, by decide +kernel⟩,
⟨up [], .kimbe, by decide +kernel⟩,
⟨up [], .kimbe, by decide +kernel⟩,
⟨up [], by decide +kernel⟩,
⟨State.reset, by decide +kernel⟩,
⟨up [], 100, by decide +kernel⟩,
⟨up [], 0, by decide +kernel⟩,
⟨up [], 110, by decide +kernel⟩,
⟨{ up [] with dev := { (up []).dev with shutdown := true } }, by decide +kernel⟩⟩

/-- Obligations.PrimeDieCompletes: for each clause a state and operands that meet its hypotheses. -/
theorem witness_primeDieCompletes :
    (∃ (s : State), s.fwUp = true ∧ s.split = false ∧ (¬s.primeDie ∈ s.mgt.released) ∧ s.mgt.leaseSentAt + 1000000 ≤ s.now) ∧
    (∃ (s : State) (d : Fin 2), s.fwUp = true ∧ s.split = false ∧ ↑d = s.primeDie ∧ (¬↑d ∈ s.mgt.released)) ∧
    (∃ (s : State) (d : Fin 2) (claim : Bool), s.fwUp = true ∧ s.split = false ∧ ↑d ≠ s.primeDie ∧ claim = true) ∧
    (∃ (s : State) (d : Fin 2) (claim : Bool), s.fwUp = true ∧ s.split = false ∧ ↑d ≠ s.primeDie ∧ claim = false) ∧
    (∃ (s : State) (d : Fin 2), s.fwUp = true ∧ s.primeDie = ↑d ∧ s.mgt.tieLow = true ∧ s.split = false ∧ (s.mgt.leaseSentAt + 2000000 ≤
      s.now ∨ s.rd (railObj (4 * ↑d + 3)) 5 ≠ 1)) ∧
    (∃ (s : State) (d : Fin 2), s.fwUp = true ∧ s.split = false ∧ s.primeDie = ↑d ∧ s.mgt.ackLapsed = false ∧ s.mgt.lastAck + 3000000 ≤
      s.now) ∧
    (∃ (s : State) (d : Fin 2), s.fwUp = true ∧ s.split = false ∧ s.primeDie ≠ ↑d ∧ s.mgt.lastLease + 3000000 ≤ s.now ∧ s.mgt.lapsedAt ≤
      s.mgt.lastLease ∧ s.mgt.tieLow = true) ∧
    (∃ (s : State) (d : Fin 2), s.fwUp = true ∧ s.split = false ∧ s.primeDie ≠ ↑d ∧ s.mgt.lastLease + 3000000 ≤ s.now ∧ s.mgt.lapsedAt ≤
      s.mgt.lastLease ∧ s.mgt.tieLow = false ∧ (¬↑d ∈ s.mgt.released)) ∧
    (∃ (s : State), s.fwUp = true ∧ s.split = false) ∧
    (∃ (s : State) (q : Req) (v : BitVec 8), s.writeAbort q 0x1030 4 1 v.toNat = 0) :=
  ⟨⟨up [], by decide +kernel⟩,
⟨up [], 0, by decide +kernel⟩,
⟨up [], 1, true, by decide +kernel⟩,
⟨up [], 1, false, by decide +kernel⟩,
⟨up [], 0, by decide +kernel⟩,
⟨up [], 0, by decide +kernel⟩,
⟨up [], 1, by decide +kernel⟩,
⟨{ up [] with mgt := { tieLow := false } }, 1, by decide +kernel⟩,
⟨up [], by decide +kernel⟩,
⟨up [o 0x1030 3 2], .kimbe, 1, by decide +kernel⟩⟩

/-- Obligations.PrismCompletes: for each clause a state and operands that meet its hypotheses. -/
theorem witness_prismCompletes :
    ∃ (s : State) (c : Clu) (g : PrismCfg), (s.fab.prism (cn c)).cfg = some g ∧ s.canStart (rn ⟨c.die, c.region⟩) = true ∧ prismFault g =
      none ∧ s.fab.prismRest (cn c) g = true ∧ ∃ (i : Nat) (cPoison : Bool) (f : FabSt), s.fab.prismEntry (cn c) g = some (i, cPoison, f)
      ∧ ∃ (ws : List (Nat × Word)) (f1 : FabSt), f.takeAll (List.map (sinkCluster (cn c)) (chansUsed (g.entry i))) = some (ws, f1) :=
  ⟨upFab [] { gsr := false, prisms := ⟨[(0, { cfg := some pg })]⟩, pools := ⟨[(0, { read0 := some Word.zero })]⟩, wordSel := ⟨[(0, 1)]⟩ },
   ⟨0, 0, 0⟩, pg, by decide +kernel, by decide +kernel, by decide +kernel, by decide +kernel, _, _, _,
   (Option.some_get (by decide +kernel)).symm, _, _, (Option.some_get (by decide +kernel)).symm⟩

/-- Obligations.PrismSources: for each clause a state and operands that meet its hypotheses. -/
theorem witness_prismSources :
    (∃ (s : State) (ws : List (Nat × Word)) (k : Nat) (w : Word), k < 2 ∧ cellsFind ws k = some w) ∧
    (∃ (s : State) (x : PrismSt) (j : Nat) (v : BitVec 128) (p : Bool), j < 4 ∧ x.l[j]? = some (v, p)) ∧
    (∃ (s : State) (e : Nat), fieldAt e 40 2 = 0 ∧ 2 ≤ opSrcA e) ∧
    (∃ (s : State) (e : Nat), fieldAt e 40 2 = 1 ∧ 2 ≤ opSrcB e) ∧
    (∃ (s : State) (e : Nat), fieldAt e 40 2 = 2 ∧ 2 ≤ opSrcA e) ∧
    (∃ (s : State) (e : Nat), fieldAt e 40 2 = 2 ∧ 2 ≤ opSrcB e) :=
  ⟨⟨up [], [(1, Word.zero)], 1, Word.zero, by decide +kernel⟩,
⟨up [], { l := [(1, false), (2, false), (3, false), (4, true)] }, 3, 4, true, by decide +kernel⟩,
⟨up [], 2 <<< 51, by decide +kernel⟩,
⟨up [], 1 <<< 40 ||| 2 <<< 48, by decide +kernel⟩,
⟨up [], 2 <<< 40 ||| 2 <<< 51, by decide +kernel⟩,
⟨up [], 2 <<< 40 ||| 2 <<< 51 ||| 2 <<< 48, by decide +kernel⟩⟩

/-- Obligations.PseudoChannelsComplete: for each clause a state and operands that meet its hypotheses. -/
theorem witness_pseudoChannelsComplete :
    (∃ (s : State) (die : Fin 2) (pc : Fin 32) (m : PcCmd), ∃ (t : State), t = (s.ageDebt (32 * ↑die + ↑pc)).refreshState (32 * ↑die +
      ↑pc) 0 ∧ s.rd (ctlObj ↑die) 1 = 1 ∧ s.loopClocks (↑die) 2 = true ∧ s.parityBusy (32 * ↑die + ↑pc) = false ∧ (s.pc (32 * ↑die +
      ↑pc)).unsure < 32 ∧ t.nextCmd (32 * ↑die + ↑pc) = PcPick.cmd m) ∧
    (∃ (s : State) (die : Fin 2) (pc : Fin 32) (m : PcCmd), ∃ (t : State), t = (s.ageDebt (32 * ↑die + ↑pc)).refreshState (32 * ↑die +
      ↑pc) 0 ∧ s.rd (ctlObj ↑die) 1 = 1 ∧ s.loopClocks (↑die) 2 = true ∧ s.parityBusy (32 * ↑die + ↑pc) = false ∧ List.find? (fun (m :
      PcCmd) => !m.aged && decide (m.at_ + 8 * s.rd (ctlObj ↑die) 4 ≤ s.now)) (s.pc (32 * ↑die + ↑pc)).queue = some m) ∧
    (∃ (s : State) (die : Fin 2) (pc : Fin 32), ∃ (t : State), t = (s.ageDebt (32 * ↑die + ↑pc)).refreshState (32 * ↑die + ↑pc) 0 ∧ s.rd
      (ctlObj ↑die) 1 = 1 ∧ s.loopClocks (↑die) 2 = true ∧ s.parityBusy (32 * ↑die + ↑pc) = false ∧ (t.rd (pcRec (32 * ↑die + ↑pc)) 1 = 0
      ∨ t.rd (pcRec (32 * ↑die + ↑pc)) 1 = 3) ∧ t.trefi ↑die ≤ (t.pc (32 * ↑die + ↑pc)).debt ∧ (t.pc (32 * ↑die + ↑pc)).perBank = false ∧
      (∀ (m : PcCmd), m ∈ (t.pc (32 * ↑die + ↑pc)).queue → bankOf (t.stackAddr m.addr) ≠ (t.pc (32 * ↑die + ↑pc)).bank)) ∧
    (∃ (s : State) (die : Fin 2) (pc : Fin 32), ∃ (t : State), t = (s.ageDebt (32 * ↑die + ↑pc)).refreshState (32 * ↑die + ↑pc) 0 ∧ s.rd
      (ctlObj ↑die) 1 = 1 ∧ s.loopClocks (↑die) 2 = true ∧ s.parityBusy (32 * ↑die + ↑pc) = false ∧ (s.pc (32 * ↑die + ↑pc)).perBank =
      true) ∧
    (∃ (s : State) (die : Fin 2) (pc : Fin 32), ∃ (t : State), t = (s.ageDebt (32 * ↑die + ↑pc)).refreshState (32 * ↑die + ↑pc) 0 ∧ s.rd
      (ctlObj ↑die) 1 = 1 ∧ s.loopClocks (↑die) 2 = true ∧ s.parityBusy (32 * ↑die + ↑pc) = false ∧ (s.pc (32 * ↑die + ↑pc)).perBank =
      false ∧ s.rd (pcRec (32 * ↑die + ↑pc)) 1 = 2) ∧
    (∃ (s : State) (die : Fin 2) (pc : Fin 32), ∃ (t : State), t = (s.ageDebt (32 * ↑die + ↑pc)).refreshState (32 * ↑die + ↑pc) 0 ∧ s.rd
      (ctlObj ↑die) 1 = 1 ∧ s.loopClocks (↑die) 2 = true ∧ s.parityBusy (32 * ↑die + ↑pc) = false ∧ s.rd (pcRec (32 * ↑die + ↑pc)) 1 < 2
      ∧ 8 * 64 * s.trefi ↑die < s.debtNow (32 * ↑die + ↑pc)) ∧
    (∃ (s : State) (die : Fin 2) (pc : Fin 32), ∃ (t : State), t = (s.ageDebt (32 * ↑die + ↑pc)).refreshState (32 * ↑die + ↑pc) 0 ∧ s.rd
      (ctlObj ↑die) 1 = 1 ∧ s.loopClocks (↑die) 2 = true ∧ s.parityBusy (32 * ↑die + ↑pc) = false ∧ s.rd (pcRec (32 * ↑die + ↑pc)) 1 = 0
      ∧ (s.pc (32 * ↑die + ↑pc)).queue = [] ∧ (s.pc (32 * ↑die + ↑pc)).perBank = false ∧ (s.pc (32 * ↑die + ↑pc)).idleFrom + s.rd (ctlObj
      ↑die) 5 ≤ s.now) :=
  ⟨⟨{ up [] with mem := { pcs := ⟨[(0, { queue := [⟨false, 0, 0, 0, 0, 1, 5, false, false, 1⟩], last := 100000000000 })]⟩ } }, 0, 0,
    ⟨false, 0, 0, 0, 0, 1, 5, false, false, 1⟩, _, rfl, by decide +kernel⟩,
⟨{ up [o 0x4010 4 1] with mem := { pcs := ⟨[(0, { queue := [⟨false, 0, 0, 0, 0, 1, 5, false, false, 1⟩] })]⟩ } }, 0, 0,
    ⟨false, 0, 0, 0, 0, 1, 5, false, false, 1⟩, _, rfl, by decide +kernel⟩,
⟨{ up [] with mem := { pcs := ⟨[(0, { debt := 5000, last := 100000000000 })]⟩ } }, 0, 0, _, rfl, by decide +kernel⟩,
⟨{ up [] with mem := { pcs := ⟨[(0, { perBank := true, last := 100000000000 })]⟩ } }, 0, 0, _, rfl, by decide +kernel⟩,
⟨{ up [o 0x4300 1 2] with mem := { pcs := ⟨[(0, { last := 100000000000 })]⟩ } }, 0, 0, _, rfl, by decide +kernel⟩,
⟨{ up [] with mem := { pcs := ⟨[(0, { debt := 10000000, last := 100000000000 })]⟩ } }, 0, 0, _, rfl, by decide +kernel⟩,
⟨{ up [] with mem := { pcs := ⟨[(0, { last := 100000000000 })]⟩ } }, 0, 0, _, rfl, by decide +kernel⟩⟩

/-- Obligations.QuotesAndTokensComplete: for each clause a state and operands that meet its hypotheses. -/
theorem witness_quotesAndTokensComplete :
    (∃ (s : State) (d : BitVec 4) (q : Req) (v : BitVec 256), s.writeAbort q (quoteObj d.toNat) 1 32 v.toNat = 0) ∧
    (∃ (s : State) (d : BitVec 4), d.toNat ∈ tokenDomains ∧ s.rd (quoteObj d.toNat) 2 = 1 ∧ s.keysReady = true) ∧
    (∃ (s : State) (d : BitVec 4) (q : Req) (bytes : List Byte), s.writeAbort q (tokObj d.toNat) 2 bytes.length 0 = 0) ∧
    (∃ (s : State) (d : BitVec 4) (q : Req) (x : DebugToken), s.writeAbort q (tokObj d.toNat) 3 1 1 = 0 ∧ ∃ (t : DebugToken), t =
      tokenFrom (s.tokBuf d.toNat) x) ∧
    (∃ (s : State) (d : BitVec 4) (q : Req), s.writeAbort q (tokObj d.toNat) 3 1 2 = 0) ∧
    (∃ (s : State) (d : BitVec 4) (q : Req) (v : BitVec 8), s.writeAbort q (tokObj d.toNat) 7 1 v.toNat = 0) ∧
    (∃ (s : State) (d : BitVec 4), d.toNat ∈ tokenDomains ∧ s.rd (tokObj d.toNat) 4 = 1 ∧ s.rd (tokObj d.toNat) 6 ≤ s.now) :=
  ⟨⟨up [], 8, .pf 1, 0, by decide +kernel⟩,
⟨up [o 0x8038 2 1], 8, by decide +kernel⟩,
⟨up [], 8, .pf 1, [1], by decide +kernel⟩,
⟨up [], 8, .pf 1, dtok, by decide +kernel, _, rfl⟩,
⟨up [], 8, .pf 1, by decide +kernel⟩,
⟨up [], 8, .pf 1, 1, by decide +kernel⟩,
⟨up [o 0x8048 4 1, o 0x8048 6 5], 8, by decide +kernel⟩⟩

/-- Obligations.RailsAndLimitsComplete: for each clause a state and operands that meet its hypotheses. -/
theorem witness_railsAndLimitsComplete :
    (∃ (s : State) (r : Region) (target : Fin 3) (cause : Fin 6), (s.hop (rn r)).running = none ∧ (s.hop (rn r)).waiting = some (↑target,
      ↑cause) ∧ s.copyRuns (rn r) = false) ∧
    (∃ (s : State) (r : Region) (old target cause : Nat), (s.hop (rn r)).running = some (old, target, cause)) ∧
    (∃ (s : State) (die : Fin 2) (rail : Fin 3) (mv : Int), s.fwUp = true ∧ (∀ (t : Nat), SMap.get (fun _ => none) s.led.trimAt (4 * ↑die
      + ↑rail) = some t → t + 100000 ≤ s.now) ∧ -5 ≤ mv ∧ mv ≤ 5 ∧ ↑(railNominal ↑rail) - 50 ≤ ↑(s.rd (railObj (4 * ↑die + ↑rail)) 1) +
      mv ∧ ↑(s.rd (railObj (4 * ↑die + ↑rail)) 1) + mv ≤ ↑(railNominal ↑rail) + 50) ∧
    (∃ (s : State) (die : Fin 2) (rail : Fin 4) (mv : BitVec 16), s.dev.por = false ∧ s.rd (railObj (4 * ↑die + ↑rail)) 5 ≠ 2 ∧ (10 *
      mv.toNat < 9 * railNominal ↑rail ∨ 11 * railNominal ↑rail < 10 * mv.toNat)) ∧
    (∃ (s : State) (ma : BitVec 32), s.dev.por = false ∧ 72000 ≤ ma.toNat ∧ s.led.overStart ≠ some (s.now / 10 ^ 9)) ∧
    (∃ (s : State) (die : Fin 2), s.dev.thermLow = true ∧ (¬↑die ∈ s.led.thermDies)) ∧
    (∃ (s : State), s.fwUp = true ∧ s.led.calAt + 64 ≤ s.led.windows) ∧
    (∃ (s : State), s.dev.por = false ∧ 2 ≤ s.rd 0x5000 1) ∧
    (∃ (s : State) (q : Req) (v : BitVec 64), s.writeAbort q 0x3000 5 8 v.toNat = 0) :=
  ⟨⟨{ up [] with led := { hops := ⟨[(0, { waiting := some (2, 0) })]⟩ } }, ⟨0, 0⟩, 2, 0, by decide +kernel⟩,
⟨{ up [] with led := { hops := ⟨[(0, { running := some (1, 2, 0) })]⟩ } }, ⟨0, 0⟩, 1, 2, 0, by decide +kernel⟩,
⟨up [], 0, 0, 0, by decide +kernel, (by intro t h; have h2 : (none : Option Nat) = some t := h; cases h2), by decide +kernel⟩,
⟨up [o 0x3040 5 1], 0, 0, 0, by decide +kernel⟩,
⟨up [], 72000, by decide +kernel⟩,
⟨{ up [] with dev := { (up []).dev with thermLow := true } }, 0, by decide +kernel⟩,
⟨{ up [] with led := { windows := 64, m := { cal := ⟨[(0, 1000)]⟩ } } }, by decide +kernel⟩,
⟨up [], by decide +kernel⟩,
⟨up [], .kimbe, 0, by decide +kernel⟩⟩

/-- Obligations.RayFramesComplete: for each clause a state and operands that meet its hypotheses. -/
theorem witness_rayFramesComplete :
    (∃ (s : State) (l : Lane) (f : RxFrame), ∃ (p : Nat), p = laneNum l ∧ s.rd (rportObj p) 1 ≠ 0 ∧ f.bytes ≠ [] ∧ s.rd (rportObj p) 2 =
      2 ∧ (s.rport p).rx.length + frameRoom (s.rd (rportObj p) 3) ≤ 1024 * s.portWidth p) ∧
    (∃ (s : State) (l : Lane) (f : RxFrame), ∃ (p : Nat), p = laneNum l ∧ s.rd (rportObj p) 1 ≠ 0 ∧ f.bytes ≠ [] ∧ s.rd (rportObj p) 2 =
      2 ∧ ∃ (t : State), t = (s.fecCount p f).rxDrain p ∧ 1024 * s.portWidth p < (t.rport p).rx.length + frameRoom (s.rd (rportObj p) 3)) ∧
    (∃ (s : State) (l : Lane), ∃ (p : Nat), p = laneNum l ∧ s.rd (rportObj p) 1 ≠ 0 ∧ s.canSend p = true ∧ ∃ (t : State), t = s.txAdvance
      p ∧ (t.rport p).sending = none ∧ ∃ (data : List Word) (tr : Word) (rest : List Word), splitFrame (t.rport p).tx = some (data, tr,
      rest) ∧ (stampReq tr = true → t.rd (rportObj p) 6 = 1 → (t.rport p).stamps.length < 64) ∧ frameCause (t.rd (rportObj p) 3) data tr
      = none) ∧
    (∃ (s : State) (l : Lane) (c : Nat), ∃ (p : Nat), p = laneNum l ∧ s.rd (rportObj p) 1 ≠ 0 ∧ s.canSend p = true ∧ ∃ (t : State), t =
      s.txAdvance p ∧ (t.rport p).sending = none ∧ ∃ (data : List Word) (tr : Word) (rest : List Word), splitFrame (t.rport p).tx = some
      (data, tr, rest) ∧ (stampReq tr = true → t.rd (rportObj p) 6 = 1 → (t.rport p).stamps.length < 64) ∧ frameCause (t.rd (rportObj p)
      3) data tr = some c ∧ (c = 1 → t.rd (rportObj p) 4 ≠ 0)) ∧
    (∃ (s : State) (l : Lane), ∃ (p : Nat), p = laneNum l ∧ s.rd (rportObj p) 1 ≠ 0 ∧ s.canSend p = true ∧ ∃ (t : State), t = s.txAdvance
      p ∧ (t.rport p).sending = none ∧ ∃ (data : List Word) (tr : Word) (rest : List Word), splitFrame (t.rport p).tx = some (data, tr,
      rest) ∧ (stampReq tr = true → t.rd (rportObj p) 6 = 1 → (t.rport p).stamps.length < 64) ∧ frameCause (t.rd (rportObj p) 3) data tr
      = some 1 ∧ t.rd (rportObj p) 4 = 0) ∧
    (∃ (s : State) (l : Lane), ∃ (p : Nat), p = laneNum l ∧ s.rd (rportObj p) 1 ≠ 0 ∧ s.canSend p = true ∧ ∃ (t : State), t = s.txAdvance
      p ∧ (t.rport p).sending = none ∧ splitFrame (t.rport p).tx = none ∧ 0 < t.rd (rportObj p) 4 ∧ t.rd (rportObj p) 4 ≤ (t.rport
      p).tx.length ∧ (t.rport p).stamps.length < 64) ∧
    (∃ (s : State) (l : Lane) (st : Nat), ∃ (p : Nat), p = laneNum l ∧ s.rd (rportObj p) 1 ≠ 0 ∧ ∃ (t : State), t = s.txAdvance p ∧
      (t.rport p).sending = some (st, false)) ∧
    (∃ (s : State) (l : Lane) (w : Word) (st : Nat) (rest : List Nat), ∃ (p : Nat), p = laneNum l ∧ s.rd (rportObj p) 1 ≠ 0 ∧ (s.rport
      p).stamps = st :: rest ∧ s.cellOn (fifoSite p 0) true = true ∧ SMap.get (fun _ => []) s.fab.siteOut ((fifoPlace p 0).fst * 16 + 4)
      = [] ∧ ∃ (t : State), s.siteTake (fifoPlace p 0).fst 4 w = some t ∧ ∃ (v : Nat) (t1 : State), t.siteDecide (fifoPlace p 0).fst 3
      (chanId 3 (fifoPlace p 0).fst 0 0 4) st = some (v, t1)) :=
  ⟨⟨{ up [o 0x5840 1 1, o 0x5840 2 2, o 0x5840 3 1518, o 0x5810 2 3, o 0x5811 2 3, o 0x5812 2 3, o 0x5813 2 3] with ray := { lanes := ⟨[]⟩, ports := ⟨[]⟩ } },
    ⟨0, 0⟩, ⟨[1], 0, 0, 0, false, false, [], false⟩, _, rfl, by decide +kernel⟩,
⟨{ up [o 0x5840 1 1, o 0x5840 2 2, o 0x5840 3 1518, o 0x5810 2 3, o 0x5811 2 3, o 0x5812 2 3, o 0x5813 2 3] with ray := { lanes := ⟨[]⟩, ports := ⟨[(0, { rx := List.replicate 1020 Word.zero })]⟩ } },
    ⟨0, 0⟩, ⟨[1], 0, 0, 0, false, false, [], false⟩, _, rfl, by decide +kernel, by decide +kernel, by decide +kernel, _, rfl,
    by decide +kernel⟩,
⟨{ up [o 0x5840 1 1, o 0x5840 2 2, o 0x5840 3 1518, o 0x5810 2 3, o 0x5811 2 3, o 0x5812 2 3, o 0x5813 2 3] with ray := { lanes := ⟨[]⟩, ports := ⟨[(0, { tx := [Word.zero, Word.zero, Word.zero, Word.zero, ⟨BitVec.ofNat 128 64, true, false, false, false⟩] })]⟩ } },
    ⟨0, 0⟩, _, rfl, by decide +kernel, by decide +kernel, _, rfl, by decide +kernel, _, _, _, (Option.some_get (by decide +kernel)).symm,
    by decide +kernel⟩,
⟨{ up [o 0x5840 1 1, o 0x5840 2 2, o 0x5840 3 1518, o 0x5810 2 3, o 0x5811 2 3, o 0x5812 2 3, o 0x5813 2 3] with ray := { lanes := ⟨[]⟩, ports := ⟨[(0, { tx := [Word.zero, ⟨BitVec.ofNat 128 (2 ^ 34 + 16), true, false, false, false⟩] })]⟩ } },
    ⟨0, 0⟩, 2, _, rfl, by decide +kernel, by decide +kernel, _, rfl, by decide +kernel, _, _, _,
    (Option.some_get (by decide +kernel)).symm, by decide +kernel⟩,
⟨{ up [o 0x5840 4 0, o 0x5840 1 1, o 0x5840 2 2, o 0x5840 3 1518, o 0x5810 2 3, o 0x5811 2 3, o 0x5812 2 3, o 0x5813 2 3] with ray := { lanes := ⟨[]⟩, ports := ⟨[(0, { tx := [Word.zero, Word.zero, ⟨16, true, false, false, false⟩] })]⟩ } },
    ⟨0, 0⟩, _, rfl, by decide +kernel, by decide +kernel, _, rfl, by decide +kernel, _, _, _, (Option.some_get (by decide +kernel)).symm,
    by decide +kernel⟩,
⟨{ up [o 0x5840 1 1, o 0x5840 2 2, o 0x5840 3 1518, o 0x5810 2 3, o 0x5811 2 3, o 0x5812 2 3, o 0x5813 2 3, o 0x5840 4 2] with ray := { lanes := ⟨[]⟩, ports := ⟨[(0, { tx := List.replicate 4 Word.zero })]⟩ } },
    ⟨0, 0⟩, _, rfl, by decide +kernel, by decide +kernel, _, rfl, by decide +kernel⟩,
⟨{ up [o 0x5840 1 1, o 0x5840 2 2, o 0x5840 3 1518, o 0x5810 2 3, o 0x5811 2 3, o 0x5812 2 3, o 0x5813 2 3] with ray := { lanes := ⟨[]⟩, ports := ⟨[(0, { sending := some (5, false) })]⟩ } },
    ⟨0, 0⟩, 5, _, rfl, by decide +kernel, _, rfl, by decide +kernel⟩,
⟨{ up [o 0x5840 1 1, o 0x5840 2 2, o 0x5840 3 1518, o 0x5810 2 3, o 0x5811 2 3, o 0x5812 2 3, o 0x5813 2 3, o 0xC118 2 2] with ray := { lanes := ⟨[]⟩, ports := ⟨[(0, { stamps := [5] })]⟩ } },
    ⟨0, 0⟩, Word.zero, 5, [], _, rfl, by decide +kernel, by decide +kernel, by decide +kernel, by decide +kernel, _,
    (Option.some_get (by decide +kernel)).symm, _, _, (Option.some_get (by decide +kernel)).symm⟩⟩

/-- Obligations.RayLanesComplete: for each clause a state and operands that meet its hypotheses. -/
theorem witness_rayLanesComplete :
    (∃ (s : State) (l : Lane), s.rd (laneObj (laneNum l)) 2 = 2 ∧ s.rd (loopObj ⟨l.die, 1⟩) 2 = 2) ∧
    (∃ (s : State) (l : Lane), s.rd (laneObj (laneNum l)) 2 = 3) ∧
    (∃ (s : State) (l : Lane), s.rd (rportObj (laneNum l)) 1 ≠ 0 ∧ (s.rd (rportObj (laneNum l)) 2 = 1 ∨ s.rd (rportObj (laneNum l)) 2 =
      3) ∧ (∀ (k : Nat), k ∈ s.portLanes (laneNum l) → s.rd (laneObj k) 2 = 3)) ∧
    (∃ (s : State) (l : Lane), s.rd (rportObj (laneNum l)) 1 ≠ 0 ∧ s.rd (rportObj (laneNum l)) 2 = 2) ∧
    (∃ (s : State) (l : Lane), s.rd (rportObj (laneNum l)) 1 ≠ 0 ∧ s.rd (rportObj (laneNum l)) 2 = 2) ∧
    (∃ (s : State) (l : Lane), s.rd (rportObj (laneNum l)) 1 ≠ 0 ∧ s.rd (rportObj (laneNum l)) 2 = 4) ∧
    (∃ (s : State) (l : Lane), s.rayRef ↑l.die = true) ∧
    (∃ (s : State) (l : Lane), s.rayRef ↑l.die = false ∧ s.rd 0x2000 1 = 4 ∧ s.rd 0x3000 10 = 0 ∧ s.ray.tampered = false) :=
  ⟨⟨up [o 0x5810 2 2], ⟨0, 0⟩, by decide +kernel⟩,
⟨up [o 0x5810 2 3], ⟨0, 0⟩, by decide +kernel⟩,
⟨up [o 0x5840 2 1, o 0x5840 1 1, o 0x5840 2 2, o 0x5840 3 1518, o 0x5810 2 3, o 0x5811 2 3, o 0x5812 2 3, o 0x5813 2 3], ⟨0, 0⟩,
    by decide +kernel⟩,
⟨up [o 0x5840 1 1, o 0x5840 2 2, o 0x5840 3 1518, o 0x5810 2 3, o 0x5811 2 3, o 0x5812 2 3, o 0x5813 2 3], ⟨0, 0⟩, by decide +kernel⟩,
⟨up [o 0x5840 1 1, o 0x5840 2 2, o 0x5840 3 1518, o 0x5810 2 3, o 0x5811 2 3, o 0x5812 2 3, o 0x5813 2 3], ⟨0, 0⟩, by decide +kernel⟩,
⟨up [o 0x5840 2 4, o 0x5840 1 1, o 0x5840 2 2, o 0x5840 3 1518, o 0x5810 2 3, o 0x5811 2 3, o 0x5812 2 3, o 0x5813 2 3], ⟨0, 0⟩,
    by decide +kernel⟩,
⟨up [o 0x5800 3 1], ⟨0, 0⟩, by decide +kernel⟩,
⟨up [], ⟨0, 0⟩, by decide +kernel⟩⟩

/-- Obligations.RayRawComplete: for each clause a state and operands that meet its hypotheses. -/
theorem witness_rayRawComplete :
    (∃ (s : State) (l : Lane), ∃ (k : Nat), k = laneNum l ∧ s.rd (laneObj k) 8 = 255 ∧ s.rd (laneObj k) 2 = 3 ∧ ∃ (t : State), t =
      s.rxDrain k ∧ (t.lane k).held = 0 ∧ (t.lane k).carry = 0 ∧ (t.lane k).skip = 0 ∧ (t.lane k).elastic.length < 256) ∧
    (∃ (s : State) (l : Lane), ∃ (k : Nat), k = laneNum l ∧ s.rd (laneObj k) 8 = 255 ∧ s.rd (laneObj k) 2 = 3 ∧ ∃ (t : State), t =
      s.rxDrain k ∧ (t.lane k).held = 0 ∧ (t.lane k).carry = 0 ∧ (t.lane k).skip = 0 ∧ 256 ≤ (t.lane k).elastic.length) ∧
    (∃ (s : State) (l : Lane), ∃ (k : Nat), k = laneNum l ∧ s.rawSends k = true ∧ (s.cellAt (siteNum (fifoSite k ((s.lane k).txIndex %
      4)))).fifo = []) ∧
    (∃ (s : State) (l : Lane) (q : Req) (v : BitVec 8), ∃ (k : Nat), k = laneNum l ∧ s.writeAbort q (laneObj k) 9 1 v.toNat = 0) ∧
    (∃ (s : State) (l : Lane) (q : Req) (tap : Fin 4) (v : BitVec 16), ∃ (k : Nat), k = laneNum l ∧ s.writeAbort q (eqObj k) (1 + ↑tap) 2
      v.toNat = 0) :=
  ⟨⟨{ up [o 0x5810 8 0xFF, o 0x5810 2 3] with ray := { lanes := ⟨[]⟩, ports := ⟨[]⟩ } }, ⟨0, 0⟩, _, rfl, by decide +kernel,
    by decide +kernel, _, rfl, by decide +kernel⟩,
⟨{ up [o 0x5810 8 0xFF, o 0x5810 2 3] with ray := { lanes := ⟨[(0, { elastic := List.replicate 330 Word.zero })]⟩, ports := ⟨[]⟩ } },
    ⟨0, 0⟩, _, rfl, by decide +kernel, by decide +kernel, _, rfl, by decide +kernel⟩,
⟨{ up [o 0x5810 8 0xFF, o 0x5810 2 3, o 0x5810 3 1] with ray := { lanes := ⟨[]⟩, ports := ⟨[]⟩ } }, ⟨0, 0⟩, _, rfl, by decide +kernel⟩,
⟨up [o 0x5810 8 0xFF, o 0x5810 2 3], ⟨0, 0⟩, .kimbe, 1, _, rfl, by decide +kernel⟩,
⟨up [], ⟨0, 0⟩, .kimbe, 0, 0, _, rfl, by decide +kernel⟩⟩

/-- Obligations.ResetsAndLinkComplete: for each clause a state and operands that meet its hypotheses. -/
theorem witness_resetsAndLinkComplete :
    (∃ (s : State) (f : Fin 8) (v : Fin 32) (c : Nat), c = 256 * (↑f + 1) + ↑v + 1 ∧ s.hostUp (↑f + 1) = true ∧ s.rd (vfObj (↑f + 1) (↑v
      + 1)) 1 = 1) ∧
    (∃ (s : State), s.hostUp 0 = true) ∧
    (∃ (s : State) (n : Fin 8), s.hostUp (↑n + 1) = true) ∧
    (∃ (s : State) (q : Req) (f : Fin 9) (v : BitVec 8), s.writeAbort q (pfObj ↑f) 5 1 v.toNat = 0) ∧
    (∃ (s : State) (f : Func), ↑f.v = 0 ∧ s.rd (pfObj ↑f.f) 6 = 2 ∧ s.resetOver (funcDomain (256 * ↑f.f)) = true ∧ s.cfg.reconfig = none) ∧
    (∃ (s : State), s.dev.por = false ∧ s.dev.perstLow = true) ∧
    (∃ (s : State), s.dev.por = false ∧ 2 ≤ s.rd 0x5000 1 ∧ s.dev.perstLow = false) ∧
    (∃ (s : State), s.dev.por = false ∧ 2 ≤ s.rd 0x5000 1) ∧
    (∃ (s : State), s.dev.por = false ∧ 2 ≤ s.rd 0x5000 1) ∧
    (∃ (s : State) (st : Fin 8), s.dev.por = false ∧ 2 ≤ s.rd 0x5000 1 ∧ 2 ≤ ↑st) ∧
    (∃ (s : State) (w : BitVec 8) (rate : Fin 8), linkOk w rate = true ∧ s.dev.por = false ∧ s.dev.perstLow = false ∧ s.rd 0x5000 1 < 2 ∧
      s.tst.stuck.contains (unitKey 4 0) = false) :=
  ⟨⟨up [o 0x5400 1 1], 0, 0, 257, by decide +kernel⟩,
⟨up [], by decide +kernel⟩,
⟨up [], 0, by decide +kernel⟩,
⟨up [], .kimbe, 1, 1, by decide +kernel⟩,
⟨up [o 0x5011 6 2], ⟨1, 0⟩, by decide +kernel⟩,
⟨{ up [] with dev := { (up []).dev with perstLow := true } }, by decide +kernel⟩,
⟨up [], by decide +kernel⟩,
⟨up [], by decide +kernel⟩,
⟨up [], by decide +kernel⟩,
⟨up [], 2, by decide +kernel⟩,
⟨up [o 0x5000 1 0], 16, 6, by decide +kernel⟩⟩

/-- Obligations.RingsAndClaimsComplete: for each clause a state and operands that meet its hypotheses. -/
theorem witness_ringsAndClaimsComplete :
    (∃ (s : State) (f : Func) (r : Fin 256) (cfg : BitVec 32), s.seesRing f ↑r = true ∧ (s.out.ring ↑r).en = false ∧ cfg.getLsbD 31 =
      true) ∧
    (∃ (s : State) (f : Func) (r : Fin 256) (v : BitVec 32) (k : Nat), s.seesRing f ↑r = true ∧ 0 < k ∧ k ≤ (s.out.ring ↑r).used ∧ k <
      (s.out.ring ↑r).size ∧ (s.out.ring ↑r).head < (s.out.ring ↑r).size ∧ v.toNat = ((s.out.ring ↑r).head + k) % (s.out.ring ↑r).size) ∧
    (∃ (s : State) (r : Fin 256), (s.out.ring ↑r).en = true ∧ (s.out.ring ↑r).windowOver s.now = true) ∧
    (∃ (s : State) (q : Req) (r : Resource), s.writeAbort q (resourceObj r) 1 1 1 = 0) ∧
    (∃ (s : State) (q : Req) (r : Resource), s.writeAbort q (resourceObj r) 1 1 0 = 0) :=
  ⟨⟨{ up [o 0x5200 1 1, o 0x5200 2 0] with out := { rings := ⟨[(0, { cfg := 6 })]⟩ } }, ⟨0, 0⟩, 0, BitVec.ofNat 32 (2 ^ 31 + 6),
    by decide +kernel⟩,
⟨{ up [o 0x5200 1 1, o 0x5200 2 0] with out := { rings := ⟨[(0, { cfg := 2 ^ 31 + 6, used := 3, tail := 3 })]⟩ } }, ⟨0, 0⟩, 0, 2, 2,
    by decide +kernel⟩,
⟨{ up [o 0x5200 1 1, o 0x5200 2 0] with out := { rings := ⟨[(0, { cfg := 2 ^ 31 + 6, moderation := 0x10001, unsignalled := 1 })]⟩ } },
    0, by decide +kernel⟩,
⟨up [], .kimbe, .engine 63, by decide +kernel⟩,
⟨up [o 0x513F 1 1, o 0x513F 2 0], .kimbe, .engine 63, by decide +kernel⟩⟩

/-- Obligations.RoutingCompletes: for each clause a state and operands that meet its hypotheses. -/
theorem witness_routingCompletes :
    (∃ (s : State) (r : Region) (side : Fin 4) (seg : Fin 32), ∃ (far : Nat × Nat), arcFar (rn r) ↑side = some far ∧ (s.fab.driveOf (rn
      r) ↑side).testBit ↑seg = true ∧ SMap.get (fun _ => none) s.fab.arcTx (arcKey (rn r) ↑side ↑seg) = none ∧ s.active (rn r) = true ∧
      s.chanClosed (rn r) (chanId 1 (rn r) (↑side) 0 ↑seg) = false ∧ ∃ (w : Word) (f : FabSt), s.fab.take (sinkArc (rn r) ↑side ↑seg) =
      some (w, f)) ∧
    (∃ (s : State) (r : Region) (side : Fin 4) (seg : Fin 32) (m side' : Nat) (w : Word), arcFar (rn r) ↑side = some (m, side') ∧
      (s.fab.driveOf m side').testBit ↑seg = true ∧ SMap.get (fun _ => none) s.fab.arcTx (arcKey m side' ↑seg) = some w ∧ SMap.get (fun _
      => none) s.fab.arcRx (arcKey (rn r) ↑side ↑seg) = none ∧ s.active m = true ∧ (s.paceTake m).isSome = true) ∧
    (∃ (s : State) (east : Bool) (ch : Fin 64), 0 < (s.fab.bisCh (bisNum east ↑ch)).credit ∧ s.active (bisSender east ↑ch).fst = true ∧
      s.chanClosed (bisSender east ↑ch).fst (chanId 2 (bisSender east ↑ch).fst (bisSender east ↑ch).snd.fst 0 ↑ch) = false ∧ ∃ (w : Word)
      (f : FabSt), s.fab.take (sinkArc (bisSender east ↑ch).fst (bisSender east ↑ch).snd.fst (bisSender east ↑ch).snd.snd) = some (w, f)
      ∧ (({ s with fab := f } : State).paceTake (bisSender east ↑ch).fst).isSome = true) ∧
    (∃ (s : State) (east : Bool) (ch : Fin 64) (w : Word) (rest : List Word), (s.fab.bisCh (bisNum east ↑ch)).flight = w :: rest) ∧
    (∃ (s : State) (east : Bool) (ch : Fin 64), 0 < (s.fab.bisCh (bisNum east ↑ch)).creditFlight) :=
  ⟨⟨upFab [] { gsr := false, siteOut := ⟨[(3, [Word.zero])]⟩, spanWordArc := ⟨[(32, 0x183)]⟩, drive := ⟨[(1, 1)]⟩ }, ⟨0, 0⟩, 1, 0, _,
    (Option.some_get (by decide +kernel)).symm, by decide +kernel, by decide +kernel, by decide +kernel, by decide +kernel, _, _,
    (Option.some_get (by decide +kernel)).symm⟩,
⟨upFab [o 0xC101 2 2] { gsr := false, arcTx := ⟨[(224, some Word.zero)]⟩, drive := ⟨[(7, 1)]⟩ }, ⟨0, 0⟩, 1, 0, 1, 3, Word.zero,
    by decide +kernel⟩,
⟨upFab [o 0xC107 2 2] { gsr := false, siteOut := ⟨[(115, [Word.zero])]⟩, spanWordArc := ⟨[(928, 0x183)]⟩ }, true, 0,
    by decide +kernel, by decide +kernel, by decide +kernel, _, _, (Option.some_get (by decide +kernel)).symm, by decide +kernel⟩,
⟨upFab [] { gsr := false, bis := ⟨[(0, { credit := 15, flight := [Word.zero] })]⟩ }, true, 0, Word.zero, [], by decide +kernel⟩,
⟨upFab [] { gsr := false, bis := ⟨[(0, { creditFlight := 1, credit := 15 })]⟩ }, true, 0, by decide +kernel⟩⟩

/-- Obligations.ScrubAndSnapshotsComplete: for each clause a state and operands that meet its hypotheses. -/
theorem witness_scrubAndSnapshotsComplete :
    (∃ (s : State) (die : Fin 2) (t0 : Nat), s.cfg.scrubStart.getD (↑die) 0 = t0 + 1) ∧
    (∃ (s : State) (q : Req) (k : Fin 64), s.writeAbort q (slotObj ↑k) 7 1 1 = 0) ∧
    (∃ (s : State) (q : Req) (k : Fin 64), s.writeAbort q (slotObj ↑k) 7 1 2 = 0) ∧
    (∃ (s : State) (k : Fin 64) (faults : List FrameFault), s.rd (slotObj ↑k) 8 = 2 ∧ s.slotFenced (↑k) 2 = true ∧ ∃ (n : Nat),
      (s.checkFrames false (s.slot ↑k).members faults).snd.snd = some n) ∧
    (∃ (s : State) (k : Fin 64) (faults : List FrameFault) (r : Region), s.rd (slotObj ↑k) 8 = 2 ∧ s.slotFenced (↑k) 2 = true ∧
      (s.checkFrames false (s.slot ↑k).members faults).snd.snd = none ∧ rn r ∈ (s.slot ↑k).members) ∧
    (∃ (s : State) (k : Fin 64) (faults : List FrameFault), s.rd (slotObj ↑k) 8 = 2 ∧ s.slotFenced (↑k) 2 = true ∧ (s.checkFrames false
      (s.slot ↑k).members faults).snd.snd = none) ∧
    (∃ (s : State) (k : Fin 64) (faults : List FrameFault), s.rd (slotObj ↑k) 8 = 3 ∧ s.slotFenced (↑k) 3 = true ∧ (s.checkFrames true
      (s.slot ↑k).members faults).fst.imagePoison ↑k = none) ∧
    (∃ (s : State) (k : Fin 64) (faults : List FrameFault), s.rd (slotObj ↑k) 8 = 3 ∧ s.slotFenced (↑k) 3 = true ∧ ∃ (p : Nat × Nat),
      (s.checkFrames true (s.slot ↑k).members faults).fst.imagePoison ↑k = some p) ∧
    (∃ (s : State) (k : Fin 64) (r : Region), s.rd (slotObj ↑k) 8 = 3 ∧ s.slotFenced (↑k) 3 = true ∧ rn r ∈ (s.slot ↑k).members) :=
  ⟨⟨{ up [] with cfg := { scrubStart := [6, 0] } }, 0, 5, by decide +kernel⟩,
⟨up [o 0x2A00 1 1, o 0x2A00 2 1, o 0x2A00 3 1, o 0xC100 1 1], .kimbe, 0, by decide +kernel⟩,
⟨{ up [o 0x2A00 1 1, o 0x2A00 2 1, o 0x2A00 3 1, o 0xC100 1 1, o 0x2A00 8 1] with cfg := { slots := ⟨[(0, { images := [(0, img)] })]⟩ } },
    .kimbe, 0, by decide +kernel⟩,
⟨{ up [o 0x2A00 1 1, o 0x2A00 2 1, o 0x2A00 3 1, o 0xC100 1 1, o 0x2A00 8 2, o 0xC100 2 4, o 0xC100 4 4] with cfg := { slots := ⟨[(0, { members := [0] })]⟩ } },
    0, [⟨0, [(0, true), (1, false)], false, 1, some 1, 0⟩], by decide +kernel, by decide +kernel,
    Option.isSome_iff_exists.mp (by decide +kernel)⟩,
⟨{ up [o 0x2A00 1 1, o 0x2A00 2 1, o 0x2A00 3 1, o 0xC100 1 1, o 0x2A00 8 2, o 0xC100 2 4, o 0xC100 4 4] with cfg := { slots := ⟨[(0, { members := [0] })]⟩ } },
    0, [], ⟨0, 0⟩, by decide +kernel⟩,
⟨{ up [o 0x2A00 1 1, o 0x2A00 2 1, o 0x2A00 3 1, o 0xC100 1 1, o 0x2A00 8 2, o 0xC100 2 4, o 0xC100 4 4] with cfg := { slots := ⟨[(0, { members := [0] })]⟩ } },
    0, [], by decide +kernel⟩,
⟨{ up [o 0x2A00 1 1, o 0x2A00 2 1, o 0x2A00 3 1, o 0xC100 1 1, o 0x2A00 8 3, o 0xC100 2 4, o 0xC100 4 8] with cfg := { slots := ⟨[(0, { members := [0], images := [(0, img)] })]⟩ } },
    0, [], by decide +kernel⟩,
⟨{ up [o 0x2A00 1 1, o 0x2A00 2 1, o 0x2A00 3 1, o 0xC100 1 1, o 0x2A00 8 3, o 0xC100 2 4, o 0xC100 4 8] with cfg := { slots := ⟨[(0, { members := [0], images := [(0, img)] })]⟩ } , mem := { errs := ⟨[(0x7A000000, 2)]⟩ } },
    0, [], by decide +kernel, by decide +kernel, Option.isSome_iff_exists.mp (by decide +kernel)⟩,
⟨{ up [o 0x2A00 1 1, o 0x2A00 2 1, o 0x2A00 3 1, o 0xC100 1 1, o 0x2A00 8 3, o 0xC100 2 4, o 0xC100 4 8] with cfg := { slots := ⟨[(0, { members := [0], images := [(0, img)] })]⟩ } },
    0, ⟨0, 0⟩, by decide +kernel⟩⟩

/-- Obligations.SelfTestCompletes: for each clause a state and operands that meet its hypotheses. -/
theorem witness_selfTestCompletes :
    (∃ (s : State) (k : Fin 16) (r test unit_ : Nat) (q : Req), r = testObj ↑k ∧ test = s.rd r 3 ∧ unit_ = s.rd r 4 ∧ s.writeAbort q r 7
      1 1 = 0 ∧ ((∃ (i : Nat), i < 256 ∧ s.itemState i = 0))) ∧
    (∃ (s : State) (k : Fin 16) (r test unit_ : Nat) (q : Req), r = testObj ↑k ∧ test = s.rd r 3 ∧ unit_ = s.rd r 4 ∧ s.writeAbort q r 7
      1 2 = 0 ∧ s.rd r 8 = 1 ∧ testUnitOk test unit_ = true) ∧
    (∃ (s : State) (k : Fin 16) (r test unit_ : Nat) (q : Req), r = testObj ↑k ∧ test = s.rd r 3 ∧ unit_ = s.rd r 4 ∧ s.writeAbort q r 7
      1 2 = 0 ∧ s.rd r 8 ≠ 1) ∧
    (∃ (s : State) (k : Fin 16) (r test unit_ : Nat), r = testObj ↑k ∧ test = s.rd r 3 ∧ unit_ = s.rd r 4 ∧ testUnitOk test unit_ = true
      ∧ s.rd r 8 = 1 ∧ s.rd 0x7000 (1 + testDie test unit_) = ↑k ∧ s.testPre test unit_ ≠ 0) ∧
    (∃ (s : State) (k : Fin 16) (r test unit_ : Nat), r = testObj ↑k ∧ test = s.rd r 3 ∧ unit_ = s.rd r 4 ∧ testUnitOk test unit_ = true
      ∧ s.rd r 8 = 1 ∧ s.rd 0x7000 (1 + testDie test unit_) = ↑k ∧ s.testPre test unit_ = 0) ∧
    (∃ (s : State) (k : Fin 16) (r test unit_ : Nat) (o : TestOutcome), r = testObj ↑k ∧ test = s.rd r 3 ∧ unit_ = s.rd r 4 ∧ testUnitOk
      test unit_ = true ∧ s.testRuns ↑k = true ∧ ∃ (x : TestOutcome), x = trimOutcome test o ∧ ∃ (a : Nat) (b : Nat), (a, b) = testResult
      test (s.effCount ↑k) x (s.freeVal 8)) ∧
    (∃ (s : State) (k : Fin 16) (r test unit_ : Nat), r = testObj ↑k ∧ test = s.rd r 3 ∧ unit_ = s.rd r 4 ∧ testUnitOk test unit_ = true
      ∧ s.testRuns ↑k = true ∧ testEndable test = true) ∧
    (∃ (s : State) (k : Fin 16) (r test unit_ : Nat), r = testObj ↑k ∧ test = s.rd r 3 ∧ unit_ = s.rd r 4 ∧ testUnitOk test unit_ = true
      ∧ s.testRuns ↑k = true ∧ s.rd r 17 + 2 * s.testMax ↑k ≤ s.now) ∧
    (∃ (s : State) (k : Fin 16) (r test unit_ : Nat), r = testObj ↑k ∧ test = s.rd r 3 ∧ unit_ = s.rd r 4 ∧ testUnitOk test unit_ = true
      ∧ s.testRuns ↑k = true ∧ test = 2 ∧ s.rd r 17 + 100000000 ≤ s.now) :=
  ⟨⟨up [o 0x7010 1 1, o 0x7010 2 1, o 0x7010 3 1, o 0x7010 4 0, o 0x7010 8 0], 0, testObj 0, 1, 0, .kimbe, by decide +kernel,
    by decide +kernel, by decide +kernel, by decide +kernel, ⟨0, by decide +kernel, by decide +kernel⟩⟩,
⟨up [o 0x7010 1 1, o 0x7010 2 1, o 0x7010 3 1, o 0x7010 4 0, o 0x7010 8 1], 0, testObj 0, 1, 0, .kimbe, by decide +kernel⟩,
⟨up [o 0x7010 1 1, o 0x7010 2 1, o 0x7010 3 1, o 0x7010 4 0, o 0x7010 8 2], 0, testObj 0, 1, 0, .kimbe, by decide +kernel⟩,
⟨up [o 0x7010 1 1, o 0x7010 2 1, o 0x7010 3 1, o 0x7010 4 0, o 0x7010 8 1, o 0x7000 1 0, o 0x5810 3 1], 0, testObj 0, 1, 0,
    by decide +kernel⟩,
⟨up [o 0x7010 1 1, o 0x7010 2 1, o 0x7010 3 1, o 0x7010 4 0, o 0x7010 8 1, o 0x7000 1 0], 0, testObj 0, 1, 0, by decide +kernel⟩,
⟨up [o 0x7010 1 1, o 0x7010 2 1, o 0x7010 3 1, o 0x7010 4 0, o 0x7010 8 2], 0, testObj 0, 1, 0, ⟨0, false, 0, 0, 0, 0, true⟩,
    by decide +kernel, by decide +kernel, by decide +kernel, by decide +kernel, by decide +kernel, _, rfl, _, _, rfl⟩,
⟨up [o 0x7010 1 1, o 0x7010 2 1, o 0x7010 3 5, o 0x7010 4 0, o 0x7010 8 2], 0, testObj 0, 5, 0, by decide +kernel⟩,
⟨up [o 0x7010 1 1, o 0x7010 2 1, o 0x7010 3 1, o 0x7010 4 0, o 0x7010 8 2, o 0x5810 4 53125], 0, testObj 0, 1, 0, by decide +kernel⟩,
⟨up [o 0x7010 1 1, o 0x7010 2 1, o 0x7010 3 2, o 0x7010 4 0, o 0x7010 8 2], 0, testObj 0, 2, 0, by decide +kernel⟩⟩

/-- Obligations.StacksComplete: for each clause a state and operands that meet its hypotheses. -/
theorem witness_stacksComplete :
    (∃ (s : State) (die : Fin 2) (ch : Fin 16), (s.rd (ctlObj ↑die) 13).testBit ↑ch = false ∧ s.refreshes ↑die = true ∧ SMap.get (fun _
      => 0) s.mem.replaying (16 * ↑die + ↑ch) < 3) ∧
    (∃ (s : State) (die : Fin 2) (ch : Fin 16), (s.rd (ctlObj ↑die) 13).testBit ↑ch = false ∧ s.refreshes ↑die = true ∧ 3 ≤ SMap.get (fun
      _ => 0) s.mem.replaying (16 * ↑die + ↑ch)) ∧
    (∃ (s : State) (die : Fin 2) (ch : Fin 16), SMap.get (fun _ => 0) s.mem.replaying (16 * ↑die + ↑ch) ≠ 0) ∧
    (∃ (s : State) (die : Fin 2), s.dev.por = false ∧ s.rd (ctlObj ↑die) 1 = 0) ∧
    (∃ (s : State) (die : Fin 2), s.dev.por = false ∧ s.rd (ctlObj ↑die) 1 = 0) ∧
    (∃ (s : State) (die : Fin 2), s.refreshes ↑die = true ∧ s.wantsSelfRefresh ↑die = true) ∧
    (∃ (s : State) (die : Fin 2), s.rd (ctlObj ↑die) 1 = 2 ∧ s.stackTested ↑die = false ∧ s.stackQuiet ↑die = false) ∧
    (∃ (s : State) (w : Fin 64) (own : Bool) (t0 : Nat), List.find? (fun (z : Nat × Bool × Nat) => decide (z.fst = ↑w)) s.mem.zeroing =
      some (↑w, own, t0) ∧ s.zeroBefore ↑w = false ∧ (own = true → s.orphanFor ↑w = false)) :=
  ⟨⟨up [], 0, 0, by decide +kernel⟩,
⟨{ up [] with mem := { replaying := ⟨[(0, 3)]⟩ } }, 0, 0, by decide +kernel⟩,
⟨{ up [] with mem := { replaying := ⟨[(0, 1)]⟩ } }, 0, 0, by decide +kernel⟩,
⟨up [o 0x4010 1 0], 0, by decide +kernel⟩,
⟨up [o 0x4010 1 0], 0, by decide +kernel⟩,
⟨up [o 0x3000 0xA 1], 0, by decide +kernel⟩,
⟨{ up [o 0x4010 1 2] with mem := { pcs := ⟨[(0, { queue := [⟨false, 0, 0, 0, 0, 1, 5, false, false, 1⟩], last := 100000000000 })]⟩ } },
    0, by decide +kernel⟩,
⟨{ up [] with mem := { zeroing := [(0, true, 5)] } }, 0, true, 5, by decide +kernel⟩⟩

/-- Obligations.StepKeepsMemoryForm: for each clause a state and operands that meet its hypotheses. -/
theorem witness_stepKeepsMemoryForm :
    ∃ (s t : State), s.mem.wf = true ∧ step s = Host.Outcome.next t :=
  ⟨State.reset, State.reset, by decide +kernel, rfl⟩

/-- Obligations.StepKeepsRails: for each clause a state and operands that meet its hypotheses. -/
theorem witness_stepKeepsRails :
    ∃ (s t : State), AllRailsOk s ∧ step s = Host.Outcome.next t :=
  ⟨State.reset, State.reset, ⟨fun _ h => (List.not_mem_nil h).elim, fun _ h => (List.not_mem_nil h).elim⟩, rfl⟩

/-- Obligations.StepRunsFront: for each clause a state and operands that meet its hypotheses. -/
theorem witness_stepRunsFront :
    (∃ (s : State) (c : Instr) (rest : List Instr), s.pending = c :: rest) ∧
    (∃ (s : State), s.pending = []) :=
  ⟨⟨{ up [] with pending := [.idcode] }, .idcode, [], by decide +kernel⟩,
⟨up [], by decide +kernel⟩⟩

/-- Obligations.StreamCommandsComplete: for each clause a state and operands that meet its hypotheses. -/
theorem witness_streamCommandsComplete :
    (∃ (s : State) (st : Sys2Proof.Stream), ∃ (kind : Nat) (since : Nat), (s.stream (streamKey st)).stalledAt = some (kind, since) ∧
      since + 1000000 ≤ s.now ∧ (s.stream (streamKey st)).stallRaised = false) ∧
    (∃ (s : State) (st : Sys2Proof.Stream), s.replaying (streamKey st) = true ∧ (s.stream (streamKey st)).stopped = false ∧ (s.stream
      (streamKey st)).repFailed = false ∧ (s.stream (streamKey st)).ready = none ∧ (s.stream (streamKey st)).epochRead = true ∧ ∃ (w :
      Nat), s.replayPeek (streamKey st) = some w) ∧
    (∃ (s : State) (st : Sys2Proof.Stream), ∃ (key : Nat) (v : Nat), (s.stream (streamKey st)).ready = some (key, v) ∧ ∃ (since : Nat),
      (s.stream (streamKey st)).headSince = some since ∧ (s.stream (streamKey st)).headRaised = false ∧ since + s.replayTimeout
      (streamKey st) < s.now) :=
  ⟨⟨upFab [] { gsr := false, streams := ⟨[(0, { stalledAt := some (1, 5) })]⟩ }, .region ⟨0, 0⟩, _, _,
    (Option.some_get (by decide +kernel)).symm, by decide +kernel⟩,
⟨{ upFab [o 0xC400 2 0, o 0xC400 3 2, o 0xB100 2 1] { gsr := false, streams := ⟨[(0, { epochRead := true })]⟩ } with loc := { queues := ⟨[(0, { items := [⟨[logRecord 1 0 0 1], 0, 0, []⟩], batch := 1 })]⟩ } },
    .region ⟨0, 0⟩, by decide +kernel, by decide +kernel, by decide +kernel, by decide +kernel, by decide +kernel,
    Option.isSome_iff_exists.mp (by decide +kernel)⟩,
⟨upFab [] { gsr := false, streams := ⟨[(0, { ready := some (0, 1), headSince := some 5 })]⟩ }, .region ⟨0, 0⟩, _, _,
    (Option.some_get (by decide +kernel)).symm, _, (Option.some_get (by decide +kernel)).symm, by decide +kernel⟩⟩

/-- Obligations.TamperCompletes: for each clause a state and operands that meet its hypotheses. -/
theorem witness_tamperCompletes :
    (∃ (s : State), s.dev.tamperLow = false) ∧
    (∃ (s : State) (q : Req) (v : BitVec 8), s.writeAbort q 0x8050 4 1 v.toNat = 0) ∧
    (∃ (s : State), s.dev.tamperLow = true) :=
  ⟨⟨up [], by decide +kernel⟩,
⟨up [o 0x8050 1 2, o 0x8050 2 2, o 0x8041 4 1, o 0x8041 5 0xF, o 0x8041 6 200000000000], .kimbe, 1, by decide +kernel⟩,
⟨{ up [] with dev := { (up []).dev with tamperLow := true } }, by decide +kernel⟩⟩

/-- Obligations.UnusedInputsReadZero: for each clause a state and operands that meet its hypotheses. -/
theorem witness_unusedInputsReadZero :
    ∃ (s : State) (i : Nat) (c : LuCfg), i < 6 ∧ (if c.mode = 0 then c.use.testBit (i / 2 * 2) = false ∧ c.use.testBit (i / 2 * 2 + 1) =
      false else c.use.testBit i = false) ∧ (¬(c.mode = 0 ∧ c.carry ≠ 0 ∧ 4 ≤ i)) :=
  ⟨up [], 5, lc 0x1F01 0 0, by decide +kernel⟩

/-- Obligations.WellFormedCommandsRun: for each clause a state and operands that meet its hypotheses. -/
theorem witness_wellFormedCommandsRun :
    (∃ (s : State) (i : Instr), i.wellFormed = true) ∧
    (∃ (s : State) (i : Instr), i.wellFormed = false) :=
  ⟨⟨up [], .idcode, by decide +kernel⟩,
⟨up [], .mailboxWrite 0 0 0 (List.replicate 4097 0) 0, by decide +kernel⟩⟩

/-- Obligations.WordCrossingsComplete: for each clause a state and operands that meet its hypotheses. -/
theorem witness_wordCrossingsComplete :
    (∃ (s : State) (site : Site) (w : Word), s.siteType site = 0 ∧ s.cellOn site false = true ∧ (s.cellAt (siteNum site)).fifo.length <
      16 ∧ ∃ (t : State), s.siteTake (siteRegion site) (siteSlot site) w = some t ∧ ∃ (t1 : State), t.enterIsland site (siteChan site 0)
      = some t1) ∧
    (∃ (s : State) (site : Site) (w : Word) (d : Fin 2) (k : Fin 64), site = Site.user d k ∧ s.siteType site = 0 ∧ s.cellOn site true =
      true ∧ s.islandValid site w = true ∧ (SMap.get (fun _ => []) s.fab.siteOut (siteRegion site * 16 + siteSlot site)).length < 16) ∧
    (∃ (s : State) (site : Site) (w : Word) (d : Fin 2) (k : Fin 64), site = Site.user d k ∧ s.siteType site = 0 ∧ s.cellOn site true =
      true ∧ s.islandValid site w = true ∧ 16 ≤ (SMap.get (fun _ => []) s.fab.siteOut (siteRegion site * 16 + siteSlot site)).length) ∧
    (∃ (s : State) (site : Site) (w : Word) (d : Fin 2) (p : Fin 32) (rest : List Word), site = Site.memory d p ∧ s.cellOn site true =
      true ∧ (s.mport (64 * ↑d + ↑p)).resp = w :: rest ∧ (s.mport (64 * ↑d + ↑p)).slots = [] ∧ (SMap.get (fun _ => []) s.fab.siteOut
      (siteRegion site * 16 + siteSlot site)).length < 16) ∧
    (∃ (s : State) (site : Site) (w : Word), s.siteType site = 1 ∧ s.cellOn site false = true ∧ ∃ (t : State), s.siteTake (siteRegion
      site) (siteSlot site) w = some t ∧ ∃ (t1 : State), t.enterIsland site (siteChan site 0) = some t1) ∧
    (∃ (s : State) (site : Site) (w : Word) (d : Fin 2) (k : Fin 64), site = Site.user d k ∧ s.siteType site = 1 ∧ s.cellOn site true =
      true ∧ SMap.get (fun _ => []) s.fab.siteOut (siteRegion site * 16 + readSlot site) = [] ∧ ∃ (t : State), s.siteTake (siteRegion
      site) (readSlot site) w = some t ∧ ∃ (t1 : State), t.cycleDecide (siteRegion site) (chanId 3 (siteRegion site) 0 0 (readSlot site))
      = some t1) ∧
    (∃ (s : State) (site : Site) (w : Word) (c : Fin 40), site = Site.pin c ∧ s.cellOn site true = true ∧ SMap.get (fun _ => [])
      s.fab.siteOut (siteRegion site * 16 + readSlot site) = [] ∧ ∃ (t : State), s.siteTake (siteRegion site) (readSlot site) w = some t
      ∧ ∃ (v : Nat) (t1 : State), t.siteDecide (siteRegion site) 3 (chanId 3 (siteRegion site) 0 0 (readSlot site)) (s.heldValue site) =
      some (v, t1)) ∧
    (∃ (s : State) (site : Site) (c : Fin 40), site = Site.pin c ∧ s.cellOn site true = true) ∧
    (∃ (s : State) (site : Site) (d : Fin 2) (k : Fin 64), site = Site.user d k ∧ s.siteType site = 1 ∧ s.cellOn site true = true) :=
  ⟨⟨up [o 0xA100 1 0x8000, o 0xA040 2 2], .user 0 0, Word.zero, by decide +kernel, by decide +kernel, by decide +kernel, _,
    (Option.some_get (by decide +kernel)).symm, Option.isSome_iff_exists.mp (by decide +kernel)⟩,
⟨up [o 0xA100 1 0x8400, o 0xA040 2 2, o 0xA040 4 255], .user 0 0, Word.zero, 0, 0, by decide +kernel⟩,
⟨{ up [o 0xA100 1 0x8400, o 0xA040 2 2, o 0xA040 4 255] with fab := { gsr := false, siteOut := ⟨[(14, List.replicate 16 Word.zero)]⟩ } },
    .user 0 0, Word.zero, 0, 0, by decide +kernel⟩,
⟨{ up [] with mem := { ports := ⟨[(0, { resp := [Word.zero] })]⟩ } }, .memory 0 0, Word.zero, 0, 0, [], by decide +kernel⟩,
⟨up [o 0xA100 1 0x8100, o 0xA040 2 2], .user 0 0, Word.zero, by decide +kernel, by decide +kernel, _,
    (Option.some_get (by decide +kernel)).symm, Option.isSome_iff_exists.mp (by decide +kernel)⟩,
⟨up [o 0xA100 1 0x8500, o 0xA040 2 2], .user 0 0, Word.zero, 0, 0, by decide +kernel, by decide +kernel, by decide +kernel,
    by decide +kernel, _, (Option.some_get (by decide +kernel)).symm, Option.isSome_iff_exists.mp (by decide +kernel)⟩,
⟨up [], .pin 0, Word.zero, 0, by decide +kernel, by decide +kernel, by decide +kernel, _, (Option.some_get (by decide +kernel)).symm,
    _, _, (Option.some_get (by decide +kernel)).symm⟩,
⟨up [], .pin 0, 0, by decide +kernel⟩,
⟨up [o 0xA100 1 0x8500, o 0xA040 2 2], .user 0 0, 0, 0, by decide +kernel⟩⟩



end Sys2Proof.Tests
end

/-! ### Inputs of an LU in the table index (R41 to R44) -/

namespace Sys2Proof.Machine

/-- A level moved to bit `k` of an index is the only bit of it. -/
theorem testBit_toNat_shiftLeft (b : Bool) (k i : Nat) : (b.toNat <<< k).testBit i = (b && decide (i = k)) := by
  cases b
  · simp
  · rw [Bool.toNat_true, Nat.one_shiftLeft, Nat.testBit_two_pow, Bool.true_and, decide_eq_decide]; exact eq_comm

/-- Bit `i` of the table index is the level of INi (R41). -/
theorem FabSt.testBit_index (f : FabSt) (u : Nat) (c : LuCfg) {i : Nat} (hi : i < 6) : (f.index u c).testBit i = f.level u c i := by
  have h0 := testBit_toNat_shiftLeft (f.level u c 0) 0 i
  rw [Nat.shiftLeft_zero] at h0
  simp only [FabSt.index, Nat.testBit_or, h0, testBit_toNat_shiftLeft]
  have hcases : i = 0 ∨ i = 1 ∨ i = 2 ∨ i = 3 ∨ i = 4 ∨ i = 5 := by omega
  rcases hcases with rfl | rfl | rfl | rfl | rfl | rfl <;>
    simp only [Nat.reduceEqDiff, decide_true, decide_false, Bool.and_true, Bool.and_false, Bool.or_false, Bool.false_or]

theorem FabSt.input_of_unused (f : FabSt) (u : Nat) {c : LuCfg} {i : Nat} (h : c.used i = false) : f.input u c i = false := by
  simp [FabSt.input, h]

/-- Settles O53: the table index shows each level at its bit, and an unused input, where no carry-in stands in its place, has
level 0. -/
theorem unusedInputsReadZero : Obligations.UnusedInputsReadZero := by
  intro f u i c hi hunused hcarry
  have hused : c.used i = false := by
    unfold LuCfg.used
    split at hunused
    · next hdr => rw [if_pos hdr, hunused.1, hunused.2]; rfl
    · next hdr => rw [if_neg hdr, hunused]
  rw [f.testBit_index u c hi, FabSt.level, if_neg hcarry, f.input_of_unused u hused]

end Sys2Proof.Machine

namespace Sys2Proof.Machine

/-! ### Registers that memory and the queues leave alone

`Calm` speaks of views that look at no object. Memory, the Locus queues and the streams write objects below 0xC000, so the records
of regions, units and streams above them read as before. -/

/-- A write to an object below 0xC000 is seen in no record from there on. -/
theorem State.rd_wr_low (s : State) {idx sub i : Nat} (v j : Nat) (hidx : idx < 0xC000) (hsub : sub < 256) (hi : 0xC000 ≤ i) :
    (s.wr idx sub v).rd i j = s.rd i j :=
  s.rd_wr_ne _ _ _ _ _ (by simp only [oa]; omega)

theorem State.stackOf_lt (s : State) (p : Nat) : s.stackOf p < 2 := by
  unfold State.stackOf fieldAt
  split <;> exact Nat.mod_lt _ (by decide)

theorem State.pcAt_lt (s : State) (p : Nat) : s.pcAt p < 64 := by
  have hs := s.stackOf_lt p
  have hc : pcOf (s.stackAddr p) < 32 := Nat.mod_lt _ (by decide)
  unfold State.pcAt
  omega

theorem State.streamDie_region (s : State) {k : Nat} (hk : k < 64) : s.streamDie k = k / 32 := by
  unfold State.streamDie; rw [if_pos hk]

theorem State.rd_openRow (s : State) (c acct bank row i j : Nat) : (s.openRow c acct bank row).rd i j = s.rd i j := by
  unfold State.openRow
  simp only
  split
  · split <;> rfl
  · rfl

theorem State.rd_spillStore (d q i j : Nat) (is : List Nat) : ∀ (s : State) (ws : List Word), (s.spillStore d q is ws).rd i j = s.rd i j := by
  induction is with
  | nil => intro s ws; rfl
  | cons k is ih =>
    intro s ws
    cases ws with
    | nil => rfl
    | cons w ws =>
      rw [State.spillStore, ih, State.memWrite]
      split <;> rfl

theorem State.rd_watermark (s : State) (d q i j : Nat) : (s.watermark d q).rd i j = s.rd i j := by
  unfold State.watermark
  simp only
  split
  · rfl
  · split
    · rw [State.rd_raise, State.rd_setQ]
    · split
      · rw [State.rd_raise, State.rd_setQ]
      · rfl

section

variable {i : Nat} (hi : 0xC000 ≤ i) (j : Nat)
include hi

theorem State.rd_pcTouch (s : State) {c : Nat} (hc : c < 64) : (s.pcTouch c).rd i j = s.rd i j := by
  unfold State.pcTouch
  simp only
  split
  · rw [State.rd_wr_low _ _ _ (by omega) (by decide) hi]; rfl
  · rfl

theorem State.rd_pcColumn (s : State) (acct : Nat) (w : Bool) (a : Nat) : (s.pcColumn acct w a).rd i j = s.rd i j := by
  unfold State.pcColumn
  simp only
  split
  · rfl
  · simp only [State.rd_pcCount]
    rw [State.rd_openRow, State.rd_pcTouch hi j s (s.pcAt_lt a)]

theorem State.rd_countCorrected (s : State) {d : Nat} (hd : d < 2) (k : Nat) : (s.countCorrected d k).rd i j = s.rd i j := by
  have hb (t : State) : (t.bump (ctlObj d) 8 4 k).rd i j = t.rd i j :=
    t.rd_wr_low _ _ (by unfold ctlObj; omega) (by decide) hi
  unfold State.countCorrected
  extract_lets _ _ _ _ _ _ _ s1
  have h1 : s1.rd i j = s.rd i j := hb _
  split
  · rw [State.rd_raise, h1]
  · exact h1

theorem State.rd_countUncorrectable (s : State) (port a : Nat) : (s.countUncorrectable port a).rd i j = s.rd i j := by
  have hd := s.stackOf_lt a
  have hctl : ctlObj (s.stackOf a) < 0xC000 := by unfold ctlObj; omega
  unfold State.countUncorrectable State.bump
  rw [State.rd_raise, State.rd_wr_low _ _ _ hctl (by decide) hi, State.rd_wr_low _ _ _ hctl (by decide) hi]

theorem State.rd_pcWords (s : State) (acct port : Nat) (w : Bool) (ps : List Nat) : (s.pcWords acct port w ps).rd i j = s.rd i j := by
  have hcols : (s.each (fun t c => t.pcColumn acct w (32 * c)) (columnsOf ps)).rd i j = s.rd i j :=
    State.each_keeps (fun t => t.rd i j) _ (fun t c => t.rd_pcColumn hi j acct w (32 * c)) _ s
  unfold State.pcWords
  simp only
  split
  · exact hcols
  · rw [State.readCheck, State.each_keeps (fun t => t.rd i j), hcols]
    intro t p
    split
    · rfl
    · split
      · exact t.rd_countCorrected hi j (t.stackOf_lt p) 1
      · split
        · exact t.rd_countUncorrectable hi j port p
        · rfl

theorem State.rd_queueTally (s : State) {d q sub : Nat} (hd : d < 2) (hq : q < 512) (hsub : sub < 256) (n : Nat) :
    (s.tally (queueObj d q) sub n).rd i j = s.rd i j :=
  s.rd_wr_low _ _ (by unfold queueObj; omega) hsub hi

/-- An item written to a queue of the block leaves those records as they were. -/
theorem State.rd_putItem {s t : State} {d q : Nat} {ws : List Word} {prio : Nat} (hd : d < 2) (hq : q < 512)
    (h : s.putItem d q ws prio = some t) : t.rd i j = s.rd i j := by
  unfold State.putItem at h
  split at h
  · rw [← Option.some.inj h, State.rd_locCount, State.rd_watermark, State.pushItem]
    simp only
    rw [State.spillCount, State.rd_pcWords hi, State.rd_spillStore, State.rd_queueTally hi j _ hd hq (by decide), State.rd_setQ]
  · cases h

theorem State.rd_spillPoison {d : Nat} (hd : d < 2) (q : Nat) (l : List Word) :
    ∀ (s : State) (m : List Word), (s.spillPoison d q l m).rd i j = s.rd i j := by
  induction l with
  | nil => intro s m; rfl
  | cons a l ih =>
    intro s m
    cases m with
    | nil => rfl
    | cons b m =>
      simp only [State.spillPoison]
      split
      · rw [ih, State.rd_raise, State.bump, State.rd_wr_low _ _ _ (by omega) (by decide) hi]
      · exact ih s m

theorem State.rd_takeItem (s : State) {d : Nat} (hd : d < 2) (q : Nat) (x : QItem) : (s.takeItem d q x).2.rd i j = s.rd i j := by
  unfold State.takeItem
  simp only
  rw [State.rd_locCount, State.rd_spillPoison hi j hd, State.rd_setQ, State.spillCount, State.rd_pcWords hi]

theorem State.rd_replayTake (s : State) {k : Nat} (hk : k < 64) : (s.replayTake k).rd i j = s.rd i j := by
  have hd : s.streamDie k < 2 := by rw [s.streamDie_region hk]; omega
  unfold State.replayTake
  simp only
  split
  · split
    · next hq =>
      rw [State.rd_watermark, State.countRead, State.rd_setStream, State.readDone,
        State.rd_queueTally hi j _ hd hq (by decide), State.rd_setQ, State.rd_takeItem hi j _ hd]
    · rfl
  · rfl

end

/-! ### Region records through a release of GSR -/

theorem State.regState_wr_ne (s : State) {n idx sub : Nat} (v : Nat) (hsub : sub < 256) (h : idx ≠ regObj n ∨ sub ≠ 2) :
    (s.wr idx sub v).regState n = s.regState n :=
  s.rd_wr_ne _ _ _ _ _ (by simp only [oa]; omega)

theorem State.rd_stallMark (s : State) (k kind i j : Nat) : (s.stallMark k kind).rd i j = s.rd i j := by
  unfold State.stallMark
  simp only
  split
  · rfl
  · split
    · exact State.rd_setStream ..
    · rfl

/-- EPOCH records that a region's stream writes change, of those records, its count of records alone (R154, R169). -/
theorem State.rd_epochWrite {k : Nat} (hk : k < 64) {i j : Nat} (hi : 0xC000 ≤ i) (hij : oa i j ≠ oa (detObj k) 4) (l : List Nat) :
    ∀ s : State, s.logQueue k < 512 → (s.epochWrite k l).rd i j = s.rd i j := by
  induction l with
  | nil => intro s _; rfl
  | cons a l ih =>
    intro s hq
    unfold State.epochWrite
    split
    · exact s.rd_stallMark k 0 i j
    · next u hu =>
      have hd : s.streamDie k < 2 := by rw [s.streamDie_region hk]; omega
      have hdet : 0xC000 ≤ detObj k := by unfold detObj; omega
      have hkept (i j : Nat) (hi : 0xC000 ≤ i) (hij : oa i j ≠ oa (detObj k) 4) (x : StreamSt) :
          ((u.setStream k x).bump (detObj k) 4 4 1).rd i j = s.rd i j := by
        rw [State.bump, State.rd_wr_ne _ _ _ _ _ _ hij, State.rd_setStream, State.rd_putItem hi j hd hq hu]
      simp only [if_pos hk]
      rw [ih, hkept i j hi hij]
      unfold State.logQueue at hq ⊢
      rw [if_pos hk] at hq ⊢
      rwa [hkept (detObj k) 1 hdet (by simp only [oa]; omega)]

theorem State.rd_epochFlush (s : State) {k : Nat} (hk : k < 64) {i j : Nat} (hi : 0xC000 ≤ i) (hij : oa i j ≠ oa (detObj k) 4) :
    (s.epochFlush k).rd i j = s.rd i j := by
  unfold State.epochFlush
  split
  · next hopen =>
    simp only [State.logOpen, Bool.and_eq_true, decide_eq_true_eq] at hopen
    exact s.rd_epochWrite hk hi hij _ hopen.1
  · rfl

theorem State.regState_cyclesZero (s : State) (k n : Nat) : (s.cyclesZero k).regState n = s.regState n := rfl

theorem State.regState_epoch (s : State) {k n : Nat} (hk : k < 64) (hn : n < 64) : (s.epoch k).regState n = s.regState n := by
  have hobj : detObj k ≠ regObj n := by unfold detObj regObj; omega
  unfold State.epoch
  extract_lets _ _ s0 s1
  have h1 : s1.regState n = s.regState n := by
    simp only [s1, if_pos hk]
    rw [State.regState_cyclesZero, State.regState_cyclesZero, State.regState_wr_ne _ _ (by decide) (.inl hobj),
      State.regState_wr_ne _ _ (by decide) (.inl hobj)]
    exact State.rd_setStream ..
  rw [State.regState, State.rd_epochFlush _ hk (by unfold regObj; omega) (by simp only [oa]; omega)]
  exact h1

/-- A view that events and the stream's own state leave alone is kept by the check of a region's stream (R162). -/
theorem State.streamCheck_keeps {β : Type} (p : State → β) (hs : ∀ (t : State) k x, p (t.setStream k x) = p t)
    (hr : ∀ (t : State) code cls sev idx pay, p (t.raise code cls sev idx pay) = p t) (s : State) (n : Nat) :
    p (s.streamCheck n) = p s := by
  unfold State.streamCheck
  extract_lets _ _ _ _ s2
  have h2 : p s2 = p s := by
    simp only [s2]
    split
    · rw [hr, hs]
    · exact hs ..
  split
  · rw [hr, h2]
  · exact h2

theorem State.regState_streamCheck (s : State) (k n : Nat) : (s.streamCheck k).regState n = s.regState n :=
  State.streamCheck_keeps (fun t => t.regState n) (fun t _ _ => t.rd_setStream ..) (fun t _ _ _ _ _ => t.rd_raise ..) s k

theorem State.regState_replayEpoch (s : State) {k n : Nat} (hk : k < 64) (hn : n < 64) (w : Nat) :
    (s.replayEpoch k w).regState n = s.regState n := by
  have htake : (s.replayTake k).regState n = s.regState n := s.rd_replayTake (by unfold regObj; omega) 2 hk
  unfold State.replayEpoch
  by_cases hw : recKind w = 0 ∧ recSource w = s.epochSource k
  · simp only [if_pos hw, if_pos hk]
    rw [State.bump, State.regState_wr_ne _ _ (by decide) (.inr (by decide))]
    exact (State.rd_setStream ..).trans htake
  · rw [if_neg hw]
    exact State.rd_raise ..

theorem State.regState_replayOpen (s : State) {k n : Nat} (hk : k < 64) (hn : n < 64) : (s.replayOpen k).regState n = s.regState n := by
  unfold State.replayOpen
  split
  · split
    · rfl
    · exact s.regState_replayEpoch hk hn _
  · rfl

/-- A view that events and writes of the region's word-unit record keep is kept by the check of a cluster (R143). -/
theorem State.checkCluster_keeps {β : Type} (p : State → β) {k : Nat}
    (hw : ∀ (t : State) sub v, sub < 256 → p (t.wr (unitObj (k / 64)) sub v) = p t)
    (hr : ∀ (t : State) code cls sev idx pay, p (t.raise code cls sev idx pay) = p t) (s : State) : p (s.checkCluster k) = p s := by
  unfold State.checkCluster
  extract_lets _ _ s1
  have h1 : p s1 = p s := by
    simp only [s1]
    split
    · split
      · rfl
      · rw [hr, hw _ _ _ (by decide)]
    · exact hw _ _ _ (by decide)
  split
  · split
    · exact h1
    · rw [hr, hw _ _ _ (by decide), h1]
  · rw [hw _ _ _ (by decide), h1]

theorem State.regState_checkUnits (s : State) {k n : Nat} (hk : k < 64) (hn : n < 64) : (s.checkUnits k).regState n = s.regState n := by
  refine State.each_keeps_mem (fun t => t.regState n) _ _ (fun t c hc => ?_) s
  obtain ⟨x, hx, rfl⟩ := List.mem_map.1 hc
  have hx := List.mem_range.1 hx
  have hobj : unitObj ((k * 64 + x) / 64) ≠ regObj n := by unfold unitObj regObj; omega
  exact State.checkCluster_keeps (fun t => t.regState n) (fun t sub v hsub => t.regState_wr_ne v hsub (.inl hobj))
    (fun t _ _ _ _ _ => t.rd_raise ..) t

/-- The release of one region leaves the STATE of every other as it was (R68). -/
theorem State.regState_regionRelease_ne (s : State) {k n : Nat} (hk : k < 64) (hn : n < 64) (h : n ≠ k) :
    (s.regionRelease k).regState n = s.regState n := by
  unfold State.regionRelease
  split
  · simp only
    rw [State.regState_replayOpen _ hk hn, State.regState_epoch _ hk hn, State.regState_streamCheck, State.regState_checkUnits _ hk hn,
      State.regState, State.rd_setRegState _ _ _ _ _ (by simp only [oa, regObj]; omega) (by simp only [oa, regObj]; omega),
      State.rd_modFence, State.rd_with_fab, State.regState]
  · rfl

/-! ### INIT of the LUs (R61) -/

/-- What INIT sets of an LU: its configuration, its latch and its outputs. -/
def LuSt.latch (x : LuSt) : Option LuCfg × Bool × Bool × Bool := (x.cfg, x.full, x.oF, x.oG)

/-- An LU as INIT leaves it; an inert one stays. -/
def LuSt.atInit (x : LuSt) : LuSt :=
  match x.cfg with
  | some c => initLu c
  | none => x

/-- An LU takes its INIT state. -/
def FabSt.initLuAt (f : FabSt) (u : Nat) : FabSt :=
  match (f.lu u).cfg with
  | some c => f.setLu u (initLu c)
  | none => f

theorem initLu_cfg (c : LuCfg) : (initLu c).cfg = some c := by
  unfold initLu
  repeat' split
  all_goals rfl

theorem LuSt.atInit_of_cfg {x : LuSt} {c : LuCfg} (h : x.cfg = some c) : x.atInit = initLu c := by
  simp only [LuSt.atInit, h]

theorem LuSt.atInit_of_inert {x : LuSt} (h : x.cfg = none) : x.atInit = x := by
  simp only [LuSt.atInit, h]

theorem LuSt.atInit_atInit (x : LuSt) : x.atInit.atInit = x.atInit := by
  cases h : x.cfg with
  | none => rw [LuSt.atInit_of_inert h, LuSt.atInit_of_inert h]
  | some c => rw [LuSt.atInit_of_cfg h, LuSt.atInit_of_cfg (initLu_cfg c)]

theorem FabSt.lu_initLuAt (f : FabSt) (u v : Nat) : (f.initLuAt u).lu v = if v = u then (f.lu v).atInit else f.lu v := by
  unfold FabSt.initLuAt
  split
  · next c hc =>
    rw [FabSt.lu_setLu]
    split
    · next h => rw [h, LuSt.atInit_of_cfg hc]
    · rfl
  · next hc =>
    split
    · next h => rw [h, LuSt.atInit_of_inert hc]
    · rfl

theorem FabSt.lu_each_initLuAt (v : Nat) (l : List Nat) :
    ∀ f : FabSt, (f.each FabSt.initLuAt l).lu v = if v ∈ l then (f.lu v).atInit else f.lu v := by
  induction l with
  | nil => intro f; rfl
  | cons u l ih =>
    intro f
    rw [FabSt.each, ih, FabSt.lu_initLuAt]
    by_cases hv : v = u <;> by_cases hl : v ∈ l <;> simp [hv, hl, LuSt.atInit_atInit]

theorem FabSt.initLus_eq (f : FabSt) (n : Nat) :
    f.initLus n = f.each FabSt.initLuAt (f.lus.keysWhere (fun u _ => decide (u / 16384 = n))) := rfl

/-- A key whose entry is found is among the cells. -/
theorem cellsFind_mem {α : Type} {l : List (Nat × α)} {k : Nat} {x : α} (h : cellsFind l k = some x) : (k, x) ∈ l := by
  induction l with
  | nil => cases h
  | cons c l ih =>
    obtain ⟨a, y⟩ := c
    rw [cellsFind] at h
    split at h
    · next hk => rw [hk, Option.some.inj h]; exact List.mem_cons_self
    · exact List.mem_cons_of_mem _ (ih h)

/-- A configured LU is listed. -/
theorem FabSt.mem_keysWhere_of_cfg (f : FabSt) {v n : Nat} {c : LuCfg} (h : (f.lu v).cfg = some c) (hn : v / 16384 = n) :
    v ∈ f.lus.keysWhere (fun u _ => decide (u / 16384 = n)) := by
  unfold FabSt.lu SMap.get at h
  split at h
  · next x hx => exact List.mem_map.2 ⟨(v, x), List.mem_filter.2 ⟨cellsFind_mem hx, decide_eq_true hn⟩, rfl⟩
  · cases h

/-- Every LU of the region has its INIT state, and no LU of another region changes. -/
theorem FabSt.lu_initLus (f : FabSt) (n v : Nat) : (f.initLus n).lu v = if v / 16384 = n then (f.lu v).atInit else f.lu v := by
  rw [FabSt.initLus_eq, FabSt.lu_each_initLuAt]
  by_cases hn : v / 16384 = n
  · rw [if_pos hn]
    cases hc : (f.lu v).cfg with
    | none => rw [LuSt.atInit_of_inert hc, ite_self]
    | some c => rw [if_pos (f.mem_keysWhere_of_cfg hc hn)]
  · have hl : v ∉ f.lus.keysWhere (fun u _ => decide (u / 16384 = n)) := by
      intro hv
      obtain ⟨p, hp, rfl⟩ := List.mem_map.1 hv
      exact hn (of_decide_eq_true (List.mem_filter.1 hp).2)
    rw [if_neg hn, if_neg hl]

theorem FabSt.resetPrism_lus (f : FabSt) (k : Nat) : (f.resetPrism k).lus = f.lus := by
  unfold FabSt.resetPrism
  split <;> rfl

theorem FabSt.resetPool_lus (img : Nat → SMap Word) (f : FabSt) (k : Nat) : (f.resetPool img k).lus = f.lus := by
  unfold FabSt.resetPool
  split <;> rfl

/-- A region's return to its post-configuration state sets each of its latches as INIT says, and keeps those of other regions. -/
theorem FabSt.latch_initRegion (f : FabSt) (img : Nat → SMap Word) (n v : Nat) :
    ((f.initRegion img n).lu v).latch = if v / 16384 = n then (f.lu v).atInit.latch else (f.lu v).latch := by
  unfold FabSt.initRegion
  simp only
  rw [FabSt.settled_lu_view _ _ LuSt.latch (fun _ => rfl), ← apply_ite LuSt.latch, ← FabSt.lu_initLus]
  unfold FabSt.lu FabSt.resetAcks
  simp only
  rw [FabSt.each_keeps FabSt.lus _ (FabSt.resetPool_lus img), FabSt.each_keeps FabSt.lus _ FabSt.resetPrism_lus]

/-! ### LUs through a release of GSR -/

theorem calm_lus : Calm (fun s => s.fab.lus) :=
  ⟨fun _ _ => rfl, fun _ _ => rfl, fun _ _ _ _ => rfl, fun s a b c d e => congrArg FabSt.lus (s.raise_fab d a b c e), fun _ => rfl⟩

theorem State.setStream_lus (s : State) (k : Nat) (x : StreamSt) : (s.setStream k x).fab.lus = s.fab.lus := rfl

theorem State.modFence_lus (s : State) (n : Nat) (g : FenceSt → FenceSt) : (s.modFence n g).fab.lus = s.fab.lus := rfl

theorem State.checkUnits_fab (s : State) (n : Nat) : (s.checkUnits n).fab = s.fab :=
  State.each_keeps State.fab _ (fun t k => State.checkCluster_keeps State.fab (k := k) (fun t _ _ _ => t.wr_fab ..)
    (fun t _ _ _ _ _ => t.raise_fab ..) t) _ s

theorem State.streamCheck_lus (s : State) (n : Nat) : (s.streamCheck n).fab.lus = s.fab.lus :=
  State.streamCheck_keeps (fun t => t.fab.lus) State.setStream_lus (fun t _ _ _ _ _ => congrArg FabSt.lus (t.raise_fab ..)) s n

theorem State.epoch_lus (s : State) (k : Nat) : (s.epoch k).fab.lus = s.fab.lus := by
  unfold State.epoch
  extract_lets _ _ s0 s1
  have h1 : s1.fab.lus = s.fab.lus := by
    simp only [s1]
    split <;> rfl
  rw [calm_lus.epochFlush State.setStream_lus, h1]

theorem State.replayOpen_lus (s : State) (k : Nat) : (s.replayOpen k).fab.lus = s.fab.lus := by
  have htake := calm_lus.replayTake State.setStream_lus s k
  unfold State.replayOpen State.replayEpoch State.replayMismatch
  split
  · split
    · rfl
    · split
      · simp only
        split
        · exact htake
        · exact htake
      · rw [State.raise_fab, State.setStream_lus]
  · rfl

theorem State.regionRelease_lus (s : State) {n : Nat} (h : s.regState n = 1) :
    (s.regionRelease n).fab.lus = (s.fab.initRegion s.stagedPool n).lus := by
  rw [State.regionRelease, if_pos h]
  simp only
  rw [State.replayOpen_lus, State.epoch_lus, State.streamCheck_lus, State.checkUnits_fab, State.setRegState_fab, State.modFence_lus]

/-- The release of a HELD region sets its latches as INIT says and keeps those of other regions (R61, R68). -/
theorem State.latch_regionRelease_held (s : State) {n : Nat} (h : s.regState n = 1) (v : Nat) :
    ((s.regionRelease n).fab.lu v).latch = if v / 16384 = n then (s.fab.lu v).atInit.latch else (s.fab.lu v).latch := by
  rw [← FabSt.latch_initRegion s.fab s.stagedPool]
  unfold FabSt.lu
  rw [s.regionRelease_lus h]

/-- The release of a region keeps the latch of an LU that lies in another, or that is as INIT sets it. -/
theorem State.latch_regionRelease_keeps (s : State) (n v : Nat) (h : v / 16384 = n → (s.fab.lu v).atInit.latch = (s.fab.lu v).latch) :
    ((s.regionRelease n).fab.lu v).latch = (s.fab.lu v).latch := by
  by_cases hst : s.regState n = 1
  · rw [s.latch_regionRelease_held hst]
    split
    · next hv => exact h hv
    · rfl
  · rw [State.regionRelease, if_neg hst]

theorem LuSt.cfg_of_latch {x y : LuSt} (h : x.latch = y.latch) : x.cfg = y.cfg := congrArg Prod.fst h

/-- An invariant that each item of a pass keeps is kept by the pass. -/
theorem State.each_invariant {Q : State → Prop} {f : State → Nat → State} {l : List Nat} (hQ : ∀ s m, m ∈ l → Q s → Q (f s m)) :
    ∀ s, Q s → Q (s.each f l) := by
  induction l with
  | nil => exact fun s h => h
  | cons m l ih =>
    exact fun s h => ih (fun s k hk => hQ s k (List.mem_cons_of_mem _ hk)) _ (hQ s m List.mem_cons_self h)

/-- Where the item `n` of a pass makes `Q` of `P`, the items before it keep `P` and all keep `Q`, the pass makes `Q` of `P`. -/
theorem State.each_makes {P Q : State → Prop} {f : State → Nat → State} {n : Nat} (hmakes : ∀ s, P s → Q (f s n)) {l : List Nat}
    (hP : ∀ s m, m ∈ l → m ≠ n → P s → P (f s m)) (hQ : ∀ s m, m ∈ l → Q s → Q (f s m)) (hn : n ∈ l) :
    ∀ s, P s → Q (s.each f l) := by
  induction l with
  | nil => cases hn
  | cons m l ih =>
    intro s hs
    have hQl : ∀ s k, k ∈ l → Q s → Q (f s k) := fun s k hk => hQ s k (List.mem_cons_of_mem _ hk)
    rw [State.each]
    by_cases hm : m = n
    · subst hm
      exact State.each_invariant hQl _ (hmakes s hs)
    · have hnl : n ∈ l := (List.mem_cons.1 hn).resolve_left (Ne.symm hm)
      exact ih (fun s k hk => hP s k (List.mem_cons_of_mem _ hk)) hQl hnl _ (hP s m List.mem_cons_self hm hs)

/-! ### Startup (R392) -/

/-- Startup starts the loop of an enabled island. -/
def State.islandStart (s : State) (i : Island) : State :=
  if s.rd (islObj i.die.val i.i.val) 3 = 1 then s.loopStart (islandLoop i) else s

/-- Startup's first step: the loops of the enabled islands start. -/
def State.islandsStarted (s : State) : State := islands.foldl State.islandStart (s.wr 0x2000 7 1)

/-- Startup's second step: GSR falls and the regions leave HELD. -/
def State.gsrReleased (s : State) : State :=
  ({ s with fab := { s.fab with gsr := false } } : State).each State.regionRelease allRegions

/-- GSR's release gives every configured LU of a HELD region its INIT latch (R61, R392). -/
theorem State.latch_gsrReleased (s : State) {n v : Nat} {c : LuCfg} (hn : n < 64) (hv : v / 16384 = n) (hst : s.regState n = 1)
    (hc : (s.fab.lu v).cfg = some c) : (s.gsrReleased.fab.lu v).latch = (initLu c).latch := by
  refine State.each_makes (P := fun t => t.regState n = 1 ∧ (t.fab.lu v).cfg = some c) (Q := fun t => (t.fab.lu v).latch = (initLu c).latch)
    ?_ ?_ ?_ (List.mem_range.2 hn) _ ⟨hst, hc⟩
  · rintro t ⟨ht, htc⟩
    rw [t.latch_regionRelease_held ht, if_pos hv, LuSt.atInit_of_cfg htc]
  · rintro t m hm hmn ⟨ht, htc⟩
    refine ⟨(t.regState_regionRelease_ne (List.mem_range.1 hm) hn hmn.symm).trans ht, ?_⟩
    rw [← htc]
    exact LuSt.cfg_of_latch (t.latch_regionRelease_keeps m v (fun h => absurd (h.symm.trans hv) hmn))
  · intro t m _ ht
    have hcfg : (t.fab.lu v).cfg = some c := (LuSt.cfg_of_latch ht).trans (initLu_cfg c)
    rw [t.latch_regionRelease_keeps m v (fun _ => by rw [LuSt.atInit_of_cfg hcfg, ht]), ht]

/-- A view of the state that every step of a pass keeps is kept by the pass. -/
theorem foldl_keeps {α β σ : Type} (p : σ → β) (f : σ → α → σ) (h : ∀ s a, p (f s a) = p s) (l : List α) :
    ∀ s : σ, p (l.foldl f s) = p s := by
  induction l with
  | nil => exact fun _ => rfl
  | cons a l ih => exact fun s => (ih (f s a)).trans (h s a)

theorem islObj_lt (i : Island) : islObj i.die.val i.i.val < 0xC000 := by
  unfold islObj; omega

theorem loopObj_lt (l : Loop) : loopObj l < 0xC000 := by
  unfold loopObj; omega

/-- A view that loops and writes below 0xC000 leave alone is kept by the start of an island's loop. -/
theorem State.islandStart_keeps {β : Type} (p : State → β) (hl : ∀ (t : State) l x, p (t.setLoop l x) = p t)
    (hw : ∀ (t : State) idx sub v, idx < 0xC000 → sub < 256 → p (t.wr idx sub v) = p t) (s : State) (i : Island) :
    p (s.islandStart i) = p s := by
  have hobj := loopObj_lt (islandLoop i)
  have hisl (t : State) (l : Loop) (st : Nat) : p (t.setIslandOf l st) = p t := by
    unfold State.setIslandOf
    split
    · exact hw _ _ _ _ (islObj_lt _) (by decide)
    · rfl
  unfold State.islandStart State.loopStart
  simp only
  split
  · split
    · rfl
    · rw [hisl]
      simp only [State.wrs_cons, State.wrs_nil]
      rw [hw _ _ _ _ hobj (by decide), hw _ _ _ _ hobj (by decide), hw _ _ _ _ hobj (by decide), hl]
  · rfl

theorem State.islandsStarted_fab (s : State) : s.islandsStarted.fab = s.fab := by
  have hkeeps := State.islandStart_keeps State.fab (fun t _ _ => t.setLoop_fab ..) (fun t _ _ _ _ _ => t.wr_fab ..)
  rw [State.islandsStarted, foldl_keeps State.fab State.islandStart hkeeps, State.wr_fab]

theorem State.islandsStarted_regState (s : State) (n : Nat) : s.islandsStarted.regState n = s.regState n := by
  have hi : 0xC000 ≤ regObj n := by unfold regObj; omega
  have hkeeps := State.islandStart_keeps (fun t => t.rd (regObj n) 2) (fun t _ _ => t.rd_setLoop ..)
    (fun t _ _ v hidx hsub => t.rd_wr_low v 2 hidx hsub hi)
  rw [State.regState, State.islandsStarted, foldl_keeps (fun t => t.rd (regObj n) 2) State.islandStart hkeeps,
    State.rd_wr_low _ _ _ (by decide) (by decide) hi, State.regState]

theorem State.conflictCheck_fab (s : State) (p : Nat) : (s.conflictCheck p).fab = s.fab := by
  unfold State.conflictCheck
  simp only
  rw [State.each_keeps State.fab, State.each_keeps State.fab, State.wr_fab]
  · exact fun t c => t.wr_fab _ _ _
  · exact fun t c => t.raise_fab _ _ _ _ _

theorem State.pinSet_fab (s : State) (p func : Nat) : (s.pinSet p func).fab = s.fab := by
  unfold State.pinSet
  simp only
  rw [State.conflictCheck_fab]
  split <;> rfl

theorem State.laneGo_fab (s : State) (k : Nat) : (s.laneGo k).fab = s.fab := by
  unfold State.laneGo
  split
  · split <;> rfl
  · rfl

theorem State.planPost_fab {s t : State} {kind account cost duration earliest deadline ref i : Nat}
    (h : s.planPost kind account cost duration earliest deadline ref = some (i, t)) : t.fab = s.fab := by
  unfold State.planPost at h
  split at h
  · cases h
  · simp only [Option.some.injEq, Prod.mk.injEq] at h
    rw [← h.2]
    rfl

theorem State.postScrub_fab (s : State) (d : Nat) : (s.postScrub d).fab = s.fab := by
  unfold State.postScrub State.planPostFree
  simp only
  split
  · next i t h => rw [State.planPost_fab h]; rfl
  · rfl

theorem State.openBudgets_fab (s : State) : s.openBudgets.fab = s.fab := by
  unfold State.openBudgets
  simp only
  rw [State.each_keeps State.fab]
  intro t a
  rw [State.wr_fab]

theorem State.imgResult_fab (s : State) (code : Nat) : (s.imgResult code).fab = s.fab := by
  unfold State.imgResult
  split <;> rfl

/-- After the release of the regions startup leaves the fabric as it is (R392). -/
theorem State.startup_fab (s : State) : s.startup.fab = s.islandsStarted.gsrReleased.fab := by
  unfold State.startup
  extract_lets s1 _ s2 _ s3 s4 s5 s6 s7 s8 _
  have h1 : s1 = s.islandsStarted := rfl
  have h2 : s2.fab = s1.gsrReleased.fab := State.wr_fab ..
  have h5 : s5.fab = s2.fab := by
    simp only [s5, s4]
    rw [State.each_keeps State.fab _ State.laneGo_fab, State.wr_fab,
      State.each_keeps State.fab _ (fun t p => t.pinSet_fab p (t.manVal (pinObj p) 2))]
  have h6 : s6.fab = s5.fab := by
    simp only [s6]
    rw [State.openBudgets_fab, State.postScrub_fab, State.postScrub_fab]
  have h7 : s7.fab = s6.fab := by
    simp only [s7]
    split
    · rw [State.wr_fab]
    · rfl
  have h8 : s8.fab = s7.fab := by
    simp only [s8]
    rw [State.raise_fab, State.imgResult_fab]
  have hs : s8.fab = s.islandsStarted.gsrReleased.fab := by
    rw [h8, h7, h6, h5, h2, h1]
  split
  · exact hs
  · rw [State.wr_fab, hs]

/-- The latch of a DR or BD LU as R61 gives it for each INIT. -/
theorem latch_initLu {c : LuCfg} {x : LuSt} (hmode : c.mode < 2) (h : x.latch = (initLu c).latch) :
    (c.init = 0 → x.full = false) ∧
    (c.init = 1 → x.full = true ∧ x.oF = false ∧ x.oG = decide (c.mode = 0)) ∧
    (c.init = 2 → x.full = true ∧ x.oF = true ∧ x.oG = decide (c.mode = 1)) := by
  simp only [LuSt.latch, Prod.mk.injEq] at h
  obtain ⟨-, hfull, hF, hG⟩ := h
  rw [hfull, hF, hG]
  have hm : c.mode = 0 ∨ c.mode = 1 := by omega
  rcases hm with hm | hm <;> simp +contextual [initLu, hm]

theorem un_div (u : LuLoc) : un u / 16384 = rn ⟨u.die, u.region⟩ := by
  unfold un rn
  simp only
  omega

theorem rn_lt (r : Region) : rn r < 64 := by
  unfold rn; omega

/-- Settles O54: a setting places the LU as INIT says, and at startup the release of its region, which is HELD until its turn, puts it
there again; the releases of the other regions and the rest of startup keep it. -/
theorem initSetsTheLatch : Obligations.InitSetsTheLatch := by
  refine ⟨fun f u c hmode => latch_initLu hmode ?_, fun s u c hwait hdone hheld hcfg hmode => ⟨s.startup, ?_, latch_initLu hmode ?_⟩⟩
  · rw [FabSt.putSetting, FabSt.lu_setLu_same]
  · exact if_pos ⟨hwait, hdone⟩
  · rw [State.startup_fab]
    refine State.latch_gsrReleased _ (rn_lt _) (un_div u) ?_ ?_
    · rw [State.islandsStarted_regState, hheld]
    · rw [State.islandsStarted_fab, hcfg]

end Sys2Proof.Machine

namespace Sys2Proof.Machine

/-! ### Operands and the result sideband of a Prism (R119, R120) -/

theorem PrismSt.operand_channel (x : PrismSt) (g : PrismCfg) {ws : List (Nat × Word)} {k : Nat} {w : Word} (hk : k < 2)
    (hw : cellsFind ws k = some w) : x.operand g ws k = (w.data.toNat, w.poison) := by
  simp only [PrismSt.operand, hk, hw, if_true]

theorem PrismSt.operand_register (x : PrismSt) (g : PrismCfg) (ws : List (Nat × Word)) {j : Nat} {v : BitVec 128} {p : Bool}
    (hj : j < 4) (hl : x.l[j]? = some (v, p)) : x.operand g ws (2 + j) = (v.toNat, p) := by
  have hchan : ¬ 2 + j < 2 := by omega
  have hreg : 2 + j < 6 := by omega
  simp only [PrismSt.operand, hchan, hreg, Nat.add_sub_cancel_left, hl, if_true, if_false]

@[simp] theorem PrismSt.operand_constant (x : PrismSt) (g : PrismCfg) (ws : List (Nat × Word)) :
    x.operand g ws 6 = (g.k.toNat, false) := rfl

@[simp] theorem PrismSt.operand_none (x : PrismSt) (g : PrismCfg) (ws : List (Nat × Word)) : x.operand g ws 7 = (0, false) := rfl

/-- The sideband of an operand whose source names no channel reads as 0. -/
theorem sideOf_of_no_channel (ws : List (Nat × Word)) (reads : Bool) {src : Nat} (h : 2 ≤ src) :
    sideOf ws reads src = (false, false, false) := by
  have hchan : ¬ src < 2 := by omega
  simp only [sideOf, hchan, decide_false, Bool.and_false, Bool.false_eq_true, if_false]

theorem resultSide_of_sidesrc_A {e : Nat} (ws : List (Nat × Word)) (h : fieldAt e 40 2 = 0) :
    resultSide e ws = sideOf ws (readsA (opCode e)) (opSrcA e) := by
  simp only [resultSide, h]

theorem resultSide_of_sidesrc_B {e : Nat} (ws : List (Nat × Word)) (h : fieldAt e 40 2 = 1) :
    resultSide e ws = sideOf ws (readsB (opCode e)) (opSrcB e) := by
  simp only [resultSide, h]

/-- SIDESRC 2 takes LAST of either operand, and U0 and U1 of A. -/
theorem resultSide_of_sidesrc_both {e : Nat} (ws : List (Nat × Word)) (h : fieldAt e 40 2 = 2) :
    resultSide e ws = ((sideOf ws (readsA (opCode e)) (opSrcA e)).1 || (sideOf ws (readsB (opCode e)) (opSrcB e)).1,
      (sideOf ws (readsA (opCode e)) (opSrcA e)).2) := by
  simp only [resultSide, h]

/-- Settles O55: each source code takes its own branch of the operand, and under each SIDESRC the operand that is no channel token adds 0
to the result's sideband. -/
theorem prismSources : Obligations.PrismSources := by
  refine ⟨fun x g ws => ⟨fun k w => x.operand_channel g, fun j v p => x.operand_register g ws, x.operand_constant g ws,
    x.operand_none g ws⟩, fun e ws => ⟨fun hs ha => ?_, fun hs hb => ?_, fun hs ha => ?_, fun hs hb => ?_⟩⟩
  · rw [resultSide_of_sidesrc_A ws hs, sideOf_of_no_channel ws _ ha]
  · rw [resultSide_of_sidesrc_B ws hs, sideOf_of_no_channel ws _ hb]
  · rw [resultSide_of_sidesrc_both ws hs, sideOf_of_no_channel ws _ ha, Bool.false_or]
  · rw [resultSide_of_sidesrc_both ws hs, sideOf_of_no_channel ws _ hb, Bool.or_false]

end Sys2Proof.Machine
